-- ==== Sys2Proof/Word.lean ====
section
/-! DEFINITION. The words of the model: bytes, 64-bit registers, and the bit fields of a number (R6 to R8). -/
namespace Sys2Proof

/-- One byte of a memory or of a packet. -/
abbrev Byte := BitVec 8

/-- The contents of one CSR (R10). -/
abbrev Reg64 := BitVec 64

/-- R7: the field of `n` whose lowest bit is `lo` and whose width is `w`. -/
def bitsOf (n lo w : Nat) : Nat := (n >>> lo) % 2 ^ w

/-- R7: `n` with the field of lowest bit `lo` and width `w` replaced by the low `w` bits of `v`. -/
def putBits (n lo w v : Nat) : Nat :=
  n - ((bitsOf n lo w) <<< lo) + ((v % 2 ^ w) <<< lo)

/-- Bit `i` of `n`. -/
def bitAt (n i : Nat) : Bool := Nat.testBit n i

/-- 1 for true and 0 for false. -/
def b2n (b : Bool) : Nat := if b then 1 else 0

end Sys2Proof
end

