-- ==== Sys2Proof/Syntax.lean ====
section
/-! DEFINITION. The commands of the block: one constructor per row of `spec/opcode_table.json`, in the table's order,
with the operands that name what the row acts on. Operands carry what comes from outside the block (packets, bytes that
a read of host memory returned, measured quantities) and the choices the spec promises no order for. -/
namespace Sys2Proof

/-- R595, R774: who makes an access, by the `REQUESTER` codes of the RAS log. -/
inductive Who where
  | wick | reservoir | chain | mgmt | jtag | lamplighter | other
deriving DecidableEq, Repr, Inhabited

/-- The rows of the opcode table. -/
inductive Instr where
  /-- CSR_WRITE (R11). A write to a CSR with no behaviour of its own sets, clears or ignores each field by its access type; narrow, misaligned and reserved-value writes are judged inside it. -/
  | csrWrite (who : Who) (off size val : Nat)
  /-- CSR_READ_CLEAR (R14). A read of an RC field returns the field and then clears it. -/
  | csrReadClear (who : Who) (off : Nat)
  /-- UNASSIGNED_ACCESS (R43). An access to an unassigned address is not performed and is logged, with the outcome for its requester. -/
  | unassignedAccess (who : Who) (unit : Nat) (write : Bool) (addr : Nat)
  /-- TAIL_DOORBELL (R533). A write to a doorbell page sets the tail of a COMMAND or ADMIN queue, or the head of a RESULT or EVENT queue. -/
  | tailDoorbell (inst loc idx : Nat)
  /-- DBELL (R641). A DBELL packet from the adapter is applied as a doorbell. -/
  | dbell (port inst gen loc idx : Nat)
  /-- CMDP (R541). A pushed command entry advances the tail when its position matches, else causes OVERRUN. -/
  | cmdp (port inst gen loc idx units : Nat)
  /-- ENTRY_FETCH (R540). The device reads a ring entry covered by the tail and accepts it after the checks of R546. -/
  | entryFetch (g : Nat) (bytes : List Byte)
  /-- HEAD_PUBLISH (R536). Once an entry's status is written and all earlier entries have finished, the head advances and is published. -/
  | headPublish (g : Nat)
  /-- NTFY (R648). A notification is sent when the pending count reaches its limit or the pending time expires. -/
  | ntfy (g : Nat)
  /-- EVENT_WRITE (R570). An event entry is written to the instance's EVENT ring, or counted when the ring is full. -/
  | eventWrite (inst : Nat)
  /-- OVERFLOW (R570). When an EVENT slot frees, one OVERFLOW event carrying the count of lost events is written. -/
  | overflowEvent (g : Nat)
  /-- MAILBOX_DOORBELL (R594). A write to a mailbox DOORBELL sets bits and posts a MAILBOX event to the other side. -/
  | mailboxDoorbell (inst : Nat) (down : Bool) (val : Nat)
  /-- IDENTIFY (R561). Writes the 4,096-byte identification buffer to host memory. -/
  | identify (key : Nat)
  /-- QUEUE_CREATE (R559). Creates a COMMAND, RESULT or EVENT queue and returns its global number. -/
  | queueCreate (key g : Nat)
  /-- QUEUE_DELETE (R565). Makes an idle disabled or overrun queue ABSENT. -/
  | queueDelete (key : Nat)
  /-- QUEUE_DRAIN (R566). Waits until the queue's head reaches the noted tail, optionally disabling it first. -/
  | queueDrain (key : Nat)
  /-- QUEUE_FLUSH (R567). Completes every unstarted entry below the noted tail with ABORTED_FLUSH. -/
  | queueFlush (key : Nat) (firsts : List (List Byte))
  /-- GET_STATE (R840). Writes census records of one class, from a first key, to host memory. -/
  | getState (key : Nat)
  /-- SET_FEATURE (R562). Sets notification coalescing or NOTIFY_EN of a queue. -/
  | setFeature (key : Nat)
  /-- GET_LOG (R599). Writes change-journal, RAS or lantern outcome records to host memory. -/
  | getLog (key : Nat) (upset : Bool)
  /-- INSTANCE_CREATE (R583). Creates a tenant instance with its class, amounts and admin queue, and issues a generation. -/
  | instanceCreate (key : Nat)
  /-- INSTANCE_RESIZE (R592). Changes the amounts of a RESERVED instance. -/
  | instanceResize (key : Nat)
  /-- RESIZE_RELEASE (R592). A pending shrink releases its reservation once held memory or banks fall to the new value. -/
  | resizeRelease (inst : Nat)
  /-- INSTANCE_RESET (R584). Issues a new generation and cancels all work, runs, pipelines and non-admin queues of the instance. -/
  | instanceReset (key : Nat)
  /-- INSTANCE_DESTROY (R585). Retires the instance's generation, tears it down and makes it ABSENT. -/
  | instanceDestroy (key : Nat)
  /-- GENERATION_RETIRE_END (R578). A retired generation stops being tracked once its outstanding work ends. -/
  | generationRetireEnd (inst gen : Nat)
  /-- STALE_WRITE_DROP (R580). A write whose generation is not current is dropped at its output stage and counted. -/
  | staleWriteDrop (n : Nat)
  /-- POOL_SETUP (R589). Fixes MAX_POOLED and the pool that POOLED instances share. -/
  | poolSetup (key : Nat)
  /-- FW_STAGE (R725). Appends bytes to the staged firmware image and, with LAST, verifies it. -/
  | fwStage (key : Nat) (bytes : Option (List Byte))
  /-- FW_ACTIVATE (R728). Boots the staged image on the stoker, which takes over, and then reboots the old captain. -/
  | fwActivate (key : Nat) (flash : Bool)
  /-- FW_ACTIVATE_TIMEOUT (R730). An activation whose first two steps are not done within 2,000 ms is abandoned. -/
  | fwActivateTimeout
  /-- KEY_LOAD (R736). Loads a wrapped key into, or empties, a Sealwax key slot. -/
  | keyLoad (key : Nat) (blob : Option (List Byte))
  /-- REPAIR (R784). Replaces or remaps a named unit by its spare. -/
  | repair (key : Nat) (left bad : Bool)
  /-- TIME_SET (R501). Asks that rack time be set to T at the next accepted PPS edge. -/
  | timeSet (key : Nat)
  /-- TIME_SET_TIMEOUT (R504). A TIME_SET with no accepted edge within 3 s completes with BUSY. -/
  | timeSetTimeout
  /-- TABLE_WRITE (R557). Starts a write of host data into a table region through a data phase. -/
  | tableWrite (key : Nat)
  /-- XFER_RDY (R643). Once staging is reserved, the device asks the adapter for the next part of a TABLE_WRITE. -/
  | xferRdy (key xid : Nat)
  /-- DATA (R644). A DATA packet delivers bytes for an outstanding transfer request; length breaches fail the write. -/
  | dataPacket (port inst gen loc entry xid off : Nat) (last : Bool) (bytes : List Byte)
  /-- XFER_TIMEOUT (R645). A request with no DATA for XFER_TO of ACTIVE time fails the write with DATA_UNDERRUN. -/
  | xferTimeout (key xid : Nat)
  /-- TABLE_READ (R559). Copies region bytes to host memory. -/
  | tableRead (key : Nat)
  /-- TABLE_COPY (R559). Copies bytes between table regions. -/
  | tableCopy (key : Nat)
  /-- REGION_ALLOC (R559). Allocates a table region and returns its number. -/
  | regionAlloc (key num base : Nat)
  /-- REGION_FREE (R559). Frees a table region. -/
  | regionFree (key : Nat)
  /-- PIPELINE_LOAD (R429). Copies, checks and optionally verifies a pipeline image and loads it. -/
  | pipelineLoad (key num : Nat) (kernels : List (Nat × Nat × Nat)) (chds : List (Nat × List Nat)) (folds : List Nat)
  /-- PIPELINE_UNLOAD (R430). Frees a pipeline's number, kernels, recipes and tables. -/
  | pipelineUnload (key : Nat)
  /-- QUERY_RUN (R438). Queues a run of a loaded pipeline with its parameters and result ring. -/
  | queryRun (key : Nat)
  /-- RUN_START (R440). When the pipeline's previous run completes, the run allocates areas, copies scan lists and starts. -/
  | runStart (key : Nat) (areas scans folds : List Nat)
  /-- QUERY_ABORT (R458). Fails a named run with ABORTED_HOST. -/
  | queryAbort (key : Nat)
  /-- QUERY_STATUS (R563). Writes the 64-byte status record of a run to host memory. -/
  | queryStatus (key : Nat)
  /-- DIGEST (R740). Absorbs host data into a SHA-256 or HMAC message and, with FINISH, writes the digest or an attestation. -/
  | digest (key : Nat) (bytes : Option (List Byte)) (fails : Nat)
  /-- BARRIER (R553). Orders commands of the queue, or of the instance when SCOPE is 1. -/
  | barrier (key : Nat)
  /-- NOP (R559). A command entry with no effect. -/
  | nop (key : Nat)
  /-- QM_QRESET_GO (R571). Resets an idle disabled or overrun queue to index 0 and DISABLED. -/
  | qmQresetGo (who : Who) (g : Nat)
  /-- QUEUE_ENABLE (R564). A write of QM_QCFGg.EN moves a queue between ENABLED and DISABLED. -/
  | queueEnable (who : Who) (g : Nat) (en : Bool)
  /-- STAGE_START (R443). A stage starts when the run starts or when every stage it waits on has completed, and creates its tasks. -/
  | stageStart (key stage : Nat) (picks : List (Nat × Nat))
  /-- STAGE_BARRIER (R443). Once every task of a stage has committed and its fold requests are acknowledged, the barrier work runs and the stage completes. -/
  | stageBarrier (key stage rows nulls : Nat)
  /-- DISPATCH (R515). The Derailleur gives a ready task to a free wick of its slot and writes its parameter block. -/
  | dispatch (w ctx upset : Nat)
  /-- COG (R507). A cog elapses and every due delay-list entry moves to its ready list. -/
  | cog
  /-- LOAD_WINDOW (R524). A load window of LOADWIN cogs ends and wick load figures are latched. -/
  | loadWindow
  /-- PREEMPT (R213). At an interruption point the wick saves the task's state and frees itself. -/
  | preempt (w save : Nat)
  /-- RESUME_TASK (R214). A preempted task is restored on a wick of the same slot and continues. -/
  | resumeTask (w ctx : Nat)
  /-- WATCHDOG (R211). A task's cycle count reaches its budget and the wick traps WATCHDOG. -/
  | watchdog (w stall : Nat)
  /-- STALLED_WORD_ISSUE (R177). A word stalled on a port or far-load interlock issues once the slot is filled or freed or the data written. -/
  | stalledWordIssue (w stall : Nat)
  /-- FAR_LOAD_DATA (R195). The data of a far load arrives and is written to its wax destination. -/
  | farLoadData (w n : Nat)
  /-- COMMIT_PASS (R454). Once verification, scrub-gate and peer waits are met, the run is made PASSED atomically. -/
  | commitPass (ctx : Nat)
  /-- PUBLISH (R455). Every staged output of a passed run takes its commit effect at once. -/
  | publish (ctx : Nat)
  /-- SLOT_COMMIT (R460). When every task of a window-owning stage on a slot is PASSED, they all publish together. -/
  | slotCommit (key stage slot : Nat)
  /-- SLOT_RESTART (R461). A re-run before the slot commit restarts every task of the stage on the slot. -/
  | slotRestart (key stage slot : Nat)
  /-- MIGRATION (R479). A task that is not PASSED is stopped, its epoch raised and it is made ready again. -/
  | migration (ctx slot : Nat)
  /-- RESULT_ENTRY_WRITE (R467). The delivery engine writes a committed task's rows as a result entry into free ring space. -/
  | resultEntryWrite (key : Nat)
  /-- END_ENTRY_WRITE (R474). After the last entry of a completed run, the END entry is written and then the status. -/
  | endEntryWrite (key : Nat)
  /-- RESULT_STALL (R470). The stall timer reaches STALL_LIMIT and the run fails, or with HOLD it is suspended. -/
  | resultStall (key : Nat)
  /-- RUN_RESUME (R472). A suspended run resumes when a quarter of the result ring is free. -/
  | runResume (key : Nat)
  /-- DEADLINE_MISSED (R475). Rack time reaches a run's deadline before its END entry and the run fails. -/
  | deadlineMissed (key : Nat)
  /-- RECIPE_SLOT_FILL (R111). A task binds its recipe, filling the least recently used idle slot when none holds it. -/
  | recipeSlotFill (w : Nat) (fault : Bool)
  /-- SEGMENT_DELIVER (R157). The Reservoir decodes, filters and delivers one segment and its descriptor once the ports have room. -/
  | segmentDeliver (w : Nat) (faults : List (Nat × Nat × Nat)) (upset : Bool)
  /-- ID_BITMAP_BUILD (R131). The Reservoir evaluates a predicate on every dictionary entry to build an id bitmap. -/
  | idBitmapBuild (w : Nat)
  /-- LEDGER_REPORT (R142). A block CRC, or a task's report of reading nothing, reaches the chunk ledger. -/
  | ledgerReport
  /-- LEDGER_FILL (R145). Once every planned task has reported, unreported blocks are fetched and reported. -/
  | ledgerFill (k : Nat)
  /-- RCPINV (R430). A write of LANnn_RSV_RCPINV invalidates recipe slots. -/
  | rcpinv (who : Who) (n slots : Nat)
  /-- RECIPE_WINDOW_WRITE (R169). A write to a recipe slot window is stored or refused. -/
  | recipeWindowWrite (who : Who) (n slot j val : Nat)
  /-- WORD_NOP (R227). Taper NOP. -/
  | wordNop (w code : Nat)
  /-- MOV (R229). Copies source 2 to the destination. -/
  | mov (w code : Nat)
  /-- ADD (R229). Lane-wise addition modulo 2^w. -/
  | add (w code : Nat)
  /-- SUB (R229). Lane-wise subtraction modulo 2^w. -/
  | sub (w code : Nat)
  /-- MUL (R229). Low half of the lane-wise product. -/
  | mul (w code : Nat)
  /-- MULH (R229). High half of the signed product. -/
  | mulh (w code : Nat)
  /-- MULHU (R229). High half of the unsigned product. -/
  | mulhu (w code : Nat)
  /-- DIV (R230). Signed division, trapping on a zero divisor. -/
  | div (w code : Nat)
  /-- DIVU (R230). Unsigned division. -/
  | divu (w code : Nat)
  /-- REM (R230). Signed remainder. -/
  | rem (w code : Nat)
  /-- REMU (R230). Unsigned remainder. -/
  | remu (w code : Nat)
  /-- MIN (R229). Signed minimum. -/
  | min (w code : Nat)
  /-- MAX (R229). Signed maximum. -/
  | max (w code : Nat)
  /-- MINU (R229). Unsigned minimum. -/
  | minu (w code : Nat)
  /-- MAXU (R229). Unsigned maximum. -/
  | maxu (w code : Nat)
  /-- NEG (R229). Lane-wise negation. -/
  | neg (w code : Nat)
  /-- ABS (R229). Lane-wise absolute value. -/
  | abs (w code : Nat)
  /-- AND (R229). Bitwise AND. -/
  | and (w code : Nat)
  /-- OR (R229). Bitwise OR. -/
  | or (w code : Nat)
  /-- XOR (R229). Bitwise XOR. -/
  | xor (w code : Nat)
  /-- ANDN (R229). a AND NOT b. -/
  | andn (w code : Nat)
  /-- NOT (R229). Bitwise NOT. -/
  | not (w code : Nat)
  /-- SHL (R229). Left shift. -/
  | shl (w code : Nat)
  /-- SHR (R229). Logical right shift. -/
  | shr (w code : Nat)
  /-- SAR (R229). Arithmetic right shift. -/
  | sar (w code : Nat)
  /-- ADDO (R229). Signed addition overflow mask. -/
  | addo (w code : Nat)
  /-- SUBO (R229). Signed subtraction overflow mask. -/
  | subo (w code : Nat)
  /-- MULO (R229). Signed multiplication overflow mask. -/
  | mulo (w code : Nat)
  /-- ADDOU (R229). Unsigned carry mask. -/
  | addou (w code : Nat)
  /-- SUBOU (R229). Unsigned borrow mask. -/
  | subou (w code : Nat)
  /-- SWIDEN (R229). Sign-extends half-width lanes. -/
  | swiden (w code : Nat)
  /-- UWIDEN (R229). Zero-extends half-width lanes. -/
  | uwiden (w code : Nat)
  /-- NARROW (R229). Packs the low halves of lanes. -/
  | narrow (w code : Nat)
  /-- ADDQ (R229). 128-bit lane addition. -/
  | addq (w code : Nat)
  /-- SUBQ (R229). 128-bit lane subtraction. -/
  | subq (w code : Nat)
  /-- ADDQO (R229). 128-bit signed addition overflow mask. -/
  | addqo (w code : Nat)
  /-- SUBQO (R229). 128-bit signed subtraction overflow mask. -/
  | subqo (w code : Nat)
  /-- DSCL (R229). Scales a decimal by 10^b. -/
  | dscl (w code : Nat)
  /-- DSCLO (R229). Overflow mask of decimal scaling. -/
  | dsclo (w code : Nat)
  /-- DDIVR (R231). Divides by 10^b with rounding half away from zero. -/
  | ddivr (w code : Nat)
  /-- CMPEQ (R229). Equality mask. -/
  | cmpeq (w code : Nat)
  /-- CMPNE (R229). Inequality mask. -/
  | cmpne (w code : Nat)
  /-- CMPLT (R229). Signed less-than mask. -/
  | cmplt (w code : Nat)
  /-- CMPLE (R229). Signed less-or-equal mask. -/
  | cmple (w code : Nat)
  /-- CMPGT (R229). Signed greater-than mask. -/
  | cmpgt (w code : Nat)
  /-- CMPGE (R229). Signed greater-or-equal mask. -/
  | cmpge (w code : Nat)
  /-- CMPLTU (R229). Unsigned less-than mask. -/
  | cmpltu (w code : Nat)
  /-- CMPLEU (R229). Unsigned less-or-equal mask. -/
  | cmpleu (w code : Nat)
  /-- CMPGTU (R229). Unsigned greater-than mask. -/
  | cmpgtu (w code : Nat)
  /-- CMPGEU (R229). Unsigned greater-or-equal mask. -/
  | cmpgeu (w code : Nat)
  /-- BLEND (R229). Writes lanes of a where b is non-zero. -/
  | blend (w code : Nat)
  /-- COMPRESS (R229). Packs the selected lanes toward lane 0. -/
  | compress (w code : Nat)
  /-- EXPAND (R229). Spreads lanes into the selected positions. -/
  | expand (w code : Nat)
  /-- MCOUNT (R229). Counts non-zero lanes. -/
  | mcount (w code : Nat)
  /-- MEXP (R229). Expands a bit mask into a lane mask. -/
  | mexp (w code : Nat)
  /-- MPACK (R229). Packs a lane mask into a bit mask. -/
  | mpack (w code : Nat)
  /-- MTAIL (R229). Builds a tail mask of n lanes. -/
  | mtail (w code : Nat)
  /-- FADD (R232). Float addition. -/
  | fadd (w code : Nat)
  /-- FSUB (R232). Float subtraction. -/
  | fsub (w code : Nat)
  /-- FMUL (R232). Float multiplication. -/
  | fmul (w code : Nat)
  /-- FDIV (R232). Float division. -/
  | fdiv (w code : Nat)
  /-- FSQRT (R232). Float square root. -/
  | fsqrt (w code : Nat)
  /-- FMIN (R234). Lesser float under the total order. -/
  | fmin (w code : Nat)
  /-- FMAX (R234). Greater float under the total order. -/
  | fmax (w code : Nat)
  /-- FNEG (R232). Inverts the sign bit. -/
  | fneg (w code : Nat)
  /-- FABS (R232). Clears the sign bit. -/
  | fabs (w code : Nat)
  /-- FCEQ (R234). Float equality mask. -/
  | fceq (w code : Nat)
  /-- FCLT (R234). Float precedes mask. -/
  | fclt (w code : Nat)
  /-- FCLE (R234). Float precedes-or-equals mask. -/
  | fcle (w code : Nat)
  /-- FCANON (R234). Replaces zeros and NaNs by their representatives. -/
  | fcanon (w code : Nat)
  /-- FCVTF (R232). Integer to float conversion. -/
  | fcvtf (w code : Nat)
  /-- FCVTI (R232). Float to integer conversion toward zero. -/
  | fcvti (w code : Nat)
  /-- FWIDEN (R232). binary32 to binary64. -/
  | fwiden (w code : Nat)
  /-- FNARROW (R232). binary64 to binary32. -/
  | fnarrow (w code : Nat)
  /-- HASH (R236). Computes KH64. -/
  | hash (w code : Nat)
  /-- HASHF (R236). Folds a column into a key hash. -/
  | hashf (w code : Nat)
  /-- CRCB (R237). Updates a raw CRC-32C register with up to 32 bytes. -/
  | crcb (w code : Nat)
  /-- PFXCMP (R229). Counts equal leading bytes and orders the first difference. -/
  | pfxcmp (w code : Nat)
  /-- BCLASS (R229). Classifies bytes by a 256-bit set. -/
  | bclass (w code : Nat)
  /-- LDX (R240). Starts a 32-byte far load through a window. -/
  | ldx (w code : Nat)
  /-- GATHER (R240). Starts a per-lane far load through a window. -/
  | gather (w code : Nat)
  /-- STX (R239). Stores 32 bytes into a lantern-store window. -/
  | stx (w code : Nat)
  /-- SFOLD (R242). Folds lanes atomically into lantern-store elements. -/
  | sfold (w code : Nat)
  /-- EMIT (R244). Appends selected lanes to an output port's pack buffer. -/
  | emit (w code : Nat)
  /-- EFLUSH (R246). Flushes a port's pack buffer into a slot. -/
  | eflush (w code : Nat)
  /-- SEARCH (R250). Sends a Chandelier search request and key. -/
  | search (w code : Nat)
  /-- STEP (R250). Sends a Chandelier step request. -/
  | step (w code : Nat)
  /-- SLPUSH (R254). Pushes a record into the wick's open run. -/
  | slpush (w code : Nat)
  /-- SLSEAL (R254). Seals the wick's open run. -/
  | slseal (w code : Nat)
  /-- SLPOP (R255). Reads half of the current sorted record. -/
  | slpop (w code : Nat)
  /-- LDA (R257). Loads an address register. -/
  | lda (w code : Nat)
  /-- ADDA (R257). Adds to an address register. -/
  | adda (w code : Nat)
  /-- STA (R257). Stores an address register to wax. -/
  | sta (w code : Nat)
  /-- RDFF (R174). Reads FFLAGS. -/
  | rdff (w code : Nat)
  /-- CLRFF (R174). Clears FFLAGS bits. -/
  | clrff (w code : Nat)
  /-- RDREP (R174). Reads REPCNT. -/
  | rdrep (w code : Nat)
  /-- BR (R258). Unconditional branch. -/
  | br (w code : Nat)
  /-- BANY (R259). Branch when any lane is TRUE. -/
  | bany (w code : Nat)
  /-- BALL (R259). Branch when every lane is TRUE. -/
  | ball (w code : Nat)
  /-- BNONE (R259). Branch when no lane is TRUE. -/
  | bnone (w code : Nat)
  /-- BNALL (R259). Branch when some lane is FALSE. -/
  | bnall (w code : Nat)
  /-- LOOP (R259). Decrements a register and branches while non-zero. -/
  | loop (w code : Nat)
  /-- BAZ (R258). Branch when a register is zero. -/
  | baz (w code : Nat)
  /-- BANZ (R258). Branch when a register is non-zero. -/
  | banz (w code : Nat)
  /-- CALL (R199). Sets LR and jumps. -/
  | call (w code : Nat)
  /-- RET (R200). Jumps to LR, or ends the task when LR is 0x3_FFFF. -/
  | ret (w code : Nat)
  /-- YIELD (R212). An interruption point where the Derailleur may preempt. -/
  | yield (w code : Nat)
  /-- HALT (R210). Ends the task successfully. -/
  | halt (w code : Nat)
  /-- HALTF (R260). Ends the task failed with AGG_OVERFLOW. -/
  | haltf (w code : Nat)
  /-- BREAK (R216). Raises BREAK or holds the wick. -/
  | break (w code : Nat)
  /-- REP (R202). Repeats the next word n times without interruption. -/
  | rep (w code : Nat)
  /-- REPI (R203). Repeats the next word n times with interruption points. -/
  | repi (w code : Nat)
  /-- EXCHANGE_SEND (R323). The exchange engine reads a record from a port and sends it to its partition's slot or device. -/
  | exchangeSend (w p stall : Nat)
  /-- EXCHANGE_FLIT_RECEIVE (R325). A receiving engine writes an exchange flit's records into landing blocks. -/
  | exchangeFlitReceive (nth : Nat)
  /-- RECORDS (R653). A PEER_XCH RECORDS packet is delivered to its slot or forwarded. -/
  | recordsPacket (port src dst hops inst gen slot task exch epoch : Nat) (bytes : List Byte)
  /-- MARK (R655). A commit marker counting exchange flits reaches a peer, which acknowledges once they are written. -/
  | markPacket (port src dst hops task epoch flits : Nat)
  /-- MARK_ACK (R655). A peer acknowledges a task's commit marker. -/
  | markAck (port src dst hops task epoch : Nat)
  /-- UNREACHABLE (R656). Runs waiting on or sending to the lost device fail with LINK_LOST. -/
  | unreachable (port src dst hops lost : Nat)
  /-- CHD_SEARCH_SERVE (R287). A Chandelier serves a SEARCH request and returns HIT, MULTI or NONE. -/
  | chdSearchServe (w : Nat) (ups : List (Nat × Nat × Nat))
  /-- CHD_STEP_SERVE (R288). A Chandelier serves a STEP request. -/
  | chdStepServe (w : Nat) (ups : List (Nat × Nat × Nat))
  /-- GO (R277). CHDc_LOAD_CTL.GO starts the load engine on a table. -/
  | chdGo (who : Who) (c val : Nat)
  /-- CLEAR (R284). CHDc_LOAD_CTL.CLEAR invalidates every entry of a table. -/
  | chdClear (who : Who) (c val : Nat)
  /-- INSERT (R278). A load record inserts an entry into its bank. -/
  | chdInsert (c : Nat)
  /-- DELETE (R279). A load record invalidates the matching entry. -/
  | chdDelete (c : Nat)
  /-- SCRUB_ROW (R298). The scrubber compares one row with its shadow every INTERVAL cycles. -/
  | scrubRow (c : Nat) (ups : List (Nat × Nat × Nat))
  /-- BANK_WRITE (R315). A write to CHDc_BANKb is stored or refused. -/
  | bankWrite (who : Who) (c b val : Nat)
  /-- FOLD_REQUEST_APPLY (R365). A fold unit applies a released request to its cells. -/
  | foldRequestApply (nth upset : Nat)
  /-- FOLD_LINE_DRAIN (R382). A line drains from a fold unit's write queue to HBM. -/
  | foldLineDrain (ch : Nat)
  /-- FINISH (R385). Fold units merge replicas and finish every cell of a table. -/
  | foldFinish (key p : Nat)
  /-- FOLD_SPARE_SWAP (R388). The spare fold unit takes over a channel after the old unit drains. -/
  | foldSpareSwap (st u : Nat)
  /-- FOLD_TBL_CFG_WRITE (R392). A write to a fold-table register is stored, changes only VALID, or is refused. -/
  | foldTblCfgWrite (who : Who) (t k val : Nat)
  /-- LADDER_SORT (R406). The sort ladder sorts one sealed run. -/
  | ladderSort (n : Nat) (upset : Bool)
  /-- RUN_CLOSE (R409). The run builder merges a full or ended buffer and writes a run to HBM. -/
  | runClose (w a : Nat)
  /-- MERGE (R413). A merge task produces records of COMMITTED runs in order. -/
  | sortMerge (w a : Nat)
  /-- FMTCTL_SET (R420). LANnn_SL_FMTCTL.SET marks format slots valid. -/
  | fmtctlSet (who : Who) (n bits : Nat)
  /-- FMTCTL_CLEAR (R420). LANnn_SL_FMTCTL.CLEAR marks format slots invalid. -/
  | fmtctlClear (who : Who) (n bits : Nat)
  /-- FORMAT_WINDOW_WRITE (R421). A write to a key format window is stored or refused. -/
  | formatWindowWrite (who : Who) (n j val : Nat)
  /-- REF_WINDOW (R489). A 10 µs window ends and the reference is judged present or lost. -/
  | refWindow (edges : Nat)
  /-- REF_LOSS_TIMEOUT (R495). In ACQUIRE, a reference lost for 1.5 s moves the time base to HOLDOVER. -/
  | refLossTimeout
  /-- PPS_PULSE (R490). A TB_PPS pulse ends and is judged an edge or a runt, then accepted or discarded. -/
  | ppsPulse (samples stamp : Nat)
  /-- PPS_TIMEOUT (R493). 1.5 s pass with no accepted edge and the time base enters HOLDOVER. -/
  | ppsTimeout
  /-- SLEW_STEP (R499). Every 40,000 TB cycles while a correction remains, one cycle adds 3 ns or 5 ns. -/
  | slewStep
  /-- OSC_MEASURE (R506). Each second with the reference present, the oscillator's residual error is measured. -/
  | oscMeasure (ppb : Int)
  /-- COGCFG_WRITE (R508). A write of DRL_COGCFG.PERIOD is applied or refused. -/
  | cogcfgWrite (who : Who) (val : Nat)
  /-- MINUTE_BOUNDARY (R600). Rack time reaches a minute boundary and the Tally closes one record per instance. -/
  | minuteBoundary
  /-- TALLY_RECORD_WRITE (R605). A closed or merge tally record is written to the tally ring when it has room. -/
  | tallyRecordWrite
  /-- FLIT_RECEIVE (R626). A received flit is checked and accepted, discarded, or answered with NAK. -/
  | flitReceive (p : Nat) (bytes : List Byte) (uncorr : Nat)
  /-- REPLAY_TIMEOUT (R627). ACK has not advanced for REPLAY_TO and the transmitter replays. -/
  | replayTimeout (p : Nat)
  /-- CONTROL_RESEND (R625). A CONTROL message unanswered for 10 µs is sent again. -/
  | controlResend (p n : Nat)
  /-- SWAP_REQ (R620). A transmitter receiving SWAP_REQ chooses a group and announces it. -/
  | swapReq (p k g : Nat)
  /-- SWAP_AT (R620). At the announced group both ends switch to SPARE layout. -/
  | swapAt (p : Nat) (tx : Bool)
  /-- LANE_ERROR_WINDOW (R619). Each 1 ms a lane's corrected symbols are judged, and SWAP_REQ sent when it has gone bad. -/
  | laneErrorWindow (p : Nat) (counts : List Nat) (unlocked : Nat)
  /-- PORT_ENABLE (R616). A write of MLKn_CTL.EN enables or disables a port. -/
  | portEnable (who : Who) (p : Nat) (en : Bool)
  /-- RETRAIN (R616). MLKn_CTL.RETRAIN retrains an ACTIVE port. -/
  | retrain (p : Nat)
  /-- TRAINING_FRAMES (R616). Partner frames seen on at least 4 lanes move DETECT to EQUALISE. -/
  | trainingFrames (p lanes : Nat)
  /-- EQUALISE_DONE (R617). Lanes settle or 50 ms elapse and the port moves to ALIGN. -/
  | equaliseDone (p good : Nat) (settled : Bool)
  /-- ALIGN_DONE (R615). Lane order, polarity and deskew are learned and the port moves to CONFIG. -/
  | alignDone (p : Nat) (lanes : List (Bool × Nat × Nat))
  /-- CONFIG_AGREEMENT (R618). CONFIG ends with layouts chosen, or back to DETECT, or FAILED. -/
  | configAgreement (p mode dev good : Nat) (credits : List Nat) (resume : Bool) (ack : Nat)
  /-- TRAIN_TIMEOUT (R617). 250 ms in training states returns the port to DETECT. -/
  | trainTimeout (p : Nat)
  /-- REFCLK_LOSS (R611). Loss of MLK_REFCLKn takes the port out of ACTIVE. -/
  | refclkLoss (p : Nat)
  /-- LINK_LOST (R658). A port not ACTIVE again within 2 s discards its replay buffer and fails dependent work. -/
  | linkLost (p : Nat)
  /-- CPL (R637). A completion answers an outstanding MRD. -/
  | cpl (p tag st : Nat) (bytes : List Byte)
  /-- CPL_TIMEOUT (R639). An MRD without completion for 50 ms of ACTIVE time fails. -/
  | cplTimeout (p tag : Nat)
  /-- PUBLICATION_REISSUE (R854). Unconfirmed publication writes are issued again 1 ms after a failed read-back. -/
  | publicationReissue (p : Nat)
  /-- HELLO (R635). A MGMT HELLO repeats the CONFIG values. -/
  | hello (p mode dev : Nat)
  /-- ECHO (R635). A MGMT ECHO is answered with ECHO_REPLY. -/
  | echo (p : Nat) (bytes : List Byte)
  /-- ECHO_REPLY (R635). A MGMT ECHO_REPLY completes a round-trip measurement. -/
  | echoReply (p : Nat) (bytes : List Byte)
  /-- REFRESH (R665). A refresh interval elapses and a channel receives an all-bank refresh. -/
  | refresh (st u : Nat)
  /-- TEMP_READOUT (R666). Every 128 µs the stack temperature is read and the hot state updated. -/
  | tempReadout (st temp : Nat)
  /-- PATROL_READ (R674). The patrol scrubber reads the next beat of the stack. -/
  | patrolRead (st fault dq : Nat)
  /-- HBM_RETRAIN (R670). A pseudo-channel is retrained on its period or a 10 °C move. -/
  | hbmRetrain (st u q : Nat) (moves : List (Nat × Int × Int))
  /-- FRAME_RETIRE (R675). A 4 KiB frame is copied to a pool frame and remapped. -/
  | frameRetire (ch frame spare : Nat) (faults : List (Nat × Nat × Nat))
  /-- TRN_GO (R703). HBMs_TRN_CTL.GO runs a training pattern. -/
  | trnGo (who : Who) (st val fails count : Nat)
  /-- CHAIN_GO (R682). CHN_CCTLc.GO arms the shadow set, starting it when the channel is idle. -/
  | chainGo (who : Who) (c val : Nat) (faults : List (Nat × Nat × Nat))
  /-- ABORT (R684). CHN_CCTLc.ABORT stops a channel after its current burst. -/
  | chainAbort (who : Who) (c val : Nat)
  /-- CHAIN_CLEAR (R683). CHN_CCTLc.CLEAR returns a HALTED channel to IDLE. -/
  | chainClear (who : Who) (c val : Nat)
  /-- CHAIN_COMPLETE (R681). A transfer's writes are accepted or confirmed by read-back and the channel moves on. -/
  | chainComplete (c : Nat) (faults : List (Nat × Nat × Nat))
  /-- SCONCE_REQUEST (R690). A Sconce request hits or misses and allocates a way. -/
  | sconceRequest (w n j upset : Nat)
  /-- SCONCE_FILL (R690). A line's beats arrive and waiting requesters restart. -/
  | sconceFill (n w : Nat) (faults : List (Nat × Nat × Nat))
  /-- SCONCE_WRITE_BACK (R692). A dirty victim in the eviction buffer is written back. -/
  | sconceWriteBack (n : Nat)
  /-- SCN_CLEAN (R695). LANnn_SCN_MAINT clean on a line or way. -/
  | scnClean (who : Who) (n val : Nat)
  /-- SCN_INVALIDATE (R695). LANnn_SCN_MAINT invalidate on a line or way. -/
  | scnInvalidate (who : Who) (n val : Nat)
  /-- SCN_CLEAN_INVALIDATE (R695). LANnn_SCN_MAINT clean and invalidate on a line or way. -/
  | scnCleanInvalidate (who : Who) (n val : Nat)
  /-- SCN_RANGE (R696). LANnn_SCN_MAINT range operation on the background engine. -/
  | scnRange (who : Who) (n val : Nat)
  /-- SCN_LOCK (R697). A write of LANnn_SCN_LOCKw locks or releases a way. -/
  | scnLock (who : Who) (n w val : Nat)
  /-- STROKE_END (R712). The captain ends a stroke and sends its stroke copy. -/
  | strokeEnd
  /-- STROKE_COPY (R712). The stoker applies a whole stroke copy and acknowledges it. -/
  | strokeCopy
  /-- RELEASE (R713). An output stage issues the held instructions of a released stroke. -/
  | releaseStroke
  /-- HEARTBEAT_WINDOW (R716). Eight windows without heartbeats on one or both paths lead to takeover, FAILED or a path alert. -/
  | heartbeatWindow (seat : Nat) (copy wire : Bool)
  /-- GRANT_CHANGE (R718). Grant inputs held 2 µs decide a takeover in arbiter mode. -/
  | grantChange (a b : Bool)
  /-- TAKEOVER (R720). A seat raises its claim, holds the output stages, replays and becomes captain. -/
  | takeover
  /-- RELEASE_GAP (R720). An output stage ends its gap and applies latched doorbells. -/
  | releaseGap
  /-- CLAIM_INSTRUCTION (R709). An output stage accepts, raises AUTH on, or fences an instruction by its claim. -/
  | claimInstruction (seat : Nat)
  /-- REJOIN (R722). A FAILED seat reboots, synchronises and becomes stoker. -/
  | rejoin (seat : Nat)
  /-- SEAT_BOOT_TIMEOUT (R708). A seat not verified within 4 s leaves the other seat captain alone. -/
  | seatBootTimeout
  /-- SWX_BLOCK (R744). Sealwax computes one 64-byte block of a context's message. -/
  | swxBlock (upset : Nat)
  /-- SWX_EXPORT (R746). A context is wrapped and written to its save area. -/
  | swxExport
  /-- SWX_IMPORT (R749). A saved message's blob is read and unwrapped into a context. -/
  | swxImport (n : Nat) (blob : Option (List Byte))
  /-- SWX_WAIT_TIMEOUT (R747). A message without a context for 2,000 ms completes with BUSY. -/
  | swxWaitTimeout (inst ctx : Nat)
  /-- SOOT_MEASURE (R779). Every PERIOD seconds each monitor is measured and DEGRADE updated. -/
  | sootMeasure (ms : List (Nat × Nat))
  /-- AUTO_REPAIR (R780). A unit meeting a trigger is repaired by its spare. -/
  | autoRepair (cls unit detail ces : Nat) (ue left bad : Bool)
  /-- SAVE (R790). CAL_CTL.SAVE writes the user calibration page to flash. -/
  | calSave (ok : Bool)
  /-- OTP_PROG_GO (R791). CAL_OTP_PROG.GO burns an owner OTP field. -/
  | otpProgGo (who : Who) (val : Nat) (ok : Bool)
  /-- SNUFF_PIN (R792). SNUFF_N held low 160 ns freezes the device. -/
  | snuffPin (low : Bool)
  /-- RELEASE_WICK (R798). DBG_WICKCTL.RELEASE resumes a held wick. -/
  | releaseWick (who : Who)
  /-- KILL (R798). DBG_WICKCTL.KILL fails a held wick's task with TRAP_BREAK. -/
  | kill (who : Who)
  /-- RCPVALID_GO (R799). DBG_RCPVALID.GO marks idle recipe slots valid. -/
  | rcpvalidGo (who : Who) (val : Nat)
  /-- CRK_REJOIN_WRITE (R722). CRK_CTL.REJOIN reboots a FAILED seat. -/
  | crkRejoinWrite (who : Who) (val : Nat)
  /-- PWRGOOD_LOW (R813). PWRGOOD low for 200 ns starts a cold reset. -/
  | pwrgoodLow
  /-- PWRGOOD_HIGH (R817). PWRGOOD rises, straps are latched and the cold boot begins. -/
  | pwrgoodHigh (straps : Nat)
  /-- RESET_N_LOW (R814). RESET_N low while PWRGOOD is high starts a warm reset. -/
  | resetNLow
  /-- RESET_N_HIGH (R814). RESET_N rises and the boot resumes at FETCH. -/
  | resetNHigh
  /-- THERM_TRIP (R810). A sensor at trip temperature asserts THERM_TRIP_N and stops the clocks. -/
  | thermTrip
  /-- VID_MOVE (R804). Every 10 µs while VID differs from CODE, it moves by at most 4 codes. -/
  | vidMove
  /-- FUSES (R822). OTP is sensed. -/
  | fusesStage
  /-- SRAM_TEST (R822). Self-test of SRAM and CAM, and the OTP repair map applied. -/
  | sramTestStage (banks : List Nat)
  /-- FETCH (R822). A seat's ROM reads the firmware image into the boot buffer. -/
  | fetchStage
  /-- FETCH_TIMEOUT (R822). Crank A has not filled the buffer within 2 s and crank B reads. -/
  | fetchTimeout
  /-- VERIFY (R759). Each seat verifies the fetched image, falling back to the next image. -/
  | verifyStage (seat : Nat)
  /-- LAMPLIGHTER (R822). Roles are set, the user page loaded, repairs applied and an epoch opened. -/
  | lamplighterStage (fails : Nat)
  /-- HBM (R669). Every stack is trained, or leaves self-refresh after a warm reset. -/
  | hbmStage (rates : List Nat) (widths remaps : List (List Nat)) (codes : List (List (Nat × Nat × Nat × Nat)))
  /-- SERVICES (R822). The firmware region is set up and the manager instance created. -/
  | servicesStage (bases : List Nat)
  /-- LINKS (R822). Ports are enabled and the manager's admin queue created. -/
  | linksStage
  /-- BOOT_GO (R818). TOP_BOOT.GO starts verification of a JTAG-loaded image. -/
  | bootGo (who : Who)
  /-- SMB_CSR_READ (R826). SMBus code 0x01 reads a CSR. -/
  | smbCsrRead (off : Nat) (pec : Bool)
  /-- SMB_CSR_WRITE (R826). SMBus code 0x02 writes a CSR. -/
  | smbCsrWrite (off val : Nat) (pec : Bool)
  /-- SMB_COMMAND (R827). SMBus code 0x03 submits a one-unit manager command entry. -/
  | smbCommand (bytes : List Byte) (pec : Bool)
  /-- SMB_STATUS_READ (R826). SMBus code 0x04 reads the state and status area of the last command. -/
  | smbStatusRead (pec : Bool)
  /-- SMB_FREEZE (R826). SMBus code 0x05 with 0xA5 freezes the device. -/
  | smbFreeze (byte : Nat) (pec : Bool)
  /-- EXTEST (R828). JTAG boundary-scan test. -/
  | extest (cells : List Bool)
  /-- SAMPLE_PRELOAD (R828). JTAG boundary-scan sample. -/
  | samplePreload (cells : List Bool)
  /-- IDCODE (R828). JTAG returns the ID code. -/
  | idcode
  /-- MEM_ACC (R829). JTAG reads or writes 8 bytes at a device address. -/
  | memAcc (write : Bool) (addr data : Nat)
  /-- TEST_ACC (R829). JTAG reads or writes a code store, wax or Chandelier row. -/
  | testAcc (write : Bool) (addr data : Nat)
  /-- SNUFF (R792). JTAG instruction that freezes the device. -/
  | snuff
  /-- RESUME (R796). JTAG instruction that restarts the domains after a freeze. -/
  | resume
  /-- BYPASS (R828). JTAG bypass. -/
  | bypass (ir : Nat)
  /-- SCRUB_VISIT_END (R299). A scrubber visit of a bank closes 2,856 Chandelier cycles after its last row, checking the spare-row map and incrementing DONE. -/
  | scrubVisitEnd (c : Nat)
  /-- DIE_SENSOR_CONVERSION (R809). Every 20 µs a die temperature sensor completes a conversion, updating its reading and DIE_MAX and setting TOP_ALERT.THERM at DIE_ALERT. -/
  | dieSensorConversion (n : Nat) (raw : Int)
  /-- VOLTAGE_MONITOR_READING (R787). A voltage monitor takes a reading, updating CAL_VMv.VOLTS and setting TOP_ALERT.VOLT when it lies outside R801. -/
  | voltageMonitorReading (v raw : Nat)
  /-- SMB_ALERT_RESPONSE (R825). A read of the SMBus alert response address releases SMB_ALERT_N. -/
  | smbAlertResponse
  /-- ACK_REPORT (R628). At least once per µs a receiver reports e − 1 in ACK, releasing buffered flits at the transmitter. -/
  | ackReport (p : Nat)
  /-- MEM_HELD_SAMPLE (R602). At each whole ms of rack time, each instance's held memory ÷ 4,096 is added into its MEM_HELD tally count. -/
  | memHeldSample
deriving DecidableEq, Repr

end Sys2Proof
end

