-- ==== Sys2Proof/Decode.lean ====
section
/-! DEFINITION. Commands as words: `spec/opcode_table.json` gives its rows no bits, so there is nothing to decode. -/
namespace Sys2Proof

/-- The command that a word of the table's bits spells: none, since no row of the table gives bits. -/
def decodeTableWord (_nbits _w : Nat) : Option Instr := none

end Sys2Proof
end

