-- ==== Sys2Proof/Config.lean ====
section
/-! DEFINITION. What one part fixes and the spec does not state: constants without a body, of which no proof can see
the value. Each is named by an entry of the assumption log. -/
namespace Sys2Proof.Config

/-- R732: the 256-bit `DEVICE_SECRET` burned at manufacture, as bytes 0 to 31. No interface reads it. -/
opaque deviceSecretByte : Nat → Byte

/-- R852: the factory calibration field of the register at a CSR offset, fused per part. -/
opaque factoryFuse : (off : Nat) → Nat

/-- R759: byte `k` of the 60-byte Knaux HSS public key held in the seats' ROM. -/
opaque knauxKeyByte : Nat → Byte

/-- R732: byte `k` of the 16-byte `SERIAL` burned at manufacture. -/
opaque serialByte : Nat → Byte

/-- R764: byte `k` of the LM-OTS randomiser C at leaf `q` of the tree whose SEED is a number: derived from the SEED in a
way the spec does not give. -/
opaque lmsRandomByte : (seed q k : Nat) → Byte

/-- A value the spec leaves open, drawn by number: the model's plain counter `State.drawn` gives the number, so two
draws are unrelated and no proof can see either. -/
opaque freeValue : Nat → Nat

/-- R262: the eight check bits a SECDED encoder computes over the 64 data bits of a Chandelier row. The code is not
given; only that it is a function of the data. -/
opaque secdedCheck : Nat → Nat

/-- R510, R511: the device address, in the firmware region, of the run record of the run with a key; the spec gives the
record's place to Lamplighter. -/
opaque runRecord : Nat → Nat

end Sys2Proof.Config
end

