-- ==== Sys2Proof/Machine/RegMap.lean ====
section
/-! DEFINITION. The register map of the CSR space: every register and field of the tables of `spec/`, with its
access type and cold-reset value (R10 to R18, R851), its offset within the CSR space, and the occupied ranges of R851.
The offsets are the names the meanings use for a register; a field is its lowest bit and its width. -/
namespace Sys2Proof.Machine

/-- R11: the access types of a register field. -/
inductive Acc where
  | rw | ro | w1c | w1s | wo | rc | rwl
deriving DecidableEq, Repr

/-- One field of a register: its lowest bit, its width, its access type and its cold-reset value
(0 stands for a `fuse` or `strap` value, which `fuseReset` gives). -/
structure RegField where
  name : String
  lo : Nat
  wid : Nat
  acc : Acc
  rst : Nat
deriving DecidableEq, Repr

/-- One register or array of registers: the CSR offset of its first element, and per dimension a count and a stride. -/
structure RegDef where
  name : String
  base : Nat
  dims : List (Nat × Nat)
  flds : List RegField
deriving DecidableEq, Repr

/-- Shorthand of the tables below. -/
abbrev fld (name : String) (lo wid : Nat) (acc : Acc) (rst : Nat) : RegField := ⟨name, lo, wid, acc, rst⟩

/-! ### Block LANnn -/

/-- `LANnn_REP_STAT` (18_wear_repair_snuffer.md). -/
abbrev R.LAN_REP_STAT (i : Nat) : Nat := 0xA00000 + i * 0x10000
abbrev F.LAN_REP_STAT_SLOT : Nat × Nat := (0, 6)
abbrev F.LAN_REP_STAT_FILLS : Nat × Nat := (6, 1)
abbrev F.LAN_REP_STAT_FAILED : Nat × Nat := (7, 1)
abbrev F.LAN_REP_STAT_WICK_FAIL : Nat × Nat := (8, 17)
abbrev F.LAN_REP_STAT_SPARE_FOR : Nat × Nat := (25, 5)
/-- `LANnn_RSV_CTL` (03_reservoir.md). -/
abbrev R.LAN_RSV_CTL (i : Nat) : Nat := 0xA01000 + i * 0x10000
abbrev F.LAN_RSV_CTL_EN : Nat × Nat := (0, 1)
abbrev F.LAN_RSV_CTL_ZSKIP_EN : Nat × Nat := (1, 1)
abbrev F.LAN_RSV_CTL_ENCPRED_EN : Nat × Nat := (2, 1)
abbrev F.LAN_RSV_CTL_DICTBUF_EN : Nat × Nat := (3, 1)
/-- `LANnn_RSV_STAT` (03_reservoir.md). -/
abbrev R.LAN_RSV_STAT (i : Nat) : Nat := 0xA01008 + i * 0x10000
abbrev F.LAN_RSV_STAT_BUSY : Nat × Nat := (0, 1)
abbrev F.LAN_RSV_STAT_SLOT_VALID : Nat × Nat := (1, 16)
abbrev F.LAN_RSV_STAT_TASKS : Nat × Nat := (17, 5)
/-- `LANnn_RSV_ERR` (03_reservoir.md). -/
abbrev R.LAN_RSV_ERR (i : Nat) : Nat := 0xA01010 + i * 0x10000
abbrev F.LAN_RSV_ERR_BADCFG : Nat × Nat := (0, 1)
abbrev F.LAN_RSV_ERR_CORRUPT : Nat × Nat := (1, 1)
abbrev F.LAN_RSV_ERR_RCP_FAULT : Nat × Nat := (2, 1)
abbrev F.LAN_RSV_ERR_PARITY : Nat × Nat := (3, 1)
/-- `LANnn_RSV_LASTBAD` (03_reservoir.md). -/
abbrev R.LAN_RSV_LASTBAD (i : Nat) : Nat := 0xA01018 + i * 0x10000
abbrev F.LAN_RSV_LASTBAD_OFFSET : Nat × Nat := (0, 48)
abbrev F.LAN_RSV_LASTBAD_CHECK : Nat × Nat := (48, 5)
/-- `LANnn_RSV_LASTSRC` (03_reservoir.md). -/
abbrev R.LAN_RSV_LASTSRC (i : Nat) : Nat := 0xA01020 + i * 0x10000
abbrev F.LAN_RSV_LASTSRC_INSTANCE : Nat × Nat := (0, 11)
abbrev F.LAN_RSV_LASTSRC_GENERATION : Nat × Nat := (16, 16)
/-- `LANnn_RSV_RCPINV` (03_reservoir.md). -/
abbrev R.LAN_RSV_RCPINV (i : Nat) : Nat := 0xA01028 + i * 0x10000
abbrev F.LAN_RSV_RCPINV_SLOTS : Nat × Nat := (0, 16)
/-- `LANnn_RSV_CHUNKS` (03_reservoir.md). -/
abbrev R.LAN_RSV_CHUNKS (i : Nat) : Nat := 0xA01040 + i * 0x10000
abbrev F.LAN_RSV_CHUNKS_COUNT : Nat × Nat := (0, 64)
/-- `LANnn_RSV_SKIPPED` (03_reservoir.md). -/
abbrev R.LAN_RSV_SKIPPED (i : Nat) : Nat := 0xA01048 + i * 0x10000
abbrev F.LAN_RSV_SKIPPED_COUNT : Nat × Nat := (0, 64)
/-- `LANnn_RSV_BYTES_IN` (03_reservoir.md). -/
abbrev R.LAN_RSV_BYTES_IN (i : Nat) : Nat := 0xA01050 + i * 0x10000
abbrev F.LAN_RSV_BYTES_IN_COUNT : Nat × Nat := (0, 64)
/-- `LANnn_RSV_ROWS_OUT` (03_reservoir.md). -/
abbrev R.LAN_RSV_ROWS_OUT (i : Nat) : Nat := 0xA01058 + i * 0x10000
abbrev F.LAN_RSV_ROWS_OUT_COUNT : Nat × Nat := (0, 64)
/-- `LANnn_RSV_CORRUPTS` (03_reservoir.md). -/
abbrev R.LAN_RSV_CORRUPTS (i : Nat) : Nat := 0xA01060 + i * 0x10000
abbrev F.LAN_RSV_CORRUPTS_COUNT : Nat × Nat := (0, 64)
/-- `LANnn_RSV_BMP_BUILDS` (03_reservoir.md). -/
abbrev R.LAN_RSV_BMP_BUILDS (i : Nat) : Nat := 0xA01068 + i * 0x10000
abbrev F.LAN_RSV_BMP_BUILDS_COUNT : Nat × Nat := (0, 64)
/-- `LANnn_RSV_BMP_HITS` (03_reservoir.md). -/
abbrev R.LAN_RSV_BMP_HITS (i : Nat) : Nat := 0xA01070 + i * 0x10000
abbrev F.LAN_RSV_BMP_HITS_COUNT : Nat × Nat := (0, 64)
/-- `LANnn_MON_CTL` (04_taper_model.md). -/
abbrev R.LAN_MON_CTL (i : Nat) : Nat := 0xA02000 + i * 0x10000
abbrev F.LAN_MON_CTL_BREAK_HOLD : Nat × Nat := (0, 17)
/-- `LANnn_MON_STAT` (04_taper_model.md). -/
abbrev R.LAN_MON_STAT (i : Nat) : Nat := 0xA02008 + i * 0x10000
abbrev F.LAN_MON_STAT_TRAPPED : Nat × Nat := (0, 17)
abbrev F.LAN_MON_STAT_RUNNING : Nat × Nat := (17, 17)
abbrev F.LAN_MON_STAT_HELD : Nat × Nat := (34, 17)
/-- `LANnn_MON_ERR` (04_taper_model.md). -/
abbrev R.LAN_MON_ERR (i : Nat) : Nat := 0xA02010 + i * 0x10000
abbrev F.LAN_MON_ERR_BADCFG : Nat × Nat := (0, 1)
abbrev F.LAN_MON_ERR_CODE_CE : Nat × Nat := (1, 1)
abbrev F.LAN_MON_ERR_CODE_UE : Nat × Nat := (2, 1)
/-- `LANnn_MON_TRAPS` (04_taper_model.md). -/
abbrev R.LAN_MON_TRAPS (i : Nat) : Nat := 0xA02018 + i * 0x10000
abbrev F.LAN_MON_TRAPS_COUNT : Nat × Nat := (0, 64)
/-- `LANnn_MON_OUT (outcome records of R220)` (04_taper_model.md). -/
abbrev R.LAN_MON_OUT (i j : Nat) : Nat := 0xA02200 + i * 0x10000 + j * 0x8
abbrev F.LAN_MON_OUT_WORD : Nat × Nat := (0, 64)
/-- `LANnn_SCN_CTL` (15_memory_chain_sconce.md). -/
abbrev R.LAN_SCN_CTL (i : Nat) : Nat := 0xA02800 + i * 0x10000
abbrev F.LAN_SCN_CTL_EN : Nat × Nat := (0, 1)
/-- `LANnn_SCN_MAINT` (15_memory_chain_sconce.md). -/
abbrev R.LAN_SCN_MAINT (i : Nat) : Nat := 0xA02808 + i * 0x10000
abbrev F.LAN_SCN_MAINT_OP : Nat × Nat := (0, 2)
abbrev F.LAN_SCN_MAINT_BY : Nat × Nat := (2, 1)
abbrev F.LAN_SCN_MAINT_RANGE : Nat × Nat := (3, 1)
abbrev F.LAN_SCN_MAINT_WAY : Nat × Nat := (4, 5)
/-- `LANnn_SCN_ADDR` (15_memory_chain_sconce.md). -/
abbrev R.LAN_SCN_ADDR (i : Nat) : Nat := 0xA02810 + i * 0x10000
abbrev F.LAN_SCN_ADDR_LINE : Nat × Nat := (7, 33)
/-- `LANnn_SCN_RANGE` (15_memory_chain_sconce.md). -/
abbrev R.LAN_SCN_RANGE (i : Nat) : Nat := 0xA02818 + i * 0x10000
abbrev F.LAN_SCN_RANGE_LENGTH : Nat × Nat := (0, 33)
/-- `LANnn_SCN_STAT` (15_memory_chain_sconce.md). -/
abbrev R.LAN_SCN_STAT (i : Nat) : Nat := 0xA02820 + i * 0x10000
abbrev F.LAN_SCN_STAT_VALID : Nat × Nat := (0, 32)
abbrev F.LAN_SCN_STAT_BUSY : Nat × Nat := (32, 1)
abbrev F.LAN_SCN_STAT_DIRTY : Nat × Nat := (33, 6)
abbrev F.LAN_SCN_STAT_LOCKED : Nat × Nat := (39, 8)
abbrev F.LAN_SCN_STAT_LOCK_HITS : Nat × Nat := (47, 5)
/-- `LANnn_SCN_ERR` (15_memory_chain_sconce.md). -/
abbrev R.LAN_SCN_ERR (i : Nat) : Nat := 0xA02828 + i * 0x10000
abbrev F.LAN_SCN_ERR_BADCFG : Nat × Nat := (0, 1)
abbrev F.LAN_SCN_ERR_RANGE_REFUSED : Nat × Nat := (1, 1)
abbrev F.LAN_SCN_ERR_PARITY : Nat × Nat := (2, 1)
/-- `LANnn_SCN_HITS` (15_memory_chain_sconce.md). -/
abbrev R.LAN_SCN_HITS (i : Nat) : Nat := 0xA02840 + i * 0x10000
abbrev F.LAN_SCN_HITS_COUNT : Nat × Nat := (0, 64)
/-- `LANnn_SCN_MISSES` (15_memory_chain_sconce.md). -/
abbrev R.LAN_SCN_MISSES (i : Nat) : Nat := 0xA02848 + i * 0x10000
abbrev F.LAN_SCN_MISSES_COUNT : Nat × Nat := (0, 64)
/-- `LANnn_SCN_WRITEBACKS` (15_memory_chain_sconce.md). -/
abbrev R.LAN_SCN_WRITEBACKS (i : Nat) : Nat := 0xA02850 + i * 0x10000
abbrev F.LAN_SCN_WRITEBACKS_COUNT : Nat × Nat := (0, 64)
/-- `LANnn_SCN_REINSTATES` (15_memory_chain_sconce.md). -/
abbrev R.LAN_SCN_REINSTATES (i : Nat) : Nat := 0xA02858 + i * 0x10000
abbrev F.LAN_SCN_REINSTATES_COUNT : Nat × Nat := (0, 64)
/-- `LANnn_SCN_EVICTS` (15_memory_chain_sconce.md). -/
abbrev R.LAN_SCN_EVICTS (i : Nat) : Nat := 0xA02860 + i * 0x10000
abbrev F.LAN_SCN_EVICTS_COUNT : Nat × Nat := (0, 64)
/-- `LANnn_SCN_LOCKw` (15_memory_chain_sconce.md). -/
abbrev R.LAN_SCN_LOCK (i j : Nat) : Nat := 0xA02900 + i * 0x10000 + j * 0x8
abbrev F.LAN_SCN_LOCK_LOCKED : Nat × Nat := (0, 1)
abbrev F.LAN_SCN_LOCK_LINE : Nat × Nat := (7, 33)
/-- `LANnn_XCH_CTL` (07_joins_exchanges.md). -/
abbrev R.LAN_XCH_CTL (i : Nat) : Nat := 0xA03000 + i * 0x10000
abbrev F.LAN_XCH_CTL_EN : Nat × Nat := (0, 1)
/-- `LANnn_XCH_STAT` (07_joins_exchanges.md). -/
abbrev R.LAN_XCH_STAT (i : Nat) : Nat := 0xA03008 + i * 0x10000
abbrev F.LAN_XCH_STAT_LS_BLOCKS : Nat × Nat := (0, 10)
abbrev F.LAN_XCH_STAT_SPILL_BLOCKS : Nat × Nat := (32, 32)
/-- `LANnn_XCH_ERR` (07_joins_exchanges.md). -/
abbrev R.LAN_XCH_ERR (i : Nat) : Nat := 0xA03010 + i * 0x10000
abbrev F.LAN_XCH_ERR_SPILL_FULL : Nat × Nat := (0, 1)
abbrev F.LAN_XCH_ERR_BAD_ROUTE : Nat × Nat := (1, 1)
abbrev F.LAN_XCH_ERR_PEER_LOST : Nat × Nat := (2, 1)
/-- `LANnn_XCH_RECS_OUT` (07_joins_exchanges.md). -/
abbrev R.LAN_XCH_RECS_OUT (i : Nat) : Nat := 0xA03040 + i * 0x10000
abbrev F.LAN_XCH_RECS_OUT_COUNT : Nat × Nat := (0, 64)
/-- `LANnn_XCH_RECS_IN` (07_joins_exchanges.md). -/
abbrev R.LAN_XCH_RECS_IN (i : Nat) : Nat := 0xA03048 + i * 0x10000
abbrev F.LAN_XCH_RECS_IN_COUNT : Nat × Nat := (0, 64)
/-- `LANnn_XCH_SPILLED` (07_joins_exchanges.md). -/
abbrev R.LAN_XCH_SPILLED (i : Nat) : Nat := 0xA03050 + i * 0x10000
abbrev F.LAN_XCH_SPILLED_COUNT : Nat × Nat := (0, 64)
/-- `LANnn_XCH_DISCARDS` (07_joins_exchanges.md). -/
abbrev R.LAN_XCH_DISCARDS (i : Nat) : Nat := 0xA03058 + i * 0x10000
abbrev F.LAN_XCH_DISCARDS_COUNT : Nat × Nat := (0, 64)
/-- `LANnn_XCH_STALE` (07_joins_exchanges.md). -/
abbrev R.LAN_XCH_STALE (i : Nat) : Nat := 0xA03060 + i * 0x10000
abbrev F.LAN_XCH_STALE_COUNT : Nat × Nat := (0, 64)
/-- `LANnn_XCH_STALLS` (07_joins_exchanges.md). -/
abbrev R.LAN_XCH_STALLS (i : Nat) : Nat := 0xA03068 + i * 0x10000
abbrev F.LAN_XCH_STALLS_COUNT : Nat × Nat := (0, 64)
/-- `LANnn_SL_CTL` (09_sorting.md). -/
abbrev R.LAN_SL_CTL (i : Nat) : Nat := 0xA03400 + i * 0x10000
abbrev F.LAN_SL_CTL_EN : Nat × Nat := (0, 1)
/-- `LANnn_SL_STAT` (09_sorting.md). -/
abbrev R.LAN_SL_STAT (i : Nat) : Nat := 0xA03408 + i * 0x10000
abbrev F.LAN_SL_STAT_BUSY : Nat × Nat := (0, 1)
abbrev F.LAN_SL_STAT_BUFS_USED : Nat × Nat := (1, 6)
abbrev F.LAN_SL_STAT_MERGING : Nat × Nat := (7, 1)
abbrev F.LAN_SL_STAT_WAYS : Nat × Nat := (8, 11)
abbrev F.LAN_SL_STAT_FMT_VALID : Nat × Nat := (19, 8)
/-- `LANnn_SL_ERR` (09_sorting.md). -/
abbrev R.LAN_SL_ERR (i : Nat) : Nat := 0xA03410 + i * 0x10000
abbrev F.LAN_SL_ERR_BADCFG : Nat × Nat := (0, 1)
abbrev F.LAN_SL_ERR_SPILL_FULL : Nat × Nat := (1, 1)
abbrev F.LAN_SL_ERR_PARITY : Nat × Nat := (2, 1)
abbrev F.LAN_SL_ERR_FMT_BUSY : Nat × Nat := (3, 1)
/-- `LANnn_SL_FMTCTL` (09_sorting.md). -/
abbrev R.LAN_SL_FMTCTL (i : Nat) : Nat := 0xA03418 + i * 0x10000
abbrev F.LAN_SL_FMTCTL_SET : Nat × Nat := (0, 8)
abbrev F.LAN_SL_FMTCTL_CLEAR : Nat × Nat := (8, 8)
/-- `LANnn_SL_PUSHES` (09_sorting.md). -/
abbrev R.LAN_SL_PUSHES (i : Nat) : Nat := 0xA03440 + i * 0x10000
abbrev F.LAN_SL_PUSHES_COUNT : Nat × Nat := (0, 64)
/-- `LANnn_SL_RUNS` (09_sorting.md). -/
abbrev R.LAN_SL_RUNS (i : Nat) : Nat := 0xA03448 + i * 0x10000
abbrev F.LAN_SL_RUNS_COUNT : Nat × Nat := (0, 64)
/-- `LANnn_SL_CLOSES` (09_sorting.md). -/
abbrev R.LAN_SL_CLOSES (i : Nat) : Nat := 0xA03450 + i * 0x10000
abbrev F.LAN_SL_CLOSES_COUNT : Nat × Nat := (0, 64)
/-- `LANnn_SL_MERGED` (09_sorting.md). -/
abbrev R.LAN_SL_MERGED (i : Nat) : Nat := 0xA03458 + i * 0x10000
abbrev F.LAN_SL_MERGED_COUNT : Nat × Nat := (0, 64)
/-- `LANnn_SL_TOPN_DROPS` (09_sorting.md). -/
abbrev R.LAN_SL_TOPN_DROPS (i : Nat) : Nat := 0xA03460 + i * 0x10000
abbrev F.LAN_SL_TOPN_DROPS_COUNT : Nat × Nat := (0, 64)
/-- `format windows of R420` (09_sorting.md). -/
abbrev R.LAN_SL_FMT (i j : Nat) : Nat := 0xA03800 + i * 0x10000 + j * 0x8
abbrev F.LAN_SL_FMT_WORD : Nat × Nat := (0, 64)
/-- `recipe windows of R168` (03_reservoir.md). -/
abbrev R.LAN_RSV_WIN (i j : Nat) : Nat := 0xA04000 + i * 0x10000 + j * 0x8
abbrev F.LAN_RSV_WIN_WORD : Nat × Nat := (0, 64)

/-- The registers of block LANnn, part 0. -/
def regsLANnn0 : List RegDef := [
  ⟨"LANnn_REP_STAT", 0xA00000, [(68, 0x10000)],
   [fld "SLOT" 0 6 .ro 0,
    fld "FILLS" 6 1 .ro 0,
    fld "FAILED" 7 1 .ro 0,
    fld "WICK_FAIL" 8 17 .ro 0,
    fld "SPARE_FOR" 25 5 .ro 0]⟩,
  ⟨"LANnn_RSV_CTL", 0xA01000, [(68, 0x10000)],
   [fld "EN" 0 1 .rw 1,
    fld "ZSKIP_EN" 1 1 .rw 1,
    fld "ENCPRED_EN" 2 1 .rw 1,
    fld "DICTBUF_EN" 3 1 .rw 1]⟩,
  ⟨"LANnn_RSV_STAT", 0xA01008, [(68, 0x10000)],
   [fld "BUSY" 0 1 .ro 0,
    fld "SLOT_VALID" 1 16 .ro 0,
    fld "TASKS" 17 5 .ro 0]⟩,
  ⟨"LANnn_RSV_ERR", 0xA01010, [(68, 0x10000)],
   [fld "BADCFG" 0 1 .w1c 0,
    fld "CORRUPT" 1 1 .w1c 0,
    fld "RCP_FAULT" 2 1 .w1c 0,
    fld "PARITY" 3 1 .w1c 0]⟩,
  ⟨"LANnn_RSV_LASTBAD", 0xA01018, [(68, 0x10000)],
   [fld "OFFSET" 0 48 .ro 0,
    fld "CHECK" 48 5 .ro 0]⟩,
  ⟨"LANnn_RSV_LASTSRC", 0xA01020, [(68, 0x10000)],
   [fld "INSTANCE" 0 11 .ro 0,
    fld "GENERATION" 16 16 .ro 0]⟩,
  ⟨"LANnn_RSV_RCPINV", 0xA01028, [(68, 0x10000)],
   [fld "SLOTS" 0 16 .wo 0]⟩,
  ⟨"LANnn_RSV_CHUNKS", 0xA01040, [(68, 0x10000)],
   [fld "COUNT" 0 64 .ro 0]⟩,
  ⟨"LANnn_RSV_SKIPPED", 0xA01048, [(68, 0x10000)],
   [fld "COUNT" 0 64 .ro 0]⟩,
  ⟨"LANnn_RSV_BYTES_IN", 0xA01050, [(68, 0x10000)],
   [fld "COUNT" 0 64 .ro 0]⟩,
  ⟨"LANnn_RSV_ROWS_OUT", 0xA01058, [(68, 0x10000)],
   [fld "COUNT" 0 64 .ro 0]⟩,
  ⟨"LANnn_RSV_CORRUPTS", 0xA01060, [(68, 0x10000)],
   [fld "COUNT" 0 64 .ro 0]⟩]

/-- The registers of block LANnn, part 1. -/
def regsLANnn1 : List RegDef := [
  ⟨"LANnn_RSV_BMP_BUILDS", 0xA01068, [(68, 0x10000)],
   [fld "COUNT" 0 64 .ro 0]⟩,
  ⟨"LANnn_RSV_BMP_HITS", 0xA01070, [(68, 0x10000)],
   [fld "COUNT" 0 64 .ro 0]⟩,
  ⟨"LANnn_MON_CTL", 0xA02000, [(68, 0x10000)],
   [fld "BREAK_HOLD" 0 17 .rw 0]⟩,
  ⟨"LANnn_MON_STAT", 0xA02008, [(68, 0x10000)],
   [fld "TRAPPED" 0 17 .w1c 0,
    fld "RUNNING" 17 17 .ro 0,
    fld "HELD" 34 17 .ro 0]⟩,
  ⟨"LANnn_MON_ERR", 0xA02010, [(68, 0x10000)],
   [fld "BADCFG" 0 1 .w1c 0,
    fld "CODE_CE" 1 1 .w1c 0,
    fld "CODE_UE" 2 1 .w1c 0]⟩,
  ⟨"LANnn_MON_TRAPS", 0xA02018, [(68, 0x10000)],
   [fld "COUNT" 0 64 .ro 0]⟩,
  ⟨"LANnn_MON_OUT", 0xA02200, [(68, 0x10000), (136, 0x8)],
   [fld "WORD" 0 64 .ro 0]⟩,
  ⟨"LANnn_SCN_CTL", 0xA02800, [(68, 0x10000)],
   [fld "EN" 0 1 .rw 1]⟩,
  ⟨"LANnn_SCN_MAINT", 0xA02808, [(68, 0x10000)],
   [fld "OP" 0 2 .wo 0,
    fld "BY" 2 1 .wo 0,
    fld "RANGE" 3 1 .wo 0,
    fld "WAY" 4 5 .wo 0]⟩,
  ⟨"LANnn_SCN_ADDR", 0xA02810, [(68, 0x10000)],
   [fld "LINE" 7 33 .rw 0]⟩,
  ⟨"LANnn_SCN_RANGE", 0xA02818, [(68, 0x10000)],
   [fld "LENGTH" 0 33 .rw 0]⟩,
  ⟨"LANnn_SCN_STAT", 0xA02820, [(68, 0x10000)],
   [fld "VALID" 0 32 .ro 0,
    fld "BUSY" 32 1 .ro 0,
    fld "DIRTY" 33 6 .ro 0,
    fld "LOCKED" 39 8 .ro 0,
    fld "LOCK_HITS" 47 5 .ro 0]⟩]

/-- The registers of block LANnn, part 2. -/
def regsLANnn2 : List RegDef := [
  ⟨"LANnn_SCN_ERR", 0xA02828, [(68, 0x10000)],
   [fld "BADCFG" 0 1 .w1c 0,
    fld "RANGE_REFUSED" 1 1 .w1c 0,
    fld "PARITY" 2 1 .w1c 0]⟩,
  ⟨"LANnn_SCN_HITS", 0xA02840, [(68, 0x10000)],
   [fld "COUNT" 0 64 .ro 0]⟩,
  ⟨"LANnn_SCN_MISSES", 0xA02848, [(68, 0x10000)],
   [fld "COUNT" 0 64 .ro 0]⟩,
  ⟨"LANnn_SCN_WRITEBACKS", 0xA02850, [(68, 0x10000)],
   [fld "COUNT" 0 64 .ro 0]⟩,
  ⟨"LANnn_SCN_REINSTATES", 0xA02858, [(68, 0x10000)],
   [fld "COUNT" 0 64 .ro 0]⟩,
  ⟨"LANnn_SCN_EVICTS", 0xA02860, [(68, 0x10000)],
   [fld "COUNT" 0 64 .ro 0]⟩,
  ⟨"LANnn_SCN_LOCKw", 0xA02900, [(68, 0x10000), (8, 0x8)],
   [fld "LOCKED" 0 1 .rw 0,
    fld "LINE" 7 33 .rw 0]⟩,
  ⟨"LANnn_XCH_CTL", 0xA03000, [(68, 0x10000)],
   [fld "EN" 0 1 .rw 1]⟩,
  ⟨"LANnn_XCH_STAT", 0xA03008, [(68, 0x10000)],
   [fld "LS_BLOCKS" 0 10 .ro 0,
    fld "SPILL_BLOCKS" 32 32 .ro 0]⟩,
  ⟨"LANnn_XCH_ERR", 0xA03010, [(68, 0x10000)],
   [fld "SPILL_FULL" 0 1 .w1c 0,
    fld "BAD_ROUTE" 1 1 .w1c 0,
    fld "PEER_LOST" 2 1 .w1c 0]⟩,
  ⟨"LANnn_XCH_RECS_OUT", 0xA03040, [(68, 0x10000)],
   [fld "COUNT" 0 64 .ro 0]⟩,
  ⟨"LANnn_XCH_RECS_IN", 0xA03048, [(68, 0x10000)],
   [fld "COUNT" 0 64 .ro 0]⟩]

/-- The registers of block LANnn, part 3. -/
def regsLANnn3 : List RegDef := [
  ⟨"LANnn_XCH_SPILLED", 0xA03050, [(68, 0x10000)],
   [fld "COUNT" 0 64 .ro 0]⟩,
  ⟨"LANnn_XCH_DISCARDS", 0xA03058, [(68, 0x10000)],
   [fld "COUNT" 0 64 .ro 0]⟩,
  ⟨"LANnn_XCH_STALE", 0xA03060, [(68, 0x10000)],
   [fld "COUNT" 0 64 .ro 0]⟩,
  ⟨"LANnn_XCH_STALLS", 0xA03068, [(68, 0x10000)],
   [fld "COUNT" 0 64 .ro 0]⟩,
  ⟨"LANnn_SL_CTL", 0xA03400, [(68, 0x10000)],
   [fld "EN" 0 1 .rw 1]⟩,
  ⟨"LANnn_SL_STAT", 0xA03408, [(68, 0x10000)],
   [fld "BUSY" 0 1 .ro 0,
    fld "BUFS_USED" 1 6 .ro 0,
    fld "MERGING" 7 1 .ro 0,
    fld "WAYS" 8 11 .ro 0,
    fld "FMT_VALID" 19 8 .ro 0]⟩,
  ⟨"LANnn_SL_ERR", 0xA03410, [(68, 0x10000)],
   [fld "BADCFG" 0 1 .w1c 0,
    fld "SPILL_FULL" 1 1 .w1c 0,
    fld "PARITY" 2 1 .w1c 0,
    fld "FMT_BUSY" 3 1 .w1c 0]⟩,
  ⟨"LANnn_SL_FMTCTL", 0xA03418, [(68, 0x10000)],
   [fld "SET" 0 8 .wo 0,
    fld "CLEAR" 8 8 .wo 0]⟩,
  ⟨"LANnn_SL_PUSHES", 0xA03440, [(68, 0x10000)],
   [fld "COUNT" 0 64 .ro 0]⟩,
  ⟨"LANnn_SL_RUNS", 0xA03448, [(68, 0x10000)],
   [fld "COUNT" 0 64 .ro 0]⟩,
  ⟨"LANnn_SL_CLOSES", 0xA03450, [(68, 0x10000)],
   [fld "COUNT" 0 64 .ro 0]⟩,
  ⟨"LANnn_SL_MERGED", 0xA03458, [(68, 0x10000)],
   [fld "COUNT" 0 64 .ro 0]⟩]

/-- The registers of block LANnn, part 4. -/
def regsLANnn4 : List RegDef := [
  ⟨"LANnn_SL_TOPN_DROPS", 0xA03460, [(68, 0x10000)],
   [fld "COUNT" 0 64 .ro 0]⟩,
  ⟨"LANnn_SL_FMT", 0xA03800, [(68, 0x10000), (64, 0x8)],
   [fld "WORD" 0 64 .rw 0]⟩,
  ⟨"LANnn_RSV_WIN", 0xA04000, [(68, 0x10000), (6144, 0x8)],
   [fld "WORD" 0 64 .rw 0]⟩]

/-- Every register of block LANnn. -/
def regsLANnn : List RegDef := regsLANnn0 ++ regsLANnn1 ++ regsLANnn2 ++ regsLANnn3 ++ regsLANnn4

/-! ### Block CHDc -/

/-- `CHDc_CTL` (06_chandelier.md). -/
abbrev R.CHD_CTL (i : Nat) : Nat := 0x900000 + i * 0x40000
abbrev F.CHD_CTL_EN : Nat × Nat := (0, 1)
abbrev F.CHD_CTL_SCRUB_EN : Nat × Nat := (1, 1)
/-- `CHDc_STAT` (06_chandelier.md). -/
abbrev R.CHD_STAT (i : Nat) : Nat := 0x900008 + i * 0x40000
abbrev F.CHD_STAT_LOADING : Nat × Nat := (0, 1)
abbrev F.CHD_STAT_REPAIRING : Nat × Nat := (1, 1)
abbrev F.CHD_STAT_SCRUB_BANK : Nat × Nat := (2, 5)
abbrev F.CHD_STAT_SCRUB_ROW : Nat × Nat := (7, 11)
/-- `CHDc_ERR` (06_chandelier.md). -/
abbrev R.CHD_ERR (i : Nat) : Nat := 0x900010 + i * 0x40000
abbrev F.CHD_ERR_BADCFG : Nat × Nat := (0, 1)
abbrev F.CHD_ERR_READBACK : Nat × Nat := (1, 1)
abbrev F.CHD_ERR_MISMATCH : Nat × Nat := (2, 1)
abbrev F.CHD_ERR_SHADOW_UE : Nat × Nat := (3, 1)
abbrev F.CHD_ERR_LEASE_VIOL : Nat × Nat := (4, 1)
abbrev F.CHD_ERR_EXHAUSTED : Nat × Nat := (5, 1)
abbrev F.CHD_ERR_LOAD_FAIL : Nat × Nat := (6, 1)
/-- `CHDc_SCRUB` (06_chandelier.md). -/
abbrev R.CHD_SCRUB (i : Nat) : Nat := 0x900018 + i * 0x40000
abbrev F.CHD_SCRUB_INTERVAL : Nat × Nat := (0, 12)
abbrev F.CHD_SCRUB_PASSES : Nat × Nat := (32, 32)
/-- `CHDc_SHADOW` (06_chandelier.md). -/
abbrev R.CHD_SHADOW (i : Nat) : Nat := 0x900020 + i * 0x40000
abbrev F.CHD_SHADOW_BASE : Nat × Nat := (0, 40)
/-- `CHDc_LOAD_ADDR` (06_chandelier.md). -/
abbrev R.CHD_LOAD_ADDR (i : Nat) : Nat := 0x900028 + i * 0x40000
abbrev F.CHD_LOAD_ADDR_ADDR : Nat × Nat := (0, 40)
/-- `CHDc_LOAD_CTL` (06_chandelier.md). -/
abbrev R.CHD_LOAD_CTL (i : Nat) : Nat := 0x900030 + i * 0x40000
abbrev F.CHD_LOAD_CTL_COUNT : Nat × Nat := (0, 17)
abbrev F.CHD_LOAD_CTL_TABLE : Nat × Nat := (17, 5)
abbrev F.CHD_LOAD_CTL_GO : Nat × Nat := (22, 1)
abbrev F.CHD_LOAD_CTL_CLEAR : Nat × Nat := (23, 1)
/-- `CHDc_LOAD_STAT` (06_chandelier.md). -/
abbrev R.CHD_LOAD_STAT (i : Nat) : Nat := 0x900038 + i * 0x40000
abbrev F.CHD_LOAD_STAT_CAUSE : Nat × Nat := (0, 2)
abbrev F.CHD_LOAD_STAT_RECORD : Nat × Nat := (8, 17)
/-- `CHDc_PROBE_ADDR` (06_chandelier.md). -/
abbrev R.CHD_PROBE_ADDR (i : Nat) : Nat := 0x900040 + i * 0x40000
abbrev F.CHD_PROBE_ADDR_BANK : Nat × Nat := (0, 5)
abbrev F.CHD_PROBE_ADDR_ROW : Nat × Nat := (8, 11)
abbrev F.CHD_PROBE_ADDR_SPARE : Nat × Nat := (19, 1)
/-- `CHDc_PROBE_DATA` (06_chandelier.md). -/
abbrev R.CHD_PROBE_DATA (i : Nat) : Nat := 0x900048 + i * 0x40000
abbrev F.CHD_PROBE_DATA_UNIT : Nat × Nat := (0, 64)
/-- `CHDc_PROBE_META` (06_chandelier.md). -/
abbrev R.CHD_PROBE_META (i : Nat) : Nat := 0x900050 + i * 0x40000
abbrev F.CHD_PROBE_META_CHECK : Nat × Nat := (0, 8)
abbrev F.CHD_PROBE_META_TAG : Nat × Nat := (8, 4)
abbrev F.CHD_PROBE_META_VALID : Nat × Nat := (12, 1)
abbrev F.CHD_PROBE_META_SUSPECT : Nat × Nat := (13, 1)
abbrev F.CHD_PROBE_META_VALUE_TAG : Nat × Nat := (32, 32)
/-- `CHDc_BANKb` (06_chandelier.md). -/
abbrev R.CHD_BANK (i j : Nat) : Nat := 0x900100 + i * 0x40000 + j * 0x8
abbrev F.CHD_BANK_LEASED : Nat × Nat := (0, 1)
abbrev F.CHD_BANK_WIDTH : Nat × Nat := (1, 2)
abbrev F.CHD_BANK_TABLE : Nat × Nat := (3, 5)
abbrev F.CHD_BANK_TBANK : Nat × Nat := (8, 5)
abbrev F.CHD_BANK_OUT_OF_SERVICE : Nat × Nat := (13, 1)
/-- `CHDc_BSCRUBb` (06_chandelier.md). -/
abbrev R.CHD_BSCRUB (i j : Nat) : Nat := 0x900200 + i * 0x40000 + j * 0x8
abbrev F.CHD_BSCRUB_STARTED : Nat × Nat := (0, 32)
abbrev F.CHD_BSCRUB_DONE : Nat × Nat := (32, 32)
/-- `CHDc_BSPAREb` (06_chandelier.md). -/
abbrev R.CHD_BSPARE (i j : Nat) : Nat := 0x900300 + i * 0x40000 + j * 0x8
abbrev F.CHD_BSPARE_USED : Nat × Nat := (0, 7)
abbrev F.CHD_BSPARE_FACTORY : Nat × Nat := (8, 7)
abbrev F.CHD_BSPARE_SUSPECTS : Nat × Nat := (16, 16)
/-- `CHDc_TABLEt` (06_chandelier.md). -/
abbrev R.CHD_TABLE (i j : Nat) : Nat := 0x900400 + i * 0x40000 + j * 0x8
abbrev F.CHD_TABLE_VALID : Nat × Nat := (0, 1)
abbrev F.CHD_TABLE_LOADING : Nat × Nat := (1, 1)
abbrev F.CHD_TABLE_BANKS_LOG2 : Nat × Nat := (2, 3)
abbrev F.CHD_TABLE_WIDTH : Nat × Nat := (5, 2)
abbrev F.CHD_TABLE_INSTANCE : Nat × Nat := (8, 11)
abbrev F.CHD_TABLE_GENERATION : Nat × Nat := (32, 16)
abbrev F.CHD_TABLE_PIPELINE : Nat × Nat := (48, 16)
/-- `CHDc_SEARCHES` (06_chandelier.md). -/
abbrev R.CHD_SEARCHES (i : Nat) : Nat := 0x900500 + i * 0x40000
abbrev F.CHD_SEARCHES_COUNT : Nat × Nat := (0, 64)
/-- `CHDc_STEPS` (06_chandelier.md). -/
abbrev R.CHD_STEPS (i : Nat) : Nat := 0x900508 + i * 0x40000
abbrev F.CHD_STEPS_COUNT : Nat × Nat := (0, 64)
/-- `CHDc_HITS` (06_chandelier.md). -/
abbrev R.CHD_HITS (i : Nat) : Nat := 0x900510 + i * 0x40000
abbrev F.CHD_HITS_COUNT : Nat × Nat := (0, 64)
/-- `CHDc_MULTIS` (06_chandelier.md). -/
abbrev R.CHD_MULTIS (i : Nat) : Nat := 0x900518 + i * 0x40000
abbrev F.CHD_MULTIS_COUNT : Nat × Nat := (0, 64)
/-- `CHDc_READBACK_FAILS` (06_chandelier.md). -/
abbrev R.CHD_READBACK_FAILS (i : Nat) : Nat := 0x900520 + i * 0x40000
abbrev F.CHD_READBACK_FAILS_COUNT : Nat × Nat := (0, 64)
/-- `CHDc_MISMATCHES` (06_chandelier.md). -/
abbrev R.CHD_MISMATCHES (i : Nat) : Nat := 0x900528 + i * 0x40000
abbrev F.CHD_MISMATCHES_COUNT : Nat × Nat := (0, 64)
/-- `CHDc_LEASE_VIOLS` (06_chandelier.md). -/
abbrev R.CHD_LEASE_VIOLS (i : Nat) : Nat := 0x900530 + i * 0x40000
abbrev F.CHD_LEASE_VIOLS_COUNT : Nat × Nat := (0, 64)
/-- `CHDc_BADHANDLES` (06_chandelier.md). -/
abbrev R.CHD_BADHANDLES (i : Nat) : Nat := 0x900538 + i * 0x40000
abbrev F.CHD_BADHANDLES_COUNT : Nat × Nat := (0, 64)
/-- `CHDc_DELETE_MISSES` (06_chandelier.md). -/
abbrev R.CHD_DELETE_MISSES (i : Nat) : Nat := 0x900540 + i * 0x40000
abbrev F.CHD_DELETE_MISSES_COUNT : Nat × Nat := (0, 64)
/-- `CHDc_REMAPS` (06_chandelier.md). -/
abbrev R.CHD_REMAPS (i : Nat) : Nat := 0x900548 + i * 0x40000
abbrev F.CHD_REMAPS_COUNT : Nat × Nat := (0, 64)

/-- The registers of block CHDc, part 0. -/
def regsCHDc0 : List RegDef := [
  ⟨"CHDc_CTL", 0x900000, [(4, 0x40000)],
   [fld "EN" 0 1 .rw 1,
    fld "SCRUB_EN" 1 1 .rw 1]⟩,
  ⟨"CHDc_STAT", 0x900008, [(4, 0x40000)],
   [fld "LOADING" 0 1 .ro 0,
    fld "REPAIRING" 1 1 .ro 0,
    fld "SCRUB_BANK" 2 5 .ro 0,
    fld "SCRUB_ROW" 7 11 .ro 0]⟩,
  ⟨"CHDc_ERR", 0x900010, [(4, 0x40000)],
   [fld "BADCFG" 0 1 .w1c 0,
    fld "READBACK" 1 1 .w1c 0,
    fld "MISMATCH" 2 1 .w1c 0,
    fld "SHADOW_UE" 3 1 .w1c 0,
    fld "LEASE_VIOL" 4 1 .w1c 0,
    fld "EXHAUSTED" 5 1 .w1c 0,
    fld "LOAD_FAIL" 6 1 .w1c 0]⟩,
  ⟨"CHDc_SCRUB", 0x900018, [(4, 0x40000)],
   [fld "INTERVAL" 0 12 .rw 128,
    fld "PASSES" 32 32 .ro 0]⟩,
  ⟨"CHDc_SHADOW", 0x900020, [(4, 0x40000)],
   [fld "BASE" 0 40 .rw 0]⟩,
  ⟨"CHDc_LOAD_ADDR", 0x900028, [(4, 0x40000)],
   [fld "ADDR" 0 40 .rw 0]⟩,
  ⟨"CHDc_LOAD_CTL", 0x900030, [(4, 0x40000)],
   [fld "COUNT" 0 17 .rw 0,
    fld "TABLE" 17 5 .rw 0,
    fld "GO" 22 1 .wo 0,
    fld "CLEAR" 23 1 .wo 0]⟩,
  ⟨"CHDc_LOAD_STAT", 0x900038, [(4, 0x40000)],
   [fld "CAUSE" 0 2 .ro 0,
    fld "RECORD" 8 17 .ro 0]⟩,
  ⟨"CHDc_PROBE_ADDR", 0x900040, [(4, 0x40000)],
   [fld "BANK" 0 5 .rw 0,
    fld "ROW" 8 11 .rw 0,
    fld "SPARE" 19 1 .rw 0]⟩,
  ⟨"CHDc_PROBE_DATA", 0x900048, [(4, 0x40000)],
   [fld "UNIT" 0 64 .ro 0]⟩,
  ⟨"CHDc_PROBE_META", 0x900050, [(4, 0x40000)],
   [fld "CHECK" 0 8 .ro 0,
    fld "TAG" 8 4 .ro 0,
    fld "VALID" 12 1 .ro 0,
    fld "SUSPECT" 13 1 .ro 0,
    fld "VALUE_TAG" 32 32 .ro 0]⟩,
  ⟨"CHDc_BANKb", 0x900100, [(4, 0x40000), (32, 0x8)],
   [fld "LEASED" 0 1 .rw 0,
    fld "WIDTH" 1 2 .rw 0,
    fld "TABLE" 3 5 .rw 0,
    fld "TBANK" 8 5 .rw 0,
    fld "OUT_OF_SERVICE" 13 1 .ro 0]⟩]

/-- The registers of block CHDc, part 1. -/
def regsCHDc1 : List RegDef := [
  ⟨"CHDc_BSCRUBb", 0x900200, [(4, 0x40000), (32, 0x8)],
   [fld "STARTED" 0 32 .ro 0,
    fld "DONE" 32 32 .ro 0]⟩,
  ⟨"CHDc_BSPAREb", 0x900300, [(4, 0x40000), (32, 0x8)],
   [fld "USED" 0 7 .ro 0,
    fld "FACTORY" 8 7 .ro 0,
    fld "SUSPECTS" 16 16 .ro 0]⟩,
  ⟨"CHDc_TABLEt", 0x900400, [(4, 0x40000), (32, 0x8)],
   [fld "VALID" 0 1 .rw 0,
    fld "LOADING" 1 1 .ro 0,
    fld "BANKS_LOG2" 2 3 .rw 0,
    fld "WIDTH" 5 2 .rw 0,
    fld "INSTANCE" 8 11 .rw 0,
    fld "GENERATION" 32 16 .rw 0,
    fld "PIPELINE" 48 16 .rw 0]⟩,
  ⟨"CHDc_SEARCHES", 0x900500, [(4, 0x40000)],
   [fld "COUNT" 0 64 .ro 0]⟩,
  ⟨"CHDc_STEPS", 0x900508, [(4, 0x40000)],
   [fld "COUNT" 0 64 .ro 0]⟩,
  ⟨"CHDc_HITS", 0x900510, [(4, 0x40000)],
   [fld "COUNT" 0 64 .ro 0]⟩,
  ⟨"CHDc_MULTIS", 0x900518, [(4, 0x40000)],
   [fld "COUNT" 0 64 .ro 0]⟩,
  ⟨"CHDc_READBACK_FAILS", 0x900520, [(4, 0x40000)],
   [fld "COUNT" 0 64 .ro 0]⟩,
  ⟨"CHDc_MISMATCHES", 0x900528, [(4, 0x40000)],
   [fld "COUNT" 0 64 .ro 0]⟩,
  ⟨"CHDc_LEASE_VIOLS", 0x900530, [(4, 0x40000)],
   [fld "COUNT" 0 64 .ro 0]⟩,
  ⟨"CHDc_BADHANDLES", 0x900538, [(4, 0x40000)],
   [fld "COUNT" 0 64 .ro 0]⟩,
  ⟨"CHDc_DELETE_MISSES", 0x900540, [(4, 0x40000)],
   [fld "COUNT" 0 64 .ro 0]⟩]

/-- The registers of block CHDc, part 2. -/
def regsCHDc2 : List RegDef := [
  ⟨"CHDc_REMAPS", 0x900548, [(4, 0x40000)],
   [fld "COUNT" 0 64 .ro 0]⟩]

/-- Every register of block CHDc. -/
def regsCHDc : List RegDef := regsCHDc0 ++ regsCHDc1 ++ regsCHDc2

/-! ### Block FOLD -/

/-- `FOLD_CTL` (08_fold_units.md). -/
abbrev R.FOLD_CTL : Nat := 0x700000
abbrev F.FOLD_CTL_EN : Nat × Nat := (0, 1)
/-- `FOLD_STAT` (08_fold_units.md). -/
abbrev R.FOLD_STAT : Nat := 0x700008
abbrev F.FOLD_STAT_FINISHING : Nat × Nat := (0, 1)
abbrev F.FOLD_STAT_SWAPPING : Nat × Nat := (1, 1)
/-- `FOLD_ERR` (08_fold_units.md). -/
abbrev R.FOLD_ERR : Nat := 0x700010
abbrev F.FOLD_ERR_BADCFG : Nat × Nat := (0, 1)
abbrev F.FOLD_ERR_UE : Nat × Nat := (1, 1)
abbrev F.FOLD_ERR_OVERFLOW : Nat × Nat := (2, 1)
abbrev F.FOLD_ERR_TABLE_FULL : Nat × Nat := (3, 1)
abbrev F.FOLD_ERR_FOREIGN : Nat × Nat := (4, 1)
abbrev F.FOLD_ERR_DPATH : Nat × Nat := (5, 1)
abbrev F.FOLD_ERR_EXHAUSTED : Nat × Nat := (6, 1)
abbrev F.FOLD_ERR_LATE : Nat × Nat := (7, 1)
/-- `FOLD_LASTBAD` (08_fold_units.md). -/
abbrev R.FOLD_LASTBAD : Nat := 0x700018
abbrev F.FOLD_LASTBAD_SHARE : Nat × Nat := (0, 7)
abbrev F.FOLD_LASTBAD_ENTRY : Nat × Nat := (8, 24)
abbrev F.FOLD_LASTBAD_CELL : Nat × Nat := (32, 3)
abbrev F.FOLD_LASTBAD_TABLE : Nat × Nat := (36, 6)
abbrev F.FOLD_LASTBAD_CAUSE : Nat × Nat := (42, 2)
/-- `FOLD_LASTSRC` (08_fold_units.md). -/
abbrev R.FOLD_LASTSRC : Nat := 0x700020
abbrev F.FOLD_LASTSRC_INSTANCE : Nat × Nat := (0, 11)
abbrev F.FOLD_LASTSRC_GENERATION : Nat × Nat := (16, 16)
/-- `FOLD_SPAREs` (08_fold_units.md). -/
abbrev R.FOLD_SPARE (i : Nat) : Nat := 0x700100 + i * 0x8
abbrev F.FOLD_SPARE_TARGET : Nat × Nat := (0, 5)
abbrev F.FOLD_SPARE_ACTIVE : Nat × Nat := (5, 1)
abbrev F.FOLD_SPARE_FAILED : Nat × Nat := (6, 16)
/-- `FOLD_TBLt_CFG` (08_fold_units.md). -/
abbrev R.FOLD_TBL_CFG (i : Nat) : Nat := 0x700400 + i * 0x20
abbrev F.FOLD_TBL_CFG_VALID : Nat × Nat := (0, 1)
abbrev F.FOLD_TBL_CFG_FINISHED : Nat × Nat := (1, 1)
abbrev F.FOLD_TBL_CFG_MODE : Nat × Nat := (2, 2)
abbrev F.FOLD_TBL_CFG_KEY_LEN : Nat × Nat := (4, 3)
abbrev F.FOLD_TBL_CFG_CELLS : Nat × Nat := (7, 4)
abbrev F.FOLD_TBL_CFG_REPL_LOG2 : Nat × Nat := (11, 3)
abbrev F.FOLD_TBL_CFG_SHARE_LOG2 : Nat × Nat := (14, 5)
abbrev F.FOLD_TBL_CFG_INSTANCE : Nat × Nat := (19, 11)
abbrev F.FOLD_TBL_CFG_GENERATION : Nat × Nat := (32, 16)
/-- `FOLD_TBLt_BASE` (08_fold_units.md). -/
abbrev R.FOLD_TBL_BASE (i : Nat) : Nat := 0x700408 + i * 0x20
abbrev F.FOLD_TBL_BASE_OFFSET : Nat × Nat := (0, 36)
/-- `FOLD_TBLt_CELLS` (08_fold_units.md). -/
abbrev R.FOLD_TBL_CELLS (i : Nat) : Nat := 0x700410 + i * 0x20
abbrev F.FOLD_TBL_CELLS_CELL0 : Nat × Nat := (0, 8)
abbrev F.FOLD_TBL_CELLS_CELL1 : Nat × Nat := (8, 8)
abbrev F.FOLD_TBL_CELLS_CELL2 : Nat × Nat := (16, 8)
abbrev F.FOLD_TBL_CELLS_CELL3 : Nat × Nat := (24, 8)
abbrev F.FOLD_TBL_CELLS_CELL4 : Nat × Nat := (32, 8)
abbrev F.FOLD_TBL_CELLS_CELL5 : Nat × Nat := (40, 8)
abbrev F.FOLD_TBL_CELLS_CELL6 : Nat × Nat := (48, 8)
abbrev F.FOLD_TBL_CELLS_CELL7 : Nat × Nat := (56, 8)
/-- `FOLD_TBLt_PREC` (08_fold_units.md). -/
abbrev R.FOLD_TBL_PREC (i : Nat) : Nat := 0x700418 + i * 0x20
abbrev F.FOLD_TBL_PREC_P0 : Nat × Nat := (0, 6)
abbrev F.FOLD_TBL_PREC_P1 : Nat × Nat := (6, 6)
abbrev F.FOLD_TBL_PREC_P2 : Nat × Nat := (12, 6)
abbrev F.FOLD_TBL_PREC_P3 : Nat × Nat := (18, 6)
abbrev F.FOLD_TBL_PREC_P4 : Nat × Nat := (24, 6)
abbrev F.FOLD_TBL_PREC_P5 : Nat × Nat := (30, 6)
abbrev F.FOLD_TBL_PREC_P6 : Nat × Nat := (36, 6)
abbrev F.FOLD_TBL_PREC_P7 : Nat × Nat := (42, 6)
/-- `FOLD_Us_u_STAT` (08_fold_units.md). -/
abbrev R.FOLD_U_STAT (i : Nat) : Nat := 0x701000 + i * 0x40
abbrev F.FOLD_U_STAT_IN_SERVICE : Nat × Nat := (0, 1)
abbrev F.FOLD_U_STAT_BUSY : Nat × Nat := (1, 1)
abbrev F.FOLD_U_STAT_WQ_DEPTH : Nat × Nat := (2, 7)
abbrev F.FOLD_U_STAT_SERVES : Nat × Nat := (9, 5)
/-- `FOLD_Us_u_UPDATES` (08_fold_units.md). -/
abbrev R.FOLD_U_UPDATES (i : Nat) : Nat := 0x701008 + i * 0x40
abbrev F.FOLD_U_UPDATES_COUNT : Nat × Nat := (0, 64)
/-- `FOLD_Us_u_FORWARDS` (08_fold_units.md). -/
abbrev R.FOLD_U_FORWARDS (i : Nat) : Nat := 0x701010 + i * 0x40
abbrev F.FOLD_U_FORWARDS_COUNT : Nat × Nat := (0, 64)
/-- `FOLD_Us_u_MISSES` (08_fold_units.md). -/
abbrev R.FOLD_U_MISSES (i : Nat) : Nat := 0x701018 + i * 0x40
abbrev F.FOLD_U_MISSES_COUNT : Nat × Nat := (0, 64)
/-- `FOLD_Us_u_STALE` (08_fold_units.md). -/
abbrev R.FOLD_U_STALE (i : Nat) : Nat := 0x701020 + i * 0x40
abbrev F.FOLD_U_STALE_COUNT : Nat × Nat := (0, 64)
/-- `FOLD_Us_u_FOREIGN` (08_fold_units.md). -/
abbrev R.FOLD_U_FOREIGN (i : Nat) : Nat := 0x701028 + i * 0x40
abbrev F.FOLD_U_FOREIGN_COUNT : Nat × Nat := (0, 64)
/-- `FOLD_Us_u_DPATH` (08_fold_units.md). -/
abbrev R.FOLD_U_DPATH (i : Nat) : Nat := 0x701030 + i * 0x40
abbrev F.FOLD_U_DPATH_COUNT : Nat × Nat := (0, 64)

/-- The registers of block FOLD, part 0. -/
def regsFOLD0 : List RegDef := [
  ⟨"FOLD_CTL", 0x700000, [],
   [fld "EN" 0 1 .rw 1]⟩,
  ⟨"FOLD_STAT", 0x700008, [],
   [fld "FINISHING" 0 1 .ro 0,
    fld "SWAPPING" 1 1 .ro 0]⟩,
  ⟨"FOLD_ERR", 0x700010, [],
   [fld "BADCFG" 0 1 .w1c 0,
    fld "UE" 1 1 .w1c 0,
    fld "OVERFLOW" 2 1 .w1c 0,
    fld "TABLE_FULL" 3 1 .w1c 0,
    fld "FOREIGN" 4 1 .w1c 0,
    fld "DPATH" 5 1 .w1c 0,
    fld "EXHAUSTED" 6 1 .w1c 0,
    fld "LATE" 7 1 .w1c 0]⟩,
  ⟨"FOLD_LASTBAD", 0x700018, [],
   [fld "SHARE" 0 7 .ro 0,
    fld "ENTRY" 8 24 .ro 0,
    fld "CELL" 32 3 .ro 0,
    fld "TABLE" 36 6 .ro 0,
    fld "CAUSE" 42 2 .ro 0]⟩,
  ⟨"FOLD_LASTSRC", 0x700020, [],
   [fld "INSTANCE" 0 11 .ro 0,
    fld "GENERATION" 16 16 .ro 0]⟩,
  ⟨"FOLD_SPAREs", 0x700100, [(8, 0x8)],
   [fld "TARGET" 0 5 .ro 0,
    fld "ACTIVE" 5 1 .ro 0,
    fld "FAILED" 6 16 .ro 0]⟩,
  ⟨"FOLD_TBLt_CFG", 0x700400, [(64, 0x20)],
   [fld "VALID" 0 1 .rw 0,
    fld "FINISHED" 1 1 .ro 0,
    fld "MODE" 2 2 .rw 0,
    fld "KEY_LEN" 4 3 .rw 0,
    fld "CELLS" 7 4 .rw 0,
    fld "REPL_LOG2" 11 3 .rw 0,
    fld "SHARE_LOG2" 14 5 .rw 0,
    fld "INSTANCE" 19 11 .rw 0,
    fld "GENERATION" 32 16 .rw 0]⟩,
  ⟨"FOLD_TBLt_BASE", 0x700408, [(64, 0x20)],
   [fld "OFFSET" 0 36 .rw 0]⟩,
  ⟨"FOLD_TBLt_CELLS", 0x700410, [(64, 0x20)],
   [fld "CELL0" 0 8 .rw 0,
    fld "CELL1" 8 8 .rw 0,
    fld "CELL2" 16 8 .rw 0,
    fld "CELL3" 24 8 .rw 0,
    fld "CELL4" 32 8 .rw 0,
    fld "CELL5" 40 8 .rw 0,
    fld "CELL6" 48 8 .rw 0,
    fld "CELL7" 56 8 .rw 0]⟩,
  ⟨"FOLD_TBLt_PREC", 0x700418, [(64, 0x20)],
   [fld "P0" 0 6 .rw 0,
    fld "P1" 6 6 .rw 0,
    fld "P2" 12 6 .rw 0,
    fld "P3" 18 6 .rw 0,
    fld "P4" 24 6 .rw 0,
    fld "P5" 30 6 .rw 0,
    fld "P6" 36 6 .rw 0,
    fld "P7" 42 6 .rw 0]⟩,
  ⟨"FOLD_Us_u_STAT", 0x701000, [(136, 0x40)],
   [fld "IN_SERVICE" 0 1 .ro 0,
    fld "BUSY" 1 1 .ro 0,
    fld "WQ_DEPTH" 2 7 .ro 0,
    fld "SERVES" 9 5 .ro 0]⟩,
  ⟨"FOLD_Us_u_UPDATES", 0x701008, [(136, 0x40)],
   [fld "COUNT" 0 64 .ro 0]⟩]

/-- The registers of block FOLD, part 1. -/
def regsFOLD1 : List RegDef := [
  ⟨"FOLD_Us_u_FORWARDS", 0x701010, [(136, 0x40)],
   [fld "COUNT" 0 64 .ro 0]⟩,
  ⟨"FOLD_Us_u_MISSES", 0x701018, [(136, 0x40)],
   [fld "COUNT" 0 64 .ro 0]⟩,
  ⟨"FOLD_Us_u_STALE", 0x701020, [(136, 0x40)],
   [fld "COUNT" 0 64 .ro 0]⟩,
  ⟨"FOLD_Us_u_FOREIGN", 0x701028, [(136, 0x40)],
   [fld "COUNT" 0 64 .ro 0]⟩,
  ⟨"FOLD_Us_u_DPATH", 0x701030, [(136, 0x40)],
   [fld "COUNT" 0 64 .ro 0]⟩]

/-- Every register of block FOLD. -/
def regsFOLD : List RegDef := regsFOLD0 ++ regsFOLD1

/-! ### Block TB -/

/-- `TB_CTL` (11_derailleur_time.md). -/
abbrev R.TB_CTL : Nat := 0x100000
abbrev F.TB_CTL_SLEW_EN : Nat × Nat := (0, 1)
abbrev F.TB_CTL_FORCE_HOLD : Nat × Nat := (1, 1)
/-- `TB_STAT` (11_derailleur_time.md). -/
abbrev R.TB_STAT : Nat := 0x100008
abbrev F.TB_STAT_STATE : Nat × Nat := (0, 2)
abbrev F.TB_STAT_TIME_VALID : Nat × Nat := (2, 1)
abbrev F.TB_STAT_REF_OK : Nat × Nat := (3, 1)
abbrev F.TB_STAT_REF_SEL : Nat × Nat := (4, 1)
abbrev F.TB_STAT_TSET_PENDING : Nat × Nat := (5, 1)
abbrev F.TB_STAT_CLEAN : Nat × Nat := (6, 3)
abbrev F.TB_STAT_DISCARDS : Nat × Nat := (9, 5)
/-- `TB_ERR` (11_derailleur_time.md). -/
abbrev R.TB_ERR : Nat := 0x100010
abbrev F.TB_ERR_BADCFG : Nat × Nat := (0, 1)
abbrev F.TB_ERR_NOISY : Nat × Nat := (1, 1)
abbrev F.TB_ERR_HOLDOVER : Nat × Nat := (2, 1)
abbrev F.TB_ERR_REF_LOST : Nat × Nat := (3, 1)
abbrev F.TB_ERR_PHASE : Nat × Nat := (4, 1)
/-- `TB_NOW` (11_derailleur_time.md). -/
abbrev R.TB_NOW : Nat := 0x100018
abbrev F.TB_NOW_RACK_TIME : Nat × Nat := (0, 64)
/-- `TB_PHASE` (11_derailleur_time.md). -/
abbrev R.TB_PHASE : Nat := 0x100020
abbrev F.TB_PHASE_ERROR : Nat × Nat := (0, 32)
/-- `TB_OSCTRIM` (11_derailleur_time.md). -/
abbrev R.TB_OSCTRIM : Nat := 0x100028
abbrev F.TB_OSCTRIM_USER : Nat × Nat := (0, 20)
abbrev F.TB_OSCTRIM_FACTORY : Nat × Nat := (20, 20)
abbrev F.TB_OSCTRIM_MEASURED : Nat × Nat := (40, 20)
/-- `TB_GLITCH` (11_derailleur_time.md). -/
abbrev R.TB_GLITCH : Nat := 0x100040
abbrev F.TB_GLITCH_COUNT : Nat × Nat := (0, 64)
/-- `TB_RUNTS` (11_derailleur_time.md). -/
abbrev R.TB_RUNTS : Nat := 0x100048
abbrev F.TB_RUNTS_COUNT : Nat × Nat := (0, 64)
/-- `TB_ACCEPTED` (11_derailleur_time.md). -/
abbrev R.TB_ACCEPTED : Nat := 0x100050
abbrev F.TB_ACCEPTED_COUNT : Nat × Nat := (0, 64)
/-- `TB_HOLDOVERS` (11_derailleur_time.md). -/
abbrev R.TB_HOLDOVERS : Nat := 0x100058
abbrev F.TB_HOLDOVERS_COUNT : Nat × Nat := (0, 64)

/-- The registers of block TB, part 0. -/
def regsTB0 : List RegDef := [
  ⟨"TB_CTL", 0x100000, [],
   [fld "SLEW_EN" 0 1 .rw 1,
    fld "FORCE_HOLD" 1 1 .rw 0]⟩,
  ⟨"TB_STAT", 0x100008, [],
   [fld "STATE" 0 2 .ro 0,
    fld "TIME_VALID" 2 1 .ro 0,
    fld "REF_OK" 3 1 .ro 0,
    fld "REF_SEL" 4 1 .ro 0,
    fld "TSET_PENDING" 5 1 .ro 0,
    fld "CLEAN" 6 3 .ro 0,
    fld "DISCARDS" 9 5 .ro 0]⟩,
  ⟨"TB_ERR", 0x100010, [],
   [fld "BADCFG" 0 1 .w1c 0,
    fld "NOISY" 1 1 .w1c 0,
    fld "HOLDOVER" 2 1 .w1c 0,
    fld "REF_LOST" 3 1 .w1c 0,
    fld "PHASE" 4 1 .w1c 0]⟩,
  ⟨"TB_NOW", 0x100018, [],
   [fld "RACK_TIME" 0 64 .ro 0]⟩,
  ⟨"TB_PHASE", 0x100020, [],
   [fld "ERROR" 0 32 .ro 0]⟩,
  ⟨"TB_OSCTRIM", 0x100028, [],
   [fld "USER" 0 20 .rw 0,
    fld "FACTORY" 20 20 .ro 0,
    fld "MEASURED" 40 20 .ro 0]⟩,
  ⟨"TB_GLITCH", 0x100040, [],
   [fld "COUNT" 0 64 .ro 0]⟩,
  ⟨"TB_RUNTS", 0x100048, [],
   [fld "COUNT" 0 64 .ro 0]⟩,
  ⟨"TB_ACCEPTED", 0x100050, [],
   [fld "COUNT" 0 64 .ro 0]⟩,
  ⟨"TB_HOLDOVERS", 0x100058, [],
   [fld "COUNT" 0 64 .ro 0]⟩]

/-- Every register of block TB. -/
def regsTB : List RegDef := regsTB0

/-! ### Block DRL -/

/-- `DRL_CTL` (11_derailleur_time.md). -/
abbrev R.DRL_CTL : Nat := 0x200000
abbrev F.DRL_CTL_EN : Nat × Nat := (0, 1)
abbrev F.DRL_CTL_PREEMPT_EN : Nat × Nat := (1, 1)
abbrev F.DRL_CTL_MIN_RUN : Nat × Nat := (4, 4)
abbrev F.DRL_CTL_LOCK : Nat × Nat := (63, 1)
/-- `DRL_COGCFG` (11_derailleur_time.md). -/
abbrev R.DRL_COGCFG : Nat := 0x200008
abbrev F.DRL_COGCFG_PERIOD : Nat × Nat := (0, 20)
abbrev F.DRL_COGCFG_LOADWIN : Nat × Nat := (20, 16)
/-- `DRL_COG` (11_derailleur_time.md). -/
abbrev R.DRL_COG : Nat := 0x200010
abbrev F.DRL_COG_COG : Nat × Nat := (0, 32)
/-- `DRL_STAT` (11_derailleur_time.md). -/
abbrev R.DRL_STAT : Nat := 0x200018
abbrev F.DRL_STAT_CTX_USED : Nat × Nat := (0, 22)
abbrev F.DRL_STAT_CACHE_USED : Nat × Nat := (22, 15)
/-- `DRL_ERR` (11_derailleur_time.md). -/
abbrev R.DRL_ERR : Nat := 0x200020
abbrev F.DRL_ERR_BADCFG : Nat × Nat := (0, 1)
abbrev F.DRL_ERR_COG_BUSY : Nat × Nat := (1, 1)
abbrev F.DRL_ERR_CTX_UE : Nat × Nat := (2, 1)
abbrev F.DRL_ERR_CACHE_PAR : Nat × Nat := (3, 1)
/-- `DRL_CTXBASE` (11_derailleur_time.md). -/
abbrev R.DRL_CTXBASE : Nat := 0x200028
abbrev F.DRL_CTXBASE_BASE : Nat × Nat := (0, 40)
/-- `DRL_CTXSEL` (11_derailleur_time.md). -/
abbrev R.DRL_CTXSEL : Nat := 0x200030
abbrev F.DRL_CTXSEL_INDEX : Nat × Nat := (0, 21)
/-- `DRL_CTXDATAj` (11_derailleur_time.md). -/
abbrev R.DRL_CTXDATA (i : Nat) : Nat := 0x200038 + i * 0x8
abbrev F.DRL_CTXDATA_WORD : Nat × Nat := (0, 64)
/-- `DRL_DISPATCHES` (11_derailleur_time.md). -/
abbrev R.DRL_DISPATCHES : Nat := 0x200080
abbrev F.DRL_DISPATCHES_COUNT : Nat × Nat := (0, 64)
/-- `DRL_PREEMPTS` (11_derailleur_time.md). -/
abbrev R.DRL_PREEMPTS : Nat := 0x200088
abbrev F.DRL_PREEMPTS_COUNT : Nat × Nat := (0, 64)
/-- `DRL_LED_VERIFIED` (11_derailleur_time.md). -/
abbrev R.DRL_LED_VERIFIED : Nat := 0x200090
abbrev F.DRL_LED_VERIFIED_COUNT : Nat × Nat := (0, 64)
/-- `DRL_LED_FAILED` (11_derailleur_time.md). -/
abbrev R.DRL_LED_FAILED : Nat := 0x200098
abbrev F.DRL_LED_FAILED_COUNT : Nat × Nat := (0, 64)
/-- `DRL_LED_FILLS` (11_derailleur_time.md). -/
abbrev R.DRL_LED_FILLS : Nat := 0x2000A0
abbrev F.DRL_LED_FILLS_COUNT : Nat × Nat := (0, 64)
/-- `DRL_LED_FULL` (11_derailleur_time.md). -/
abbrev R.DRL_LED_FULL : Nat := 0x2000A8
abbrev F.DRL_LED_FULL_COUNT : Nat × Nat := (0, 64)
/-- `DRL_LED_ENTRIES` (11_derailleur_time.md). -/
abbrev R.DRL_LED_ENTRIES : Nat := 0x2000B0
abbrev F.DRL_LED_ENTRIES_COUNT : Nat × Nat := (0, 17)
/-- `DRL_READYm_p` (11_derailleur_time.md). -/
abbrev R.DRL_READY (i : Nat) : Nat := 0x201000 + i * 0x8
abbrev F.DRL_READY_COUNT : Nat × Nat := (0, 22)
/-- `DRL_DLISTl` (11_derailleur_time.md). -/
abbrev R.DRL_DLIST (i : Nat) : Nat := 0x203000 + i * 0x8
abbrev F.DRL_DLIST_COUNT : Nat × Nat := (0, 22)
abbrev F.DRL_DLIST_HEAD_DUE : Nat × Nat := (32, 32)
/-- `DRL_HISTm_k` (11_derailleur_time.md). -/
abbrev R.DRL_HIST (i : Nat) : Nat := 0x204000 + i * 0x8
abbrev F.DRL_HIST_COUNT : Nat × Nat := (0, 64)
/-- `DRL_WLOADw` (11_derailleur_time.md). -/
abbrev R.DRL_WLOAD (i : Nat) : Nat := 0x208000 + i * 0x8
abbrev F.DRL_WLOAD_BUSY : Nat × Nat := (0, 40)
abbrev F.DRL_WLOAD_WINDOWS : Nat × Nat := (40, 24)

/-- The registers of block DRL, part 0. -/
def regsDRL0 : List RegDef := [
  ⟨"DRL_CTL", 0x200000, [],
   [fld "EN" 0 1 .rw 1,
    fld "PREEMPT_EN" 1 1 .rw 1,
    fld "MIN_RUN" 4 4 .rw 4,
    fld "LOCK" 63 1 .w1s 0]⟩,
  ⟨"DRL_COGCFG", 0x200008, [],
   [fld "PERIOD" 0 20 .rw 1000,
    fld "LOADWIN" 20 16 .rw 1000]⟩,
  ⟨"DRL_COG", 0x200010, [],
   [fld "COG" 0 32 .ro 0]⟩,
  ⟨"DRL_STAT", 0x200018, [],
   [fld "CTX_USED" 0 22 .ro 0,
    fld "CACHE_USED" 22 15 .ro 0]⟩,
  ⟨"DRL_ERR", 0x200020, [],
   [fld "BADCFG" 0 1 .w1c 0,
    fld "COG_BUSY" 1 1 .w1c 0,
    fld "CTX_UE" 2 1 .w1c 0,
    fld "CACHE_PAR" 3 1 .w1c 0]⟩,
  ⟨"DRL_CTXBASE", 0x200028, [],
   [fld "BASE" 0 40 .rwl 0]⟩,
  ⟨"DRL_CTXSEL", 0x200030, [],
   [fld "INDEX" 0 21 .rw 0]⟩,
  ⟨"DRL_CTXDATAj", 0x200038, [(8, 0x8)],
   [fld "WORD" 0 64 .ro 0]⟩,
  ⟨"DRL_DISPATCHES", 0x200080, [],
   [fld "COUNT" 0 64 .ro 0]⟩,
  ⟨"DRL_PREEMPTS", 0x200088, [],
   [fld "COUNT" 0 64 .ro 0]⟩,
  ⟨"DRL_LED_VERIFIED", 0x200090, [],
   [fld "COUNT" 0 64 .ro 0]⟩,
  ⟨"DRL_LED_FAILED", 0x200098, [],
   [fld "COUNT" 0 64 .ro 0]⟩]

/-- The registers of block DRL, part 1. -/
def regsDRL1 : List RegDef := [
  ⟨"DRL_LED_FILLS", 0x2000A0, [],
   [fld "COUNT" 0 64 .ro 0]⟩,
  ⟨"DRL_LED_FULL", 0x2000A8, [],
   [fld "COUNT" 0 64 .ro 0]⟩,
  ⟨"DRL_LED_ENTRIES", 0x2000B0, [],
   [fld "COUNT" 0 17 .ro 0]⟩,
  ⟨"DRL_READYm_p", 0x201000, [(512, 0x8)],
   [fld "COUNT" 0 22 .ro 0]⟩,
  ⟨"DRL_DLISTl", 0x203000, [(16, 0x8)],
   [fld "COUNT" 0 22 .ro 0,
    fld "HEAD_DUE" 32 32 .ro 0]⟩,
  ⟨"DRL_HISTm_k", 0x204000, [(1024, 0x8)],
   [fld "COUNT" 0 64 .rc 0]⟩,
  ⟨"DRL_WLOADw", 0x208000, [(1088, 0x8)],
   [fld "BUSY" 0 40 .ro 0,
    fld "WINDOWS" 40 24 .ro 0]⟩]

/-- Every register of block DRL. -/
def regsDRL : List RegDef := regsDRL0 ++ regsDRL1

/-! ### Block QM -/

/-- `QM_CTL` (12_queues_commands.md). -/
abbrev R.QM_CTL : Nat := 0x300000
abbrev F.QM_CTL_EN : Nat × Nat := (0, 1)
/-- `QM_STAT` (12_queues_commands.md). -/
abbrev R.QM_STAT : Nat := 0x300008
abbrev F.QM_STAT_QUEUES : Nat × Nat := (0, 15)
/-- `QM_ERR` (12_queues_commands.md). -/
abbrev R.QM_ERR : Nat := 0x300010
abbrev F.QM_ERR_BADCFG : Nat × Nat := (0, 1)
abbrev F.QM_ERR_OVERRUN : Nat × Nat := (1, 1)
abbrev F.QM_ERR_MIRROR_FAIL : Nat × Nat := (2, 1)
abbrev F.QM_ERR_QRESET_BUSY : Nat × Nat := (3, 1)
/-- `QM_QRESET` (12_queues_commands.md). -/
abbrev R.QM_QRESET : Nat := 0x300018
abbrev F.QM_QRESET_QUEUE : Nat × Nat := (0, 14)
abbrev F.QM_QRESET_GO : Nat × Nat := (14, 1)
/-- `QM_DOORBELLS` (12_queues_commands.md). -/
abbrev R.QM_DOORBELLS : Nat := 0x300040
abbrev F.QM_DOORBELLS_COUNT : Nat × Nat := (0, 64)
/-- `QM_BAD_DB` (12_queues_commands.md). -/
abbrev R.QM_BAD_DB : Nat := 0x300048
abbrev F.QM_BAD_DB_COUNT : Nat × Nat := (0, 64)
/-- `QM_ACCEPTED` (12_queues_commands.md). -/
abbrev R.QM_ACCEPTED : Nat := 0x300050
abbrev F.QM_ACCEPTED_COUNT : Nat × Nat := (0, 64)
/-- `QM_OVERRUNS` (12_queues_commands.md). -/
abbrev R.QM_OVERRUNS : Nat := 0x300058
abbrev F.QM_OVERRUNS_COUNT : Nat × Nat := (0, 64)
/-- `QM_QCFGg` (12_queues_commands.md). -/
abbrev R.QM_QCFG (i : Nat) : Nat := 0x380000 + i * 0x20
abbrev F.QM_QCFG_EN : Nat × Nat := (0, 1)
abbrev F.QM_QCFG_TYPE : Nat × Nat := (1, 2)
abbrev F.QM_QCFG_PUSH : Nat × Nat := (3, 1)
abbrev F.QM_QCFG_SIZE_LOG2 : Nat × Nat := (4, 5)
abbrev F.QM_QCFG_PORT : Nat × Nat := (9, 3)
abbrev F.QM_QCFG_MIRROR_EN : Nat × Nat := (12, 1)
abbrev F.QM_QCFG_NOTIFY_EN : Nat × Nat := (13, 1)
abbrev F.QM_QCFG_INSTANCE : Nat × Nat := (16, 11)
abbrev F.QM_QCFG_LOCAL : Nat × Nat := (32, 9)
abbrev F.QM_QCFG_VECTOR : Nat × Nat := (48, 16)
/-- `QM_QBASEg` (12_queues_commands.md). -/
abbrev R.QM_QBASE (i : Nat) : Nat := 0x380008 + i * 0x20
abbrev F.QM_QBASE_BASE : Nat × Nat := (0, 64)
/-- `QM_QMIRRORg` (12_queues_commands.md). -/
abbrev R.QM_QMIRROR (i : Nat) : Nat := 0x380010 + i * 0x20
abbrev F.QM_QMIRROR_ADDR : Nat × Nat := (0, 64)
/-- `QM_QSTATg` (12_queues_commands.md). -/
abbrev R.QM_QSTAT (i : Nat) : Nat := 0x380018 + i * 0x20
abbrev F.QM_QSTAT_HEAD : Nat × Nat := (0, 17)
abbrev F.QM_QSTAT_TAIL : Nat × Nat := (17, 17)
abbrev F.QM_QSTAT_FETCH : Nat × Nat := (34, 17)
abbrev F.QM_QSTAT_IDLE : Nat × Nat := (51, 1)
abbrev F.QM_QSTAT_STATE : Nat × Nat := (52, 2)
abbrev F.QM_QSTAT_CAUSE : Nat × Nat := (54, 2)

/-- The registers of block QM, part 0. -/
def regsQM0 : List RegDef := [
  ⟨"QM_CTL", 0x300000, [],
   [fld "EN" 0 1 .rw 1]⟩,
  ⟨"QM_STAT", 0x300008, [],
   [fld "QUEUES" 0 15 .ro 0]⟩,
  ⟨"QM_ERR", 0x300010, [],
   [fld "BADCFG" 0 1 .w1c 0,
    fld "OVERRUN" 1 1 .w1c 0,
    fld "MIRROR_FAIL" 2 1 .w1c 0,
    fld "QRESET_BUSY" 3 1 .w1c 0]⟩,
  ⟨"QM_QRESET", 0x300018, [],
   [fld "QUEUE" 0 14 .wo 0,
    fld "GO" 14 1 .wo 0]⟩,
  ⟨"QM_DOORBELLS", 0x300040, [],
   [fld "COUNT" 0 64 .ro 0]⟩,
  ⟨"QM_BAD_DB", 0x300048, [],
   [fld "COUNT" 0 64 .ro 0]⟩,
  ⟨"QM_ACCEPTED", 0x300050, [],
   [fld "COUNT" 0 64 .ro 0]⟩,
  ⟨"QM_OVERRUNS", 0x300058, [],
   [fld "COUNT" 0 64 .ro 0]⟩,
  ⟨"QM_QCFGg", 0x380000, [(16384, 0x20)],
   [fld "EN" 0 1 .rw 0,
    fld "TYPE" 1 2 .rw 0,
    fld "PUSH" 3 1 .rw 0,
    fld "SIZE_LOG2" 4 5 .rw 0,
    fld "PORT" 9 3 .rw 0,
    fld "MIRROR_EN" 12 1 .rw 0,
    fld "NOTIFY_EN" 13 1 .rw 0,
    fld "INSTANCE" 16 11 .rw 0,
    fld "LOCAL" 32 9 .rw 0,
    fld "VECTOR" 48 16 .rw 0]⟩,
  ⟨"QM_QBASEg", 0x380008, [(16384, 0x20)],
   [fld "BASE" 0 64 .rw 0]⟩,
  ⟨"QM_QMIRRORg", 0x380010, [(16384, 0x20)],
   [fld "ADDR" 0 64 .rw 0]⟩,
  ⟨"QM_QSTATg", 0x380018, [(16384, 0x20)],
   [fld "HEAD" 0 17 .ro 0,
    fld "TAIL" 17 17 .ro 0,
    fld "FETCH" 34 17 .ro 0,
    fld "IDLE" 51 1 .ro 1,
    fld "STATE" 52 2 .ro 0,
    fld "CAUSE" 54 2 .ro 0]⟩]

/-- Every register of block QM. -/
def regsQM : List RegDef := regsQM0

/-! ### Block INST -/

/-- `INST_STAT` (13_tenants_tally.md). -/
abbrev R.INST_STAT : Nat := 0x400000
abbrev F.INST_STAT_ACTIVE : Nat × Nat := (0, 11)
/-- `INST_ERR` (13_tenants_tally.md). -/
abbrev R.INST_ERR : Nat := 0x400010
abbrev F.INST_ERR_HELD : Nat × Nat := (0, 1)
abbrev F.INST_ERR_MERGED : Nat × Nat := (1, 1)
abbrev F.INST_ERR_NOKEY : Nat × Nat := (2, 1)
/-- `INST_POOL` (13_tenants_tally.md). -/
abbrev R.INST_POOL : Nat := 0x400018
abbrev F.INST_POOL_MAX_POOLED : Nat × Nat := (0, 11)
abbrev F.INST_POOL_POOLED : Nat × Nat := (11, 11)
/-- `INST_TALLYSTAT` (13_tenants_tally.md). -/
abbrev R.INST_TALLYSTAT : Nat := 0x400028
abbrev F.INST_TALLYSTAT_HELD_MIN : Nat × Nat := (0, 7)
abbrev F.INST_TALLYSTAT_MERGING : Nat × Nat := (7, 1)
abbrev F.INST_TALLYSTAT_MERGE_SPAN : Nat × Nat := (8, 16)
/-- `INST_TALLYSEQ` (13_tenants_tally.md). -/
abbrev R.INST_TALLYSEQ : Nat := 0x400030
abbrev F.INST_TALLYSEQ_NEXT : Nat × Nat := (0, 64)
/-- `INST_TALLY_MERGES` (13_tenants_tally.md). -/
abbrev R.INST_TALLY_MERGES : Nat := 0x400040
abbrev F.INST_TALLY_MERGES_COUNT : Nat × Nat := (0, 64)
/-- `INST_CFGi` (13_tenants_tally.md). -/
abbrev R.INST_CFG (i : Nat) : Nat := 0x410000 + i * 0x40
abbrev F.INST_CFG_STATE : Nat × Nat := (0, 2)
abbrev F.INST_CFG_CLASS : Nat × Nat := (2, 2)
abbrev F.INST_CFG_SHRINKING : Nat × Nat := (4, 1)
abbrev F.INST_CFG_WICKS : Nat × Nat := (5, 11)
abbrev F.INST_CFG_BANKS : Nat × Nat := (16, 8)
abbrev F.INST_CFG_FOLD : Nat × Nat := (24, 11)
/-- `INST_MEMi` (13_tenants_tally.md). -/
abbrev R.INST_MEM (i : Nat) : Nat := 0x410008 + i * 0x40
abbrev F.INST_MEM_QUOTA : Nat × Nat := (0, 32)
abbrev F.INST_MEM_HELD : Nat × Nat := (32, 32)
/-- `INST_GENi` (13_tenants_tally.md). -/
abbrev R.INST_GEN (i : Nat) : Nat := 0x410010 + i * 0x40
abbrev F.INST_GEN_CURRENT : Nat × Nat := (0, 16)
abbrev F.INST_GEN_RETIRED0 : Nat × Nat := (16, 16)
abbrev F.INST_GEN_RETIRED1 : Nat × Nat := (32, 16)
abbrev F.INST_GEN_RETIRED2 : Nat × Nat := (48, 16)
/-- `INST_OUTi` (13_tenants_tally.md). -/
abbrev R.INST_OUT (i : Nat) : Nat := 0x410018 + i * 0x40
abbrev F.INST_OUT_OUTSTANDING : Nat × Nat := (0, 4)
/-- `INST_STALEi` (13_tenants_tally.md). -/
abbrev R.INST_STALE (i : Nat) : Nat := 0x410020 + i * 0x40
abbrev F.INST_STALE_COUNT : Nat × Nat := (0, 64)

/-- The registers of block INST, part 0. -/
def regsINST0 : List RegDef := [
  ⟨"INST_STAT", 0x400000, [],
   [fld "ACTIVE" 0 11 .ro 1]⟩,
  ⟨"INST_ERR", 0x400010, [],
   [fld "HELD" 0 1 .w1c 0,
    fld "MERGED" 1 1 .w1c 0,
    fld "NOKEY" 2 1 .w1c 0]⟩,
  ⟨"INST_POOL", 0x400018, [],
   [fld "MAX_POOLED" 0 11 .ro 0,
    fld "POOLED" 11 11 .ro 0]⟩,
  ⟨"INST_TALLYSTAT", 0x400028, [],
   [fld "HELD_MIN" 0 7 .ro 0,
    fld "MERGING" 7 1 .ro 0,
    fld "MERGE_SPAN" 8 16 .ro 0]⟩,
  ⟨"INST_TALLYSEQ", 0x400030, [],
   [fld "NEXT" 0 64 .ro 0]⟩,
  ⟨"INST_TALLY_MERGES", 0x400040, [],
   [fld "COUNT" 0 64 .ro 0]⟩,
  ⟨"INST_CFGi", 0x410000, [(1025, 0x40)],
   [fld "STATE" 0 2 .ro 0,
    fld "CLASS" 2 2 .ro 0,
    fld "SHRINKING" 4 1 .ro 0,
    fld "WICKS" 5 11 .ro 0,
    fld "BANKS" 16 8 .ro 0,
    fld "FOLD" 24 11 .ro 0]⟩,
  ⟨"INST_MEMi", 0x410008, [(1025, 0x40)],
   [fld "QUOTA" 0 32 .ro 0,
    fld "HELD" 32 32 .ro 0]⟩,
  ⟨"INST_GENi", 0x410010, [(1025, 0x40)],
   [fld "CURRENT" 0 16 .ro 0,
    fld "RETIRED0" 16 16 .ro 0,
    fld "RETIRED1" 32 16 .ro 0,
    fld "RETIRED2" 48 16 .ro 0]⟩,
  ⟨"INST_OUTi", 0x410018, [(1025, 0x40)],
   [fld "OUTSTANDING" 0 4 .ro 0]⟩,
  ⟨"INST_STALEi", 0x410020, [(1025, 0x40)],
   [fld "COUNT" 0 64 .ro 0]⟩]

/-- Every register of block INST. -/
def regsINST : List RegDef := regsINST0

/-! ### Block JNL -/

/-- `JNL_ERR` (13_tenants_tally.md). -/
abbrev R.JNL_ERR : Nat := 0x1400000
abbrev F.JNL_ERR_PARITY : Nat × Nat := (0, 1)
/-- `JNL_STAT` (13_tenants_tally.md). -/
abbrev R.JNL_STAT : Nat := 0x1400008
abbrev F.JNL_STAT_COUNT : Nat × Nat := (0, 15)
/-- `JNL_NEXT` (13_tenants_tally.md). -/
abbrev R.JNL_NEXT : Nat := 0x1400010
abbrev F.JNL_NEXT_SEQ : Nat × Nat := (0, 64)
/-- `JNL_WRAPS` (13_tenants_tally.md). -/
abbrev R.JNL_WRAPS : Nat := 0x1400018
abbrev F.JNL_WRAPS_COUNT : Nat × Nat := (0, 64)
/-- `JNL_SEL` (13_tenants_tally.md). -/
abbrev R.JNL_SEL : Nat := 0x1400020
abbrev F.JNL_SEL_SEQ : Nat × Nat := (0, 64)
/-- `JNL_DATAj` (13_tenants_tally.md). -/
abbrev R.JNL_DATA (i : Nat) : Nat := 0x1400040 + i * 0x8
abbrev F.JNL_DATA_WORD : Nat × Nat := (0, 64)

/-- The registers of block JNL, part 0. -/
def regsJNL0 : List RegDef := [
  ⟨"JNL_ERR", 0x1400000, [],
   [fld "PARITY" 0 1 .w1c 0]⟩,
  ⟨"JNL_STAT", 0x1400008, [],
   [fld "COUNT" 0 15 .ro 0]⟩,
  ⟨"JNL_NEXT", 0x1400010, [],
   [fld "SEQ" 0 64 .ro 0]⟩,
  ⟨"JNL_WRAPS", 0x1400018, [],
   [fld "COUNT" 0 64 .ro 0]⟩,
  ⟨"JNL_SEL", 0x1400020, [],
   [fld "SEQ" 0 64 .rw 0]⟩,
  ⟨"JNL_DATAj", 0x1400040, [(8, 0x8)],
   [fld "WORD" 0 64 .ro 0]⟩]

/-- Every register of block JNL. -/
def regsJNL : List RegDef := regsJNL0

/-! ### Block MLKn -/

/-- `MLKn_CTL` (14_molmi_link.md). -/
abbrev R.MLK_CTL (i : Nat) : Nat := 0x500000 + i * 0x10000
abbrev F.MLK_CTL_EN : Nat × Nat := (0, 1)
abbrev F.MLK_CTL_RETRAIN : Nat × Nat := (1, 1)
abbrev F.MLK_CTL_SWAP_EN : Nat × Nat := (2, 1)
abbrev F.MLK_CTL_X4_EN : Nat × Nat := (3, 1)
abbrev F.MLK_CTL_LOCK : Nat × Nat := (63, 1)
/-- `MLKn_CFG` (14_molmi_link.md). -/
abbrev R.MLK_CFG (i : Nat) : Nat := 0x500008 + i * 0x10000
abbrev F.MLK_CFG_MODE : Nat × Nat := (0, 2)
abbrev F.MLK_CFG_PRECODE : Nat × Nat := (2, 1)
abbrev F.MLK_CFG_LANE_TH : Nat × Nat := (16, 16)
abbrev F.MLK_CFG_REPLAY_TO : Nat × Nat := (32, 16)
abbrev F.MLK_CFG_XFER_TO : Nat × Nat := (48, 16)
/-- `MLKn_CREDIT` (14_molmi_link.md). -/
abbrev R.MLK_CREDIT (i : Nat) : Nat := 0x500010 + i * 0x10000
abbrev F.MLK_CREDIT_VC0 : Nat × Nat := (0, 8)
abbrev F.MLK_CREDIT_VC1 : Nat × Nat := (8, 8)
abbrev F.MLK_CREDIT_VC2 : Nat × Nat := (16, 8)
abbrev F.MLK_CREDIT_VC3 : Nat × Nat := (24, 8)
/-- `MLKn_STAT` (14_molmi_link.md). -/
abbrev R.MLK_STAT (i : Nat) : Nat := 0x500018 + i * 0x10000
abbrev F.MLK_STAT_STATE : Nat × Nat := (0, 4)
abbrev F.MLK_STAT_TX_LAYOUT : Nat × Nat := (4, 2)
abbrev F.MLK_STAT_RX_LAYOUT : Nat × Nat := (6, 2)
abbrev F.MLK_STAT_TX_SWAPPED : Nat × Nat := (8, 4)
abbrev F.MLK_STAT_RX_SWAPPED : Nat × Nat := (12, 4)
abbrev F.MLK_STAT_LANE_GOOD : Nat × Nat := (16, 9)
abbrev F.MLK_STAT_PARTNER_DEV : Nat × Nat := (25, 4)
abbrev F.MLK_STAT_TX_SEQ : Nat × Nat := (29, 12)
abbrev F.MLK_STAT_RX_EXPECT : Nat × Nat := (41, 12)
/-- `MLKn_ERR` (14_molmi_link.md). -/
abbrev R.MLK_ERR (i : Nat) : Nat := 0x500020 + i * 0x10000
abbrev F.MLK_ERR_BADCFG : Nat × Nat := (0, 1)
abbrev F.MLK_ERR_LINK_LOST : Nat × Nat := (1, 1)
abbrev F.MLK_ERR_REFCLK : Nat × Nat := (2, 1)
abbrev F.MLK_ERR_ID_CLASH : Nat × Nat := (3, 1)
abbrev F.MLK_ERR_MODE_MISMATCH : Nat × Nat := (4, 1)
abbrev F.MLK_ERR_MALFORMED : Nat × Nat := (5, 1)
abbrev F.MLK_ERR_CPL_FAIL : Nat × Nat := (6, 1)
/-- `MLKn_LOSS` (14_molmi_link.md). -/
abbrev R.MLK_LOSS (i : Nat) : Nat := 0x500028 + i * 0x10000
abbrev F.MLK_LOSS_RACK_TIME : Nat × Nat := (0, 64)
/-- `MLKn_FLITS_TX` (14_molmi_link.md). -/
abbrev R.MLK_FLITS_TX (i : Nat) : Nat := 0x500040 + i * 0x10000
abbrev F.MLK_FLITS_TX_COUNT : Nat × Nat := (0, 64)
/-- `MLKn_FLITS_RX` (14_molmi_link.md). -/
abbrev R.MLK_FLITS_RX (i : Nat) : Nat := 0x500048 + i * 0x10000
abbrev F.MLK_FLITS_RX_COUNT : Nat × Nat := (0, 64)
/-- `MLKn_CRC_ERRS` (14_molmi_link.md). -/
abbrev R.MLK_CRC_ERRS (i : Nat) : Nat := 0x500050 + i * 0x10000
abbrev F.MLK_CRC_ERRS_COUNT : Nat × Nat := (0, 64)
/-- `MLKn_REPLAYS` (14_molmi_link.md). -/
abbrev R.MLK_REPLAYS (i : Nat) : Nat := 0x500058 + i * 0x10000
abbrev F.MLK_REPLAYS_COUNT : Nat × Nat := (0, 64)
/-- `MLKn_FEC_UNCORR` (14_molmi_link.md). -/
abbrev R.MLK_FEC_UNCORR (i : Nat) : Nat := 0x500060 + i * 0x10000
abbrev F.MLK_FEC_UNCORR_COUNT : Nat × Nat := (0, 64)
/-- `MLKn_SWAPS` (14_molmi_link.md). -/
abbrev R.MLK_SWAPS (i : Nat) : Nat := 0x500068 + i * 0x10000
abbrev F.MLK_SWAPS_COUNT : Nat × Nat := (0, 64)
/-- `MLKn_TRAIN_FAILS` (14_molmi_link.md). -/
abbrev R.MLK_TRAIN_FAILS (i : Nat) : Nat := 0x500070 + i * 0x10000
abbrev F.MLK_TRAIN_FAILS_COUNT : Nat × Nat := (0, 64)
/-- `MLKn_LINK_LOSTS` (14_molmi_link.md). -/
abbrev R.MLK_LINK_LOSTS (i : Nat) : Nat := 0x500078 + i * 0x10000
abbrev F.MLK_LINK_LOSTS_COUNT : Nat × Nat := (0, 64)
/-- `MLKn_MALFORMED` (14_molmi_link.md). -/
abbrev R.MLK_MALFORMED (i : Nat) : Nat := 0x500080 + i * 0x10000
abbrev F.MLK_MALFORMED_COUNT : Nat × Nat := (0, 64)
/-- `MLKn_STALE_IN` (14_molmi_link.md). -/
abbrev R.MLK_STALE_IN (i : Nat) : Nat := 0x500088 + i * 0x10000
abbrev F.MLK_STALE_IN_COUNT : Nat × Nat := (0, 64)
/-- `MLKn_BAD_DATA` (14_molmi_link.md). -/
abbrev R.MLK_BAD_DATA (i : Nat) : Nat := 0x500090 + i * 0x10000
abbrev F.MLK_BAD_DATA_COUNT : Nat × Nat := (0, 64)
/-- `MLKn_CPL_FAILS` (14_molmi_link.md). -/
abbrev R.MLK_CPL_FAILS (i : Nat) : Nat := 0x500098 + i * 0x10000
abbrev F.MLK_CPL_FAILS_COUNT : Nat × Nat := (0, 64)
/-- `MLKn_FORWARDS` (14_molmi_link.md). -/
abbrev R.MLK_FORWARDS (i : Nat) : Nat := 0x5000A0 + i * 0x10000
abbrev F.MLK_FORWARDS_COUNT : Nat × Nat := (0, 64)
/-- `MLKn_HOP_DROPS` (14_molmi_link.md). -/
abbrev R.MLK_HOP_DROPS (i : Nat) : Nat := 0x5000A8 + i * 0x10000
abbrev F.MLK_HOP_DROPS_COUNT : Nat × Nat := (0, 64)
/-- `MLKn_LANEl_STAT` (14_molmi_link.md). -/
abbrev R.MLK_LANE_STAT (i j : Nat) : Nat := 0x500200 + i * 0x10000 + j * 0x10
abbrev F.MLK_LANE_STAT_LOCK : Nat × Nat := (0, 1)
abbrev F.MLK_LANE_STAT_INVERTED : Nat × Nat := (1, 1)
abbrev F.MLK_LANE_STAT_LOGICAL : Nat × Nat := (2, 4)
abbrev F.MLK_LANE_STAT_SKEW : Nat × Nat := (8, 8)
/-- `MLKn_LANEl_FEC` (14_molmi_link.md). -/
abbrev R.MLK_LANE_FEC (i j : Nat) : Nat := 0x500208 + i * 0x10000 + j * 0x10
abbrev F.MLK_LANE_FEC_COUNT : Nat × Nat := (0, 64)

/-- The registers of block MLKn, part 0. -/
def regsMLKn0 : List RegDef := [
  ⟨"MLKn_CTL", 0x500000, [(6, 0x10000)],
   [fld "EN" 0 1 .rw 0,
    fld "RETRAIN" 1 1 .wo 0,
    fld "SWAP_EN" 2 1 .rw 1,
    fld "X4_EN" 3 1 .rw 1,
    fld "LOCK" 63 1 .w1s 0]⟩,
  ⟨"MLKn_CFG", 0x500008, [(6, 0x10000)],
   [fld "MODE" 0 2 .rwl 0,
    fld "PRECODE" 2 1 .rw 0,
    fld "LANE_TH" 16 16 .rw 1000,
    fld "REPLAY_TO" 32 16 .rw 40,
    fld "XFER_TO" 48 16 .rw 1000]⟩,
  ⟨"MLKn_CREDIT", 0x500010, [(6, 0x10000)],
   [fld "VC0" 0 8 .rw 128,
    fld "VC1" 8 8 .rw 128,
    fld "VC2" 16 8 .rw 64,
    fld "VC3" 24 8 .rw 32]⟩,
  ⟨"MLKn_STAT", 0x500018, [(6, 0x10000)],
   [fld "STATE" 0 4 .ro 0,
    fld "TX_LAYOUT" 4 2 .ro 0,
    fld "RX_LAYOUT" 6 2 .ro 0,
    fld "TX_SWAPPED" 8 4 .ro 15,
    fld "RX_SWAPPED" 12 4 .ro 15,
    fld "LANE_GOOD" 16 9 .ro 0,
    fld "PARTNER_DEV" 25 4 .ro 0,
    fld "TX_SEQ" 29 12 .ro 0,
    fld "RX_EXPECT" 41 12 .ro 0]⟩,
  ⟨"MLKn_ERR", 0x500020, [(6, 0x10000)],
   [fld "BADCFG" 0 1 .w1c 0,
    fld "LINK_LOST" 1 1 .w1c 0,
    fld "REFCLK" 2 1 .w1c 0,
    fld "ID_CLASH" 3 1 .w1c 0,
    fld "MODE_MISMATCH" 4 1 .w1c 0,
    fld "MALFORMED" 5 1 .w1c 0,
    fld "CPL_FAIL" 6 1 .w1c 0]⟩,
  ⟨"MLKn_LOSS", 0x500028, [(6, 0x10000)],
   [fld "RACK_TIME" 0 64 .ro 0]⟩,
  ⟨"MLKn_FLITS_TX", 0x500040, [(6, 0x10000)],
   [fld "COUNT" 0 64 .ro 0]⟩,
  ⟨"MLKn_FLITS_RX", 0x500048, [(6, 0x10000)],
   [fld "COUNT" 0 64 .ro 0]⟩,
  ⟨"MLKn_CRC_ERRS", 0x500050, [(6, 0x10000)],
   [fld "COUNT" 0 64 .ro 0]⟩,
  ⟨"MLKn_REPLAYS", 0x500058, [(6, 0x10000)],
   [fld "COUNT" 0 64 .ro 0]⟩,
  ⟨"MLKn_FEC_UNCORR", 0x500060, [(6, 0x10000)],
   [fld "COUNT" 0 64 .ro 0]⟩,
  ⟨"MLKn_SWAPS", 0x500068, [(6, 0x10000)],
   [fld "COUNT" 0 64 .ro 0]⟩]

/-- The registers of block MLKn, part 1. -/
def regsMLKn1 : List RegDef := [
  ⟨"MLKn_TRAIN_FAILS", 0x500070, [(6, 0x10000)],
   [fld "COUNT" 0 64 .ro 0]⟩,
  ⟨"MLKn_LINK_LOSTS", 0x500078, [(6, 0x10000)],
   [fld "COUNT" 0 64 .ro 0]⟩,
  ⟨"MLKn_MALFORMED", 0x500080, [(6, 0x10000)],
   [fld "COUNT" 0 64 .ro 0]⟩,
  ⟨"MLKn_STALE_IN", 0x500088, [(6, 0x10000)],
   [fld "COUNT" 0 64 .ro 0]⟩,
  ⟨"MLKn_BAD_DATA", 0x500090, [(6, 0x10000)],
   [fld "COUNT" 0 64 .ro 0]⟩,
  ⟨"MLKn_CPL_FAILS", 0x500098, [(6, 0x10000)],
   [fld "COUNT" 0 64 .ro 0]⟩,
  ⟨"MLKn_FORWARDS", 0x5000A0, [(6, 0x10000)],
   [fld "COUNT" 0 64 .ro 0]⟩,
  ⟨"MLKn_HOP_DROPS", 0x5000A8, [(6, 0x10000)],
   [fld "COUNT" 0 64 .ro 0]⟩,
  ⟨"MLKn_LANEl_STAT", 0x500200, [(6, 0x10000), (9, 0x10)],
   [fld "LOCK" 0 1 .ro 0,
    fld "INVERTED" 1 1 .ro 0,
    fld "LOGICAL" 2 4 .ro 15,
    fld "SKEW" 8 8 .ro 0]⟩,
  ⟨"MLKn_LANEl_FEC", 0x500208, [(6, 0x10000), (9, 0x10)],
   [fld "COUNT" 0 64 .ro 0]⟩]

/-- Every register of block MLKn. -/
def regsMLKn : List RegDef := regsMLKn0 ++ regsMLKn1

/-! ### Block MLK0 -/

/-- `MLK0_PACE` (14_molmi_link.md). -/
abbrev R.MLK0_PACE : Nat := 0x500800
abbrev F.MLK0_PACE_DEVICE_ID : Nat × Nat := (0, 4)
/-- `MLK0_ROUTEd` (14_molmi_link.md). -/
abbrev R.MLK0_ROUTE (i : Nat) : Nat := 0x500840 + i * 0x8
abbrev F.MLK0_ROUTE_PORT : Nat × Nat := (0, 3)
abbrev F.MLK0_ROUTE_VALID : Nat × Nat := (3, 1)
/-- `MLK0_BINDk` (14_molmi_link.md). -/
abbrev R.MLK0_BIND (i : Nat) : Nat := 0x500900 + i * 0x8
abbrev F.MLK0_BIND_LOCAL_INST : Nat × Nat := (0, 11)
abbrev F.MLK0_BIND_PEER_DEV : Nat × Nat := (11, 4)
abbrev F.MLK0_BIND_VALID : Nat × Nat := (15, 1)
abbrev F.MLK0_BIND_PEER_INST : Nat × Nat := (16, 11)
abbrev F.MLK0_BIND_PEER_GEN : Nat × Nat := (32, 16)

/-- The registers of block MLK0, part 0. -/
def regsMLK00 : List RegDef := [
  ⟨"MLK0_PACE", 0x500800, [],
   [fld "DEVICE_ID" 0 4 .rwl 0]⟩,
  ⟨"MLK0_ROUTEd", 0x500840, [(16, 0x8)],
   [fld "PORT" 0 3 .rw 0,
    fld "VALID" 3 1 .rw 0]⟩,
  ⟨"MLK0_BINDk", 0x500900, [(64, 0x8)],
   [fld "LOCAL_INST" 0 11 .rw 0,
    fld "PEER_DEV" 11 4 .rw 0,
    fld "VALID" 15 1 .rw 0,
    fld "PEER_INST" 16 11 .rw 0,
    fld "PEER_GEN" 32 16 .rw 0]⟩]

/-- Every register of block MLK0. -/
def regsMLK0 : List RegDef := regsMLK00

/-! ### Block HBMs -/

/-- `HBMs_CTL` (15_memory_chain_sconce.md). -/
abbrev R.HBM_CTL (i : Nat) : Nat := 0x600000 + i * 0x10000
abbrev F.HBM_CTL_PATROL_EN : Nat × Nat := (0, 1)
abbrev F.HBM_CTL_RETRAIN_EN : Nat × Nat := (1, 1)
abbrev F.HBM_CTL_LOCK : Nat × Nat := (63, 1)
/-- `HBMs_CFG` (15_memory_chain_sconce.md). -/
abbrev R.HBM_CFG (i : Nat) : Nat := 0x600008 + i * 0x10000
abbrev F.HBM_CFG_RATE : Nat × Nat := (0, 2)
abbrev F.HBM_CFG_TREFI : Nat × Nat := (2, 12)
abbrev F.HBM_CFG_TRFC : Nat × Nat := (14, 10)
abbrev F.HBM_CFG_RETRAIN_MS : Nat × Nat := (24, 16)
abbrev F.HBM_CFG_PATROL_H : Nat × Nat := (40, 8)
/-- `HBMs_STAT` (15_memory_chain_sconce.md). -/
abbrev R.HBM_STAT (i : Nat) : Nat := 0x600010 + i * 0x10000
abbrev F.HBM_STAT_STATE : Nat × Nat := (0, 3)
abbrev F.HBM_STAT_RATE_USED : Nat × Nat := (3, 2)
abbrev F.HBM_STAT_HOT : Nat × Nat := (5, 1)
abbrev F.HBM_STAT_TEMP : Nat × Nat := (6, 8)
/-- `HBMs_ERR` (15_memory_chain_sconce.md). -/
abbrev R.HBM_ERR (i : Nat) : Nat := 0x600018 + i * 0x10000
abbrev F.HBM_ERR_BADCFG : Nat × Nat := (0, 1)
abbrev F.HBM_ERR_CE : Nat × Nat := (1, 1)
abbrev F.HBM_ERR_UE : Nat × Nat := (2, 1)
abbrev F.HBM_ERR_POOL_FULL : Nat × Nat := (3, 1)
abbrev F.HBM_ERR_REMAP : Nat × Nat := (4, 1)
abbrev F.HBM_ERR_TRAIN_FAIL : Nat × Nat := (5, 1)
abbrev F.HBM_ERR_OVERTEMP : Nat × Nat := (6, 1)
abbrev F.HBM_ERR_RATE_DOWN : Nat × Nat := (7, 1)
/-- `HBMs_LASTCE` (15_memory_chain_sconce.md). -/
abbrev R.HBM_LASTCE (i : Nat) : Nat := 0x600020 + i * 0x10000
abbrev F.HBM_LASTCE_ADDR : Nat × Nat := (0, 40)
abbrev F.HBM_LASTCE_CH : Nat × Nat := (40, 4)
abbrev F.HBM_LASTCE_PC : Nat × Nat := (44, 1)
abbrev F.HBM_LASTCE_DQ : Nat × Nat := (45, 6)
/-- `HBMs_LASTUE` (15_memory_chain_sconce.md). -/
abbrev R.HBM_LASTUE (i : Nat) : Nat := 0x600028 + i * 0x10000
abbrev F.HBM_LASTUE_ADDR : Nat × Nat := (0, 40)
abbrev F.HBM_LASTUE_CH : Nat × Nat := (40, 4)
abbrev F.HBM_LASTUE_PC : Nat × Nat := (44, 1)
abbrev F.HBM_LASTUE_SOURCE : Nat × Nat := (45, 3)
/-- `HBMs_TRN_CTL` (15_memory_chain_sconce.md). -/
abbrev R.HBM_TRN_CTL (i : Nat) : Nat := 0x600040 + i * 0x10000
abbrev F.HBM_TRN_CTL_CH : Nat × Nat := (0, 4)
abbrev F.HBM_TRN_CTL_PC : Nat × Nat := (4, 1)
abbrev F.HBM_TRN_CTL_MODE : Nat × Nat := (5, 2)
abbrev F.HBM_TRN_CTL_PAT : Nat × Nat := (7, 3)
abbrev F.HBM_TRN_CTL_GO : Nat × Nat := (10, 1)
abbrev F.HBM_TRN_CTL_BUSY : Nat × Nat := (11, 1)
abbrev F.HBM_TRN_CTL_CNT_DQ : Nat × Nat := (12, 6)
abbrev F.HBM_TRN_CTL_BEATS : Nat × Nat := (32, 32)
/-- `HBMs_TRN_DLY` (15_memory_chain_sconce.md). -/
abbrev R.HBM_TRN_DLY (i : Nat) : Nat := 0x600048 + i * 0x10000
abbrev F.HBM_TRN_DLY_DQ : Nat × Nat := (0, 6)
abbrev F.HBM_TRN_DLY_WDLY : Nat × Nat := (6, 7)
abbrev F.HBM_TRN_DLY_RDLY : Nat × Nat := (13, 7)
abbrev F.HBM_TRN_DLY_VREF : Nat × Nat := (20, 7)
/-- `HBMs_TRN_ERR` (15_memory_chain_sconce.md). -/
abbrev R.HBM_TRN_ERR (i : Nat) : Nat := 0x600050 + i * 0x10000
abbrev F.HBM_TRN_ERR_FAIL : Nat × Nat := (0, 36)
/-- `HBMs_TRN_CNT` (15_memory_chain_sconce.md). -/
abbrev R.HBM_TRN_CNT (i : Nat) : Nat := 0x600058 + i * 0x10000
abbrev F.HBM_TRN_CNT_COUNT : Nat × Nat := (0, 64)
/-- `HBMs_TRN_PATk` (15_memory_chain_sconce.md). -/
abbrev R.HBM_TRN_PAT (i j : Nat) : Nat := 0x600060 + i * 0x10000 + j * 0x8
abbrev F.HBM_TRN_PAT_BYTES : Nat × Nat := (0, 64)
/-- `HBMs_RET_SEL` (15_memory_chain_sconce.md). -/
abbrev R.HBM_RET_SEL (i : Nat) : Nat := 0x600080 + i * 0x10000
abbrev F.HBM_RET_SEL_CH : Nat × Nat := (0, 4)
abbrev F.HBM_RET_SEL_INDEX : Nat × Nat := (4, 12)
/-- `HBMs_RET_DATA` (15_memory_chain_sconce.md). -/
abbrev R.HBM_RET_DATA (i : Nat) : Nat := 0x600088 + i * 0x10000
abbrev F.HBM_RET_DATA_FRAME : Nat × Nat := (0, 20)
abbrev F.HBM_RET_DATA_VALID : Nat × Nat := (20, 1)
abbrev F.HBM_RET_DATA_BAD : Nat × Nat := (21, 1)
/-- `HBMs_CHc` (15_memory_chain_sconce.md). -/
abbrev R.HBM_CH (i j : Nat) : Nat := 0x600100 + i * 0x10000 + j * 0x8
abbrev F.HBM_CH_REMAPS0 : Nat × Nat := (0, 2)
abbrev F.HBM_CH_REMAPS1 : Nat × Nat := (2, 2)
abbrev F.HBM_CH_RETIRED : Nat × Nat := (4, 13)
/-- `HBMs_CE_COUNT` (15_memory_chain_sconce.md). -/
abbrev R.HBM_CE_COUNT (i : Nat) : Nat := 0x600200 + i * 0x10000
abbrev F.HBM_CE_COUNT_COUNT : Nat × Nat := (0, 64)
/-- `HBMs_UE_COUNT` (15_memory_chain_sconce.md). -/
abbrev R.HBM_UE_COUNT (i : Nat) : Nat := 0x600208 + i * 0x10000
abbrev F.HBM_UE_COUNT_COUNT : Nat × Nat := (0, 64)
/-- `HBMs_FORWARDS` (15_memory_chain_sconce.md). -/
abbrev R.HBM_FORWARDS (i : Nat) : Nat := 0x600210 + i * 0x10000
abbrev F.HBM_FORWARDS_COUNT : Nat × Nat := (0, 64)
/-- `HBMs_RETIRES` (15_memory_chain_sconce.md). -/
abbrev R.HBM_RETIRES (i : Nat) : Nat := 0x600218 + i * 0x10000
abbrev F.HBM_RETIRES_COUNT : Nat × Nat := (0, 64)
/-- `HBMs_PATROLS` (15_memory_chain_sconce.md). -/
abbrev R.HBM_PATROLS (i : Nat) : Nat := 0x600220 + i * 0x10000
abbrev F.HBM_PATROLS_COUNT : Nat × Nat := (0, 64)
/-- `HBMs_RETRAINS` (15_memory_chain_sconce.md). -/
abbrev R.HBM_RETRAINS (i : Nat) : Nat := 0x600228 + i * 0x10000
abbrev F.HBM_RETRAINS_COUNT : Nat × Nat := (0, 64)

/-- The registers of block HBMs, part 0. -/
def regsHBMs0 : List RegDef := [
  ⟨"HBMs_CTL", 0x600000, [(8, 0x10000)],
   [fld "PATROL_EN" 0 1 .rw 1,
    fld "RETRAIN_EN" 1 1 .rw 1,
    fld "LOCK" 63 1 .w1s 0]⟩,
  ⟨"HBMs_CFG", 0x600008, [(8, 0x10000)],
   [fld "RATE" 0 2 .rwl 0,
    fld "TREFI" 2 12 .rw 3900,
    fld "TRFC" 14 10 .rw 312,
    fld "RETRAIN_MS" 24 16 .rw 100,
    fld "PATROL_H" 40 8 .rw 24]⟩,
  ⟨"HBMs_STAT", 0x600010, [(8, 0x10000)],
   [fld "STATE" 0 3 .ro 0,
    fld "RATE_USED" 3 2 .ro 0,
    fld "HOT" 5 1 .ro 0,
    fld "TEMP" 6 8 .ro 0]⟩,
  ⟨"HBMs_ERR", 0x600018, [(8, 0x10000)],
   [fld "BADCFG" 0 1 .w1c 0,
    fld "CE" 1 1 .w1c 0,
    fld "UE" 2 1 .w1c 0,
    fld "POOL_FULL" 3 1 .w1c 0,
    fld "REMAP" 4 1 .w1c 0,
    fld "TRAIN_FAIL" 5 1 .w1c 0,
    fld "OVERTEMP" 6 1 .w1c 0,
    fld "RATE_DOWN" 7 1 .w1c 0]⟩,
  ⟨"HBMs_LASTCE", 0x600020, [(8, 0x10000)],
   [fld "ADDR" 0 40 .ro 0,
    fld "CH" 40 4 .ro 0,
    fld "PC" 44 1 .ro 0,
    fld "DQ" 45 6 .ro 0]⟩,
  ⟨"HBMs_LASTUE", 0x600028, [(8, 0x10000)],
   [fld "ADDR" 0 40 .ro 0,
    fld "CH" 40 4 .ro 0,
    fld "PC" 44 1 .ro 0,
    fld "SOURCE" 45 3 .ro 0]⟩,
  ⟨"HBMs_TRN_CTL", 0x600040, [(8, 0x10000)],
   [fld "CH" 0 4 .rw 0,
    fld "PC" 4 1 .rw 0,
    fld "MODE" 5 2 .rw 0,
    fld "PAT" 7 3 .rw 0,
    fld "GO" 10 1 .wo 0,
    fld "BUSY" 11 1 .ro 0,
    fld "CNT_DQ" 12 6 .rw 0,
    fld "BEATS" 32 32 .rw 0]⟩,
  ⟨"HBMs_TRN_DLY", 0x600048, [(8, 0x10000)],
   [fld "DQ" 0 6 .rw 0,
    fld "WDLY" 6 7 .rw 0,
    fld "RDLY" 13 7 .rw 0,
    fld "VREF" 20 7 .rw 0]⟩,
  ⟨"HBMs_TRN_ERR", 0x600050, [(8, 0x10000)],
   [fld "FAIL" 0 36 .ro 0]⟩,
  ⟨"HBMs_TRN_CNT", 0x600058, [(8, 0x10000)],
   [fld "COUNT" 0 64 .ro 0]⟩,
  ⟨"HBMs_TRN_PATk", 0x600060, [(8, 0x10000), (4, 0x8)],
   [fld "BYTES" 0 64 .rw 0]⟩,
  ⟨"HBMs_RET_SEL", 0x600080, [(8, 0x10000)],
   [fld "CH" 0 4 .rw 0,
    fld "INDEX" 4 12 .rw 0]⟩]

/-- The registers of block HBMs, part 1. -/
def regsHBMs1 : List RegDef := [
  ⟨"HBMs_RET_DATA", 0x600088, [(8, 0x10000)],
   [fld "FRAME" 0 20 .ro 0,
    fld "VALID" 20 1 .ro 0,
    fld "BAD" 21 1 .ro 0]⟩,
  ⟨"HBMs_CHc", 0x600100, [(8, 0x10000), (16, 0x8)],
   [fld "REMAPS0" 0 2 .ro 0,
    fld "REMAPS1" 2 2 .ro 0,
    fld "RETIRED" 4 13 .ro 0]⟩,
  ⟨"HBMs_CE_COUNT", 0x600200, [(8, 0x10000)],
   [fld "COUNT" 0 64 .ro 0]⟩,
  ⟨"HBMs_UE_COUNT", 0x600208, [(8, 0x10000)],
   [fld "COUNT" 0 64 .ro 0]⟩,
  ⟨"HBMs_FORWARDS", 0x600210, [(8, 0x10000)],
   [fld "COUNT" 0 64 .ro 0]⟩,
  ⟨"HBMs_RETIRES", 0x600218, [(8, 0x10000)],
   [fld "COUNT" 0 64 .ro 0]⟩,
  ⟨"HBMs_PATROLS", 0x600220, [(8, 0x10000)],
   [fld "COUNT" 0 64 .ro 0]⟩,
  ⟨"HBMs_RETRAINS", 0x600228, [(8, 0x10000)],
   [fld "COUNT" 0 64 .ro 0]⟩]

/-- Every register of block HBMs. -/
def regsHBMs : List RegDef := regsHBMs0 ++ regsHBMs1

/-! ### Block CHN -/

/-- `CHN_CTL` (15_memory_chain_sconce.md). -/
abbrev R.CHN_CTL : Nat := 0x800000
abbrev F.CHN_CTL_EN : Nat × Nat := (0, 1)
/-- `CHN_ERR` (15_memory_chain_sconce.md). -/
abbrev R.CHN_ERR : Nat := 0x800010
abbrev F.CHN_ERR_BADCFG : Nat × Nat := (0, 1)
abbrev F.CHN_ERR_SHADOW_BUSY : Nat × Nat := (1, 1)
/-- `CHN_IRQ` (15_memory_chain_sconce.md). -/
abbrev R.CHN_IRQ : Nat := 0x800018
abbrev F.CHN_IRQ_IRQ : Nat × Nat := (0, 64)
/-- `CHN_CCTLc` (15_memory_chain_sconce.md). -/
abbrev R.CHN_CCTL (i : Nat) : Nat := 0x801000 + i * 0x100
abbrev F.CHN_CCTL_GO : Nat × Nat := (0, 1)
abbrev F.CHN_CCTL_ABORT : Nat × Nat := (1, 1)
abbrev F.CHN_CCTL_CLEAR : Nat × Nat := (2, 1)
/-- `CHN_CSTATc` (15_memory_chain_sconce.md). -/
abbrev R.CHN_CSTAT (i : Nat) : Nat := 0x801008 + i * 0x100
abbrev F.CHN_CSTAT_STATE : Nat × Nat := (0, 2)
abbrev F.CHN_CSTAT_ARMED : Nat × Nat := (2, 1)
abbrev F.CHN_CSTAT_LAST : Nat × Nat := (3, 3)
abbrev F.CHN_CSTAT_CHAINED : Nat × Nat := (6, 1)
/-- `CHN_RESIDUEc` (15_memory_chain_sconce.md). -/
abbrev R.CHN_RESIDUE (i : Nat) : Nat := 0x801010 + i * 0x100
abbrev F.CHN_RESIDUE_BYTES : Nat × Nat := (0, 64)
/-- `CHN_POS0c` (15_memory_chain_sconce.md). -/
abbrev R.CHN_POS0 (i : Nat) : Nat := 0x801018 + i * 0x100
abbrev F.CHN_POS0_I0 : Nat × Nat := (0, 32)
abbrev F.CHN_POS0_I1 : Nat × Nat := (32, 32)
/-- `CHN_POS1c` (15_memory_chain_sconce.md). -/
abbrev R.CHN_POS1 (i : Nat) : Nat := 0x801020 + i * 0x100
abbrev F.CHN_POS1_I2 : Nat × Nat := (0, 32)
abbrev F.CHN_POS1_OFFSET : Nat × Nat := (32, 13)
/-- `CHN_FAILADDRc` (15_memory_chain_sconce.md). -/
abbrev R.CHN_FAILADDR (i : Nat) : Nat := 0x801028 + i * 0x100
abbrev F.CHN_FAILADDR_ADDR : Nat × Nat := (0, 64)
/-- `CHN_FAILDIRc` (15_memory_chain_sconce.md). -/
abbrev R.CHN_FAILDIR (i : Nat) : Nat := 0x801030 + i * 0x100
abbrev F.CHN_FAILDIR_DIR : Nat × Nat := (0, 2)
abbrev F.CHN_FAILDIR_CAUSE : Nat × Nat := (2, 3)
abbrev F.CHN_FAILDIR_SPACE : Nat × Nat := (5, 1)
/-- `CHN_Dj_c` (15_memory_chain_sconce.md). -/
abbrev R.CHN_D (i j : Nat) : Nat := 0x801040 + i * 0x100 + j * 0x8
abbrev F.CHN_D_WORD : Nat × Nat := (0, 64)
/-- `CHN_Aj_c` (15_memory_chain_sconce.md). -/
abbrev R.CHN_A (i j : Nat) : Nat := 0x801080 + i * 0x100 + j * 0x8
abbrev F.CHN_A_WORD : Nat × Nat := (0, 64)

/-- The registers of block CHN, part 0. -/
def regsCHN0 : List RegDef := [
  ⟨"CHN_CTL", 0x800000, [],
   [fld "EN" 0 1 .rw 1]⟩,
  ⟨"CHN_ERR", 0x800010, [],
   [fld "BADCFG" 0 1 .w1c 0,
    fld "SHADOW_BUSY" 1 1 .w1c 0]⟩,
  ⟨"CHN_IRQ", 0x800018, [],
   [fld "IRQ" 0 64 .w1c 0]⟩,
  ⟨"CHN_CCTLc", 0x801000, [(64, 0x100)],
   [fld "GO" 0 1 .wo 0,
    fld "ABORT" 1 1 .wo 0,
    fld "CLEAR" 2 1 .wo 0]⟩,
  ⟨"CHN_CSTATc", 0x801008, [(64, 0x100)],
   [fld "STATE" 0 2 .ro 0,
    fld "ARMED" 2 1 .ro 0,
    fld "LAST" 3 3 .ro 0,
    fld "CHAINED" 6 1 .ro 0]⟩,
  ⟨"CHN_RESIDUEc", 0x801010, [(64, 0x100)],
   [fld "BYTES" 0 64 .ro 0]⟩,
  ⟨"CHN_POS0c", 0x801018, [(64, 0x100)],
   [fld "I0" 0 32 .ro 0,
    fld "I1" 32 32 .ro 0]⟩,
  ⟨"CHN_POS1c", 0x801020, [(64, 0x100)],
   [fld "I2" 0 32 .ro 0,
    fld "OFFSET" 32 13 .ro 0]⟩,
  ⟨"CHN_FAILADDRc", 0x801028, [(64, 0x100)],
   [fld "ADDR" 0 64 .ro 0]⟩,
  ⟨"CHN_FAILDIRc", 0x801030, [(64, 0x100)],
   [fld "DIR" 0 2 .ro 0,
    fld "CAUSE" 2 3 .ro 0,
    fld "SPACE" 5 1 .ro 0]⟩,
  ⟨"CHN_Dj_c", 0x801040, [(64, 0x100), (8, 0x8)],
   [fld "WORD" 0 64 .rw 0]⟩,
  ⟨"CHN_Aj_c", 0x801080, [(64, 0x100), (8, 0x8)],
   [fld "WORD" 0 64 .ro 0]⟩]

/-- Every register of block CHN. -/
def regsCHN : List RegDef := regsCHN0

/-! ### Block CRK -/

/-- `CRK_CTL` (16_crankset.md). -/
abbrev R.CRK_CTL : Nat := 0xF00000
abbrev F.CRK_CTL_REJOIN : Nat × Nat := (0, 1)
abbrev F.CRK_CTL_LOCK : Nat × Nat := (63, 1)
/-- `CRK_CFG` (16_crankset.md). -/
abbrev R.CRK_CFG : Nat := 0xF00008
abbrev F.CRK_CFG_DETECT : Nat × Nat := (0, 1)
abbrev F.CRK_CFG_ARB_SRC : Nat × Nat := (1, 1)
/-- `CRK_ARB` (16_crankset.md). -/
abbrev R.CRK_ARB : Nat := 0xF00010
abbrev F.CRK_ARB_GRANT_A : Nat × Nat := (0, 1)
abbrev F.CRK_ARB_GRANT_B : Nat × Nat := (1, 1)
/-- `CRK_STAT` (16_crankset.md). -/
abbrev R.CRK_STAT : Nat := 0xF00018
abbrev F.CRK_STAT_ROLE_A : Nat × Nat := (0, 2)
abbrev F.CRK_STAT_ROLE_B : Nat × Nat := (2, 2)
abbrev F.CRK_STAT_GAP : Nat × Nat := (4, 1)
abbrev F.CRK_STAT_SYNCED : Nat × Nat := (5, 1)
abbrev F.CRK_STAT_FW_STAGED : Nat × Nat := (6, 1)
abbrev F.CRK_STAT_FW_ACTIVATING : Nat × Nat := (7, 1)
abbrev F.CRK_STAT_PIN_GRANT_A : Nat × Nat := (8, 1)
abbrev F.CRK_STAT_PIN_GRANT_B : Nat × Nat := (9, 1)
/-- `CRK_ERR` (16_crankset.md). -/
abbrev R.CRK_ERR : Nat := 0xF00020
abbrev F.CRK_ERR_COPY_PATH : Nat × Nat := (0, 1)
abbrev F.CRK_ERR_WIRE_PATH : Nat × Nat := (1, 1)
abbrev F.CRK_ERR_SEAT_FAIL : Nat × Nat := (2, 1)
abbrev F.CRK_ERR_NO_STOKER : Nat × Nat := (3, 1)
abbrev F.CRK_ERR_FW_FAIL : Nat × Nat := (4, 1)
abbrev F.CRK_ERR_FENCED : Nat × Nat := (5, 1)
/-- `CRK_CLAIM` (16_crankset.md). -/
abbrev R.CRK_CLAIM : Nat := 0xF00028
abbrev F.CRK_CLAIM_CLAIM_A : Nat × Nat := (0, 32)
abbrev F.CRK_CLAIM_CLAIM_B : Nat × Nat := (32, 32)
/-- `CRK_AUTH` (16_crankset.md). -/
abbrev R.CRK_AUTH : Nat := 0xF00030
abbrev F.CRK_AUTH_AUTH : Nat × Nat := (0, 32)
/-- `CRK_STROKE` (16_crankset.md). -/
abbrev R.CRK_STROKE : Nat := 0xF00038
abbrev F.CRK_STROKE_RELEASED : Nat × Nat := (0, 64)
/-- `CRK_GAP` (16_crankset.md). -/
abbrev R.CRK_GAP : Nat := 0xF00040
abbrev F.CRK_GAP_LAST : Nat × Nat := (0, 16)
abbrev F.CRK_GAP_MAX : Nat × Nat := (16, 16)
/-- `CRK_TAKEOVERS` (16_crankset.md). -/
abbrev R.CRK_TAKEOVERS : Nat := 0xF00080
abbrev F.CRK_TAKEOVERS_COUNT : Nat × Nat := (0, 64)
/-- `CRK_FENCED` (16_crankset.md). -/
abbrev R.CRK_FENCED : Nat := 0xF00088
abbrev F.CRK_FENCED_COUNT : Nat × Nat := (0, 64)
/-- `CRK_PATH_LOSSES` (16_crankset.md). -/
abbrev R.CRK_PATH_LOSSES : Nat := 0xF00090
abbrev F.CRK_PATH_LOSSES_COUNT : Nat × Nat := (0, 64)
/-- `CRK_REJOINS` (16_crankset.md). -/
abbrev R.CRK_REJOINS : Nat := 0xF00098
abbrev F.CRK_REJOINS_COUNT : Nat × Nat := (0, 64)
/-- `CRK_LATCHED` (16_crankset.md). -/
abbrev R.CRK_LATCHED : Nat := 0xF000A0
abbrev F.CRK_LATCHED_COUNT : Nat × Nat := (0, 64)

/-- The registers of block CRK, part 0. -/
def regsCRK0 : List RegDef := [
  ⟨"CRK_CTL", 0xF00000, [],
   [fld "REJOIN" 0 1 .wo 0,
    fld "LOCK" 63 1 .w1s 0]⟩,
  ⟨"CRK_CFG", 0xF00008, [],
   [fld "DETECT" 0 1 .rwl 0,
    fld "ARB_SRC" 1 1 .rwl 0]⟩,
  ⟨"CRK_ARB", 0xF00010, [],
   [fld "GRANT_A" 0 1 .rw 0,
    fld "GRANT_B" 1 1 .rw 0]⟩,
  ⟨"CRK_STAT", 0xF00018, [],
   [fld "ROLE_A" 0 2 .ro 0,
    fld "ROLE_B" 2 2 .ro 0,
    fld "GAP" 4 1 .ro 0,
    fld "SYNCED" 5 1 .ro 0,
    fld "FW_STAGED" 6 1 .ro 0,
    fld "FW_ACTIVATING" 7 1 .ro 0,
    fld "PIN_GRANT_A" 8 1 .ro 0,
    fld "PIN_GRANT_B" 9 1 .ro 0]⟩,
  ⟨"CRK_ERR", 0xF00020, [],
   [fld "COPY_PATH" 0 1 .w1c 0,
    fld "WIRE_PATH" 1 1 .w1c 0,
    fld "SEAT_FAIL" 2 1 .w1c 0,
    fld "NO_STOKER" 3 1 .w1c 0,
    fld "FW_FAIL" 4 1 .w1c 0,
    fld "FENCED" 5 1 .w1c 0]⟩,
  ⟨"CRK_CLAIM", 0xF00028, [],
   [fld "CLAIM_A" 0 32 .ro 1,
    fld "CLAIM_B" 32 32 .ro 0]⟩,
  ⟨"CRK_AUTH", 0xF00030, [],
   [fld "AUTH" 0 32 .ro 1]⟩,
  ⟨"CRK_STROKE", 0xF00038, [],
   [fld "RELEASED" 0 64 .ro 0]⟩,
  ⟨"CRK_GAP", 0xF00040, [],
   [fld "LAST" 0 16 .ro 0,
    fld "MAX" 16 16 .ro 0]⟩,
  ⟨"CRK_TAKEOVERS", 0xF00080, [],
   [fld "COUNT" 0 64 .ro 0]⟩,
  ⟨"CRK_FENCED", 0xF00088, [],
   [fld "COUNT" 0 64 .ro 0]⟩,
  ⟨"CRK_PATH_LOSSES", 0xF00090, [],
   [fld "COUNT" 0 64 .ro 0]⟩]

/-- The registers of block CRK, part 1. -/
def regsCRK1 : List RegDef := [
  ⟨"CRK_REJOINS", 0xF00098, [],
   [fld "COUNT" 0 64 .ro 0]⟩,
  ⟨"CRK_LATCHED", 0xF000A0, [],
   [fld "COUNT" 0 64 .ro 0]⟩]

/-- Every register of block CRK. -/
def regsCRK : List RegDef := regsCRK0 ++ regsCRK1

/-! ### Block SWX -/

/-- `SWX_CTL` (17_sealwax_trust.md). -/
abbrev R.SWX_CTL : Nat := 0x1000000
abbrev F.SWX_CTL_EN : Nat × Nat := (0, 1)
/-- `SWX_STAT` (17_sealwax_trust.md). -/
abbrev R.SWX_STAT : Nat := 0x1000008
abbrev F.SWX_STAT_ACTIVE : Nat × Nat := (0, 1)
abbrev F.SWX_STAT_CTX_BUSY : Nat × Nat := (1, 8)
abbrev F.SWX_STAT_OPENING : Nat × Nat := (9, 1)
abbrev F.SWX_STAT_MESSAGES : Nat × Nat := (10, 13)
/-- `SWX_ERR` (17_sealwax_trust.md). -/
abbrev R.SWX_ERR : Nat := 0x1000010
abbrev F.SWX_ERR_DPATH : Nat × Nat := (0, 1)
abbrev F.SWX_ERR_EXHAUSTED : Nat × Nat := (1, 1)
abbrev F.SWX_ERR_FUSE : Nat × Nat := (2, 1)
abbrev F.SWX_ERR_WRAP : Nat × Nat := (3, 1)
abbrev F.SWX_ERR_VERIFY : Nat × Nat := (4, 1)
abbrev F.SWX_ERR_STATE_UE : Nat × Nat := (5, 1)
/-- `SWX_ATT` (17_sealwax_trust.md). -/
abbrev R.SWX_ATT : Nat := 0x1000018
abbrev F.SWX_ATT_EPOCH : Nat × Nat := (0, 15)
abbrev F.SWX_ATT_EPOCH_VALID : Nat × Nat := (15, 1)
abbrev F.SWX_ATT_LEAF : Nat × Nat := (16, 11)
abbrev F.SWX_ATT_EPOCHS_LEFT : Nat × Nat := (32, 16)
abbrev F.SWX_ATT_SLACK : Nat × Nat := (48, 9)
/-- `SWX_POLICY` (17_sealwax_trust.md). -/
abbrev R.SWX_POLICY : Nat := 0x1000020
abbrev F.SWX_POLICY_POLICY : Nat × Nat := (0, 3)
/-- `SWX_BLOCKS` (17_sealwax_trust.md). -/
abbrev R.SWX_BLOCKS : Nat := 0x1000080
abbrev F.SWX_BLOCKS_COUNT : Nat × Nat := (0, 64)
/-- `SWX_EXPORTS` (17_sealwax_trust.md). -/
abbrev R.SWX_EXPORTS : Nat := 0x1000088
abbrev F.SWX_EXPORTS_COUNT : Nat × Nat := (0, 64)
/-- `SWX_IMPORTS` (17_sealwax_trust.md). -/
abbrev R.SWX_IMPORTS : Nat := 0x1000090
abbrev F.SWX_IMPORTS_COUNT : Nat × Nat := (0, 64)
/-- `SWX_WRAP_FAILS` (17_sealwax_trust.md). -/
abbrev R.SWX_WRAP_FAILS : Nat := 0x1000098
abbrev F.SWX_WRAP_FAILS_COUNT : Nat × Nat := (0, 64)
/-- `SWX_ATTESTS` (17_sealwax_trust.md). -/
abbrev R.SWX_ATTESTS : Nat := 0x10000A0
abbrev F.SWX_ATTESTS_COUNT : Nat × Nat := (0, 64)
/-- `SWX_BUSY` (17_sealwax_trust.md). -/
abbrev R.SWX_BUSY : Nat := 0x10000A8
abbrev F.SWX_BUSY_COUNT : Nat × Nat := (0, 64)
/-- `SWX_TREES` (17_sealwax_trust.md). -/
abbrev R.SWX_TREES : Nat := 0x10000B0
abbrev F.SWX_TREES_COUNT : Nat × Nat := (0, 64)
/-- `SWX_SLOTk` (17_sealwax_trust.md). -/
abbrev R.SWX_SLOT (i : Nat) : Nat := 0x1000100 + i * 0x8
abbrev F.SWX_SLOT_FULL : Nat × Nat := (0, 1)
abbrev F.SWX_SLOT_KEY_LEN : Nat × Nat := (1, 7)
abbrev F.SWX_SLOT_USE : Nat × Nat := (8, 11)
abbrev F.SWX_SLOT_LOADS : Nat × Nat := (32, 32)
/-- `SWX_CTXn` (17_sealwax_trust.md). -/
abbrev R.SWX_CTX (i : Nat) : Nat := 0x1000200 + i * 0x8
abbrev F.SWX_CTX_STATE : Nat × Nat := (0, 2)
abbrev F.SWX_CTX_INSTANCE : Nat × Nat := (2, 11)
abbrev F.SWX_CTX_CONTEXT : Nat × Nat := (16, 16)
abbrev F.SWX_CTX_GENERATION : Nat × Nat := (32, 16)
abbrev F.SWX_CTX_KEYED : Nat × Nat := (48, 1)
abbrev F.SWX_CTX_SAVE : Nat × Nat := (49, 1)

/-- The registers of block SWX, part 0. -/
def regsSWX0 : List RegDef := [
  ⟨"SWX_CTL", 0x1000000, [],
   [fld "EN" 0 1 .rw 1]⟩,
  ⟨"SWX_STAT", 0x1000008, [],
   [fld "ACTIVE" 0 1 .ro 0,
    fld "CTX_BUSY" 1 8 .ro 0,
    fld "OPENING" 9 1 .ro 0,
    fld "MESSAGES" 10 13 .ro 0]⟩,
  ⟨"SWX_ERR", 0x1000010, [],
   [fld "DPATH" 0 1 .w1c 0,
    fld "EXHAUSTED" 1 1 .w1c 0,
    fld "FUSE" 2 1 .w1c 0,
    fld "WRAP" 3 1 .w1c 0,
    fld "VERIFY" 4 1 .w1c 0,
    fld "STATE_UE" 5 1 .w1c 0]⟩,
  ⟨"SWX_ATT", 0x1000018, [],
   [fld "EPOCH" 0 15 .ro 0,
    fld "EPOCH_VALID" 15 1 .ro 0,
    fld "LEAF" 16 11 .ro 0,
    fld "EPOCHS_LEFT" 32 16 .ro 0,
    fld "SLACK" 48 9 .ro 0]⟩,
  ⟨"SWX_POLICY", 0x1000020, [],
   [fld "POLICY" 0 3 .ro 0]⟩,
  ⟨"SWX_BLOCKS", 0x1000080, [],
   [fld "COUNT" 0 64 .ro 0]⟩,
  ⟨"SWX_EXPORTS", 0x1000088, [],
   [fld "COUNT" 0 64 .ro 0]⟩,
  ⟨"SWX_IMPORTS", 0x1000090, [],
   [fld "COUNT" 0 64 .ro 0]⟩,
  ⟨"SWX_WRAP_FAILS", 0x1000098, [],
   [fld "COUNT" 0 64 .ro 0]⟩,
  ⟨"SWX_ATTESTS", 0x10000A0, [],
   [fld "COUNT" 0 64 .ro 0]⟩,
  ⟨"SWX_BUSY", 0x10000A8, [],
   [fld "COUNT" 0 64 .ro 0]⟩,
  ⟨"SWX_TREES", 0x10000B0, [],
   [fld "COUNT" 0 64 .ro 0]⟩]

/-- The registers of block SWX, part 1. -/
def regsSWX1 : List RegDef := [
  ⟨"SWX_SLOTk", 0x1000100, [(32, 0x8)],
   [fld "FULL" 0 1 .ro 0,
    fld "KEY_LEN" 1 7 .ro 0,
    fld "USE" 8 11 .ro 0,
    fld "LOADS" 32 32 .ro 0]⟩,
  ⟨"SWX_CTXn", 0x1000200, [(8, 0x8)],
   [fld "STATE" 0 2 .ro 0,
    fld "INSTANCE" 2 11 .ro 0,
    fld "CONTEXT" 16 16 .ro 0,
    fld "GENERATION" 32 16 .ro 0,
    fld "KEYED" 48 1 .ro 0,
    fld "SAVE" 49 1 .ro 0]⟩]

/-- Every register of block SWX. -/
def regsSWX : List RegDef := regsSWX0 ++ regsSWX1

/-! ### Block RAS -/

/-- `RAS_CTL` (18_wear_repair_snuffer.md). -/
abbrev R.RAS_CTL : Nat := 0x1200000
abbrev F.RAS_CTL_AUTO_EN : Nat × Nat := (0, 1)
abbrev F.RAS_CTL_LOCK : Nat × Nat := (63, 1)
/-- `RAS_STAT` (18_wear_repair_snuffer.md). -/
abbrev R.RAS_STAT : Nat := 0x1200008
abbrev F.RAS_STAT_DEGRADED : Nat × Nat := (0, 1)
abbrev F.RAS_STAT_QSPARE_USED : Nat × Nat := (1, 4)
abbrev F.RAS_STAT_SWX_SPARE : Nat × Nat := (5, 1)
abbrev F.RAS_STAT_HALTED : Nat × Nat := (6, 1)
/-- `RAS_ERR` (18_wear_repair_snuffer.md). -/
abbrev R.RAS_ERR : Nat := 0x1200010
abbrev F.RAS_ERR_BADCFG : Nat × Nat := (0, 1)
abbrev F.RAS_ERR_SOOT_OVER : Nat × Nat := (1, 1)
abbrev F.RAS_ERR_NO_SPARE : Nat × Nat := (2, 1)
/-- `RAS_TH` (18_wear_repair_snuffer.md). -/
abbrev R.RAS_TH : Nat := 0x1200018
abbrev F.RAS_TH_SOOT : Nat × Nat := (0, 11)
abbrev F.RAS_TH_CORE_CE : Nat × Nat := (16, 8)
abbrev F.RAS_TH_FRAME_CE : Nat × Nat := (24, 4)
abbrev F.RAS_TH_PPR_FRAMES : Nat × Nat := (28, 4)
abbrev F.RAS_TH_FOLD_CE : Nat × Nat := (32, 8)
/-- `RAS_SOOT_CFG` (18_wear_repair_snuffer.md). -/
abbrev R.RAS_SOOT_CFG : Nat := 0x1200020
abbrev F.RAS_SOOT_CFG_PERIOD : Nat × Nat := (0, 16)
/-- `RAS_LOG_NEXT` (18_wear_repair_snuffer.md). -/
abbrev R.RAS_LOG_NEXT : Nat := 0x1200028
abbrev F.RAS_LOG_NEXT_SEQ : Nat × Nat := (0, 64)
/-- `RAS_LOG_WRAPS` (18_wear_repair_snuffer.md). -/
abbrev R.RAS_LOG_WRAPS : Nat := 0x1200030
abbrev F.RAS_LOG_WRAPS_COUNT : Nat × Nat := (0, 64)
/-- `RAS_CE_SUPPRESSED` (18_wear_repair_snuffer.md). -/
abbrev R.RAS_CE_SUPPRESSED : Nat := 0x1200038
abbrev F.RAS_CE_SUPPRESSED_COUNT : Nat × Nat := (0, 64)
/-- `RAS_REPAIRS` (18_wear_repair_snuffer.md). -/
abbrev R.RAS_REPAIRS : Nat := 0x1200040
abbrev F.RAS_REPAIRS_COUNT : Nat × Nat := (0, 64)
/-- `RAS_LOG_SEL` (18_wear_repair_snuffer.md). -/
abbrev R.RAS_LOG_SEL : Nat := 0x1200048
abbrev F.RAS_LOG_SEL_SEQ : Nat × Nat := (0, 64)
/-- `RAS_LOG_DATAj` (18_wear_repair_snuffer.md). -/
abbrev R.RAS_LOG_DATA (i : Nat) : Nat := 0x1200080 + i * 0x8
abbrev F.RAS_LOG_DATA_WORD : Nat × Nat := (0, 64)
/-- `RAS_SOOTk` (18_wear_repair_snuffer.md). -/
abbrev R.RAS_SOOT (i : Nat) : Nat := 0x1210000 + i * 0x8
abbrev F.RAS_SOOT_BASELINE : Nat × Nat := (0, 20)
abbrev F.RAS_SOOT_USER : Nat × Nat := (20, 12)
abbrev F.RAS_SOOT_MEASURED : Nat × Nat := (32, 20)
abbrev F.RAS_SOOT_DEGRADE : Nat × Nat := (52, 11)
abbrev F.RAS_SOOT_OVER : Nat × Nat := (63, 1)

/-- The registers of block RAS, part 0. -/
def regsRAS0 : List RegDef := [
  ⟨"RAS_CTL", 0x1200000, [],
   [fld "AUTO_EN" 0 1 .rw 1,
    fld "LOCK" 63 1 .w1s 0]⟩,
  ⟨"RAS_STAT", 0x1200008, [],
   [fld "DEGRADED" 0 1 .ro 0,
    fld "QSPARE_USED" 1 4 .ro 0,
    fld "SWX_SPARE" 5 1 .ro 0,
    fld "HALTED" 6 1 .ro 0]⟩,
  ⟨"RAS_ERR", 0x1200010, [],
   [fld "BADCFG" 0 1 .w1c 0,
    fld "SOOT_OVER" 1 1 .w1c 0,
    fld "NO_SPARE" 2 1 .w1c 0]⟩,
  ⟨"RAS_TH", 0x1200018, [],
   [fld "SOOT" 0 11 .rw 800,
    fld "CORE_CE" 16 8 .rw 16,
    fld "FRAME_CE" 24 4 .rw 2,
    fld "PPR_FRAMES" 28 4 .rw 2,
    fld "FOLD_CE" 32 8 .rw 16]⟩,
  ⟨"RAS_SOOT_CFG", 0x1200020, [],
   [fld "PERIOD" 0 16 .rw 60]⟩,
  ⟨"RAS_LOG_NEXT", 0x1200028, [],
   [fld "SEQ" 0 64 .ro 0]⟩,
  ⟨"RAS_LOG_WRAPS", 0x1200030, [],
   [fld "COUNT" 0 64 .ro 0]⟩,
  ⟨"RAS_CE_SUPPRESSED", 0x1200038, [],
   [fld "COUNT" 0 64 .ro 0]⟩,
  ⟨"RAS_REPAIRS", 0x1200040, [],
   [fld "COUNT" 0 64 .ro 0]⟩,
  ⟨"RAS_LOG_SEL", 0x1200048, [],
   [fld "SEQ" 0 64 .rw 0]⟩,
  ⟨"RAS_LOG_DATAj", 0x1200080, [(8, 0x8)],
   [fld "WORD" 0 64 .ro 0]⟩,
  ⟨"RAS_SOOTk", 0x1210000, [(1386, 0x8)],
   [fld "BASELINE" 0 20 .ro 0,
    fld "USER" 20 12 .rw 0,
    fld "MEASURED" 32 20 .ro 0,
    fld "DEGRADE" 52 11 .ro 0,
    fld "OVER" 63 1 .ro 0]⟩]

/-- Every register of block RAS. -/
def regsRAS : List RegDef := regsRAS0

/-! ### Block CAL -/

/-- `CAL_CTL` (18_wear_repair_snuffer.md). -/
abbrev R.CAL_CTL : Nat := 0x1100000
abbrev F.CAL_CTL_SAVE : Nat × Nat := (0, 1)
abbrev F.CAL_CTL_LOCK : Nat × Nat := (63, 1)
/-- `CAL_STAT` (18_wear_repair_snuffer.md). -/
abbrev R.CAL_STAT : Nat := 0x1100008
abbrev F.CAL_STAT_PAGE : Nat × Nat := (0, 2)
abbrev F.CAL_STAT_SAVING : Nat × Nat := (2, 1)
abbrev F.CAL_STAT_SEQ : Nat × Nat := (8, 56)
/-- `CAL_ERR` (18_wear_repair_snuffer.md). -/
abbrev R.CAL_ERR : Nat := 0x1100010
abbrev F.CAL_ERR_BADCFG : Nat × Nat := (0, 1)
abbrev F.CAL_ERR_NO_PAGE : Nat × Nat := (1, 1)
abbrev F.CAL_ERR_SAVE_FAIL : Nat × Nat := (2, 1)
abbrev F.CAL_ERR_PAGE_FULL : Nat × Nat := (3, 1)
abbrev F.CAL_ERR_OTP_REFUSED : Nat × Nat := (4, 1)
abbrev F.CAL_ERR_OTP_FAIL : Nat × Nat := (5, 1)
/-- `CAL_OTP_DATAj` (18_wear_repair_snuffer.md). -/
abbrev R.CAL_OTP_DATA (i : Nat) : Nat := 0x1100040 + i * 0x8
abbrev F.CAL_OTP_DATA_DATA : Nat × Nat := (0, 64)
/-- `CAL_OTP_PROG` (18_wear_repair_snuffer.md). -/
abbrev R.CAL_OTP_PROG : Nat := 0x1100060
abbrev F.CAL_OTP_PROG_FIELD : Nat × Nat := (0, 2)
abbrev F.CAL_OTP_PROG_GO : Nat × Nat := (2, 1)
abbrev F.CAL_OTP_PROG_BUSY : Nat × Nat := (3, 1)
/-- `CAL_TSn` (18_wear_repair_snuffer.md). -/
abbrev R.CAL_TS (i : Nat) : Nat := 0x1100100 + i * 0x8
abbrev F.CAL_TS_FACTORY : Nat × Nat := (0, 16)
abbrev F.CAL_TS_USER : Nat × Nat := (16, 16)
abbrev F.CAL_TS_TEMP : Nat × Nat := (32, 16)
/-- `CAL_VMv` (18_wear_repair_snuffer.md). -/
abbrev R.CAL_VM (i : Nat) : Nat := 0x1100400 + i * 0x8
abbrev F.CAL_VM_FACTORY : Nat × Nat := (0, 16)
abbrev F.CAL_VM_USER : Nat × Nat := (16, 16)
abbrev F.CAL_VM_VOLTS : Nat × Nat := (32, 16)
/-- `CAL_SDSp_l` (18_wear_repair_snuffer.md). -/
abbrev R.CAL_SDS (i : Nat) : Nat := 0x1100500 + i * 0x8
abbrev F.CAL_SDS_PRE : Nat × Nat := (0, 6)
abbrev F.CAL_SDS_MAIN : Nat × Nat := (6, 6)
abbrev F.CAL_SDS_POST : Nat × Nat := (12, 6)
abbrev F.CAL_SDS_USER_PRE : Nat × Nat := (18, 4)
abbrev F.CAL_SDS_USER_MAIN : Nat × Nat := (22, 4)
abbrev F.CAL_SDS_USER_POST : Nat × Nat := (26, 4)
/-- `CAL_HBMs` (18_wear_repair_snuffer.md). -/
abbrev R.CAL_HBM (i : Nat) : Nat := 0x1100800 + i * 0x8
abbrev F.CAL_HBM_WDLY : Nat × Nat := (0, 7)
abbrev F.CAL_HBM_RDLY : Nat × Nat := (7, 7)
abbrev F.CAL_HBM_VREF : Nat × Nat := (14, 7)
abbrev F.CAL_HBM_USER_WDLY : Nat × Nat := (21, 6)
abbrev F.CAL_HBM_USER_RDLY : Nat × Nat := (27, 6)
abbrev F.CAL_HBM_USER_VREF : Nat × Nat := (33, 6)

/-- The registers of block CAL, part 0. -/
def regsCAL0 : List RegDef := [
  ⟨"CAL_CTL", 0x1100000, [],
   [fld "SAVE" 0 1 .wo 0,
    fld "LOCK" 63 1 .w1s 0]⟩,
  ⟨"CAL_STAT", 0x1100008, [],
   [fld "PAGE" 0 2 .ro 0,
    fld "SAVING" 2 1 .ro 0,
    fld "SEQ" 8 56 .ro 0]⟩,
  ⟨"CAL_ERR", 0x1100010, [],
   [fld "BADCFG" 0 1 .w1c 0,
    fld "NO_PAGE" 1 1 .w1c 0,
    fld "SAVE_FAIL" 2 1 .w1c 0,
    fld "PAGE_FULL" 3 1 .w1c 0,
    fld "OTP_REFUSED" 4 1 .w1c 0,
    fld "OTP_FAIL" 5 1 .w1c 0]⟩,
  ⟨"CAL_OTP_DATAj", 0x1100040, [(4, 0x8)],
   [fld "DATA" 0 64 .wo 0]⟩,
  ⟨"CAL_OTP_PROG", 0x1100060, [],
   [fld "FIELD" 0 2 .rwl 0,
    fld "GO" 2 1 .wo 0,
    fld "BUSY" 3 1 .ro 0]⟩,
  ⟨"CAL_TSn", 0x1100100, [(64, 0x8)],
   [fld "FACTORY" 0 16 .ro 0,
    fld "USER" 16 16 .rw 0,
    fld "TEMP" 32 16 .ro 0]⟩,
  ⟨"CAL_VMv", 0x1100400, [(16, 0x8)],
   [fld "FACTORY" 0 16 .ro 0,
    fld "USER" 16 16 .rw 0,
    fld "VOLTS" 32 16 .ro 0]⟩,
  ⟨"CAL_SDSp_l", 0x1100500, [(54, 0x8)],
   [fld "PRE" 0 6 .ro 0,
    fld "MAIN" 6 6 .ro 0,
    fld "POST" 12 6 .ro 0,
    fld "USER_PRE" 18 4 .rw 0,
    fld "USER_MAIN" 22 4 .rw 0,
    fld "USER_POST" 26 4 .rw 0]⟩,
  ⟨"CAL_HBMs", 0x1100800, [(8, 0x8)],
   [fld "WDLY" 0 7 .ro 0,
    fld "RDLY" 7 7 .ro 0,
    fld "VREF" 14 7 .ro 0,
    fld "USER_WDLY" 21 6 .rw 0,
    fld "USER_RDLY" 27 6 .rw 0,
    fld "USER_VREF" 33 6 .rw 0]⟩]

/-- Every register of block CAL. -/
def regsCAL : List RegDef := regsCAL0

/-! ### Block DBG -/

/-- `DBG_CTL` (18_wear_repair_snuffer.md). -/
abbrev R.DBG_CTL : Nat := 0x1300000
abbrev F.DBG_CTL_PIN_EN : Nat × Nat := (0, 1)
abbrev F.DBG_CTL_SMB_EN : Nat × Nat := (1, 1)
abbrev F.DBG_CTL_LOCK : Nat × Nat := (63, 1)
/-- `DBG_STAT` (18_wear_repair_snuffer.md). -/
abbrev R.DBG_STAT : Nat := 0x1300008
abbrev F.DBG_STAT_FROZEN : Nat × Nat := (0, 1)
abbrev F.DBG_STAT_CAUSE : Nat × Nat := (1, 2)
abbrev F.DBG_STAT_PIN : Nat × Nat := (3, 1)
/-- `DBG_ERR` (18_wear_repair_snuffer.md). -/
abbrev R.DBG_ERR : Nat := 0x1300010
abbrev F.DBG_ERR_HBM_FROZEN : Nat × Nat := (0, 1)
abbrev F.DBG_ERR_RESUME_REFUSED : Nat × Nat := (1, 1)
/-- `DBG_FREEZE_TIME` (18_wear_repair_snuffer.md). -/
abbrev R.DBG_FREEZE_TIME : Nat := 0x1300018
abbrev F.DBG_FREEZE_TIME_RACK_TIME : Nat × Nat := (0, 64)
/-- `DBG_DOMSTOP` (18_wear_repair_snuffer.md). -/
abbrev R.DBG_DOMSTOP : Nat := 0x1300020
abbrev F.DBG_DOMSTOP_STOPPED : Nat × Nat := (0, 60)
/-- `DBG_WICKSEL` (18_wear_repair_snuffer.md). -/
abbrev R.DBG_WICKSEL : Nat := 0x1300028
abbrev F.DBG_WICKSEL_LANTERN : Nat × Nat := (0, 7)
abbrev F.DBG_WICKSEL_WICK : Nat × Nat := (7, 5)
/-- `DBG_WICKCTL` (18_wear_repair_snuffer.md). -/
abbrev R.DBG_WICKCTL : Nat := 0x1300030
abbrev F.DBG_WICKCTL_RELEASE : Nat × Nat := (0, 1)
abbrev F.DBG_WICKCTL_KILL : Nat × Nat := (1, 1)
/-- `DBG_RCPVALID` (18_wear_repair_snuffer.md). -/
abbrev R.DBG_RCPVALID : Nat := 0x1300038
abbrev F.DBG_RCPVALID_LANTERN : Nat × Nat := (0, 7)
abbrev F.DBG_RCPVALID_SLOTS : Nat × Nat := (7, 16)
abbrev F.DBG_RCPVALID_GO : Nat × Nat := (23, 1)
/-- `DBG_FREEZES` (18_wear_repair_snuffer.md). -/
abbrev R.DBG_FREEZES : Nat := 0x1300040
abbrev F.DBG_FREEZES_COUNT : Nat × Nat := (0, 64)

/-- The registers of block DBG, part 0. -/
def regsDBG0 : List RegDef := [
  ⟨"DBG_CTL", 0x1300000, [],
   [fld "PIN_EN" 0 1 .rwl 1,
    fld "SMB_EN" 1 1 .rwl 1,
    fld "LOCK" 63 1 .w1s 0]⟩,
  ⟨"DBG_STAT", 0x1300008, [],
   [fld "FROZEN" 0 1 .ro 0,
    fld "CAUSE" 1 2 .ro 0,
    fld "PIN" 3 1 .ro 1]⟩,
  ⟨"DBG_ERR", 0x1300010, [],
   [fld "HBM_FROZEN" 0 1 .w1c 0,
    fld "RESUME_REFUSED" 1 1 .w1c 0]⟩,
  ⟨"DBG_FREEZE_TIME", 0x1300018, [],
   [fld "RACK_TIME" 0 64 .ro 0]⟩,
  ⟨"DBG_DOMSTOP", 0x1300020, [],
   [fld "STOPPED" 0 60 .ro 0]⟩,
  ⟨"DBG_WICKSEL", 0x1300028, [],
   [fld "LANTERN" 0 7 .rw 0,
    fld "WICK" 7 5 .rw 0]⟩,
  ⟨"DBG_WICKCTL", 0x1300030, [],
   [fld "RELEASE" 0 1 .wo 0,
    fld "KILL" 1 1 .wo 0]⟩,
  ⟨"DBG_RCPVALID", 0x1300038, [],
   [fld "LANTERN" 0 7 .rw 0,
    fld "SLOTS" 7 16 .rw 0,
    fld "GO" 23 1 .wo 0]⟩,
  ⟨"DBG_FREEZES", 0x1300040, [],
   [fld "COUNT" 0 64 .ro 0]⟩]

/-- Every register of block DBG. -/
def regsDBG : List RegDef := regsDBG0

/-! ### Block TOP -/

/-- `TOP_ID` (19_power_reset_package.md). -/
abbrev R.TOP_ID : Nat := 0x0
abbrev F.TOP_ID_IDCODE : Nat × Nat := (0, 32)
abbrev F.TOP_ID_STEPPING : Nat × Nat := (32, 8)
/-- `TOP_STRAP` (19_power_reset_package.md). -/
abbrev R.TOP_STRAP : Nat := 0x8
abbrev F.TOP_STRAP_BOOT_MODE : Nat × Nat := (0, 3)
abbrev F.TOP_STRAP_TB_REF_SEL : Nat × Nat := (3, 1)
abbrev F.TOP_STRAP_TANDEM_MODE : Nat × Nat := (4, 1)
abbrev F.TOP_STRAP_MGMT_ADDR : Nat × Nat := (5, 2)
/-- `TOP_RESET` (19_power_reset_package.md). -/
abbrev R.TOP_RESET : Nat := 0x10
abbrev F.TOP_RESET_WARM : Nat × Nat := (0, 1)
abbrev F.TOP_RESET_WARM_COUNT : Nat × Nat := (32, 32)
/-- `TOP_BOOT` (19_power_reset_package.md). -/
abbrev R.TOP_BOOT : Nat := 0x18
abbrev F.TOP_BOOT_STAGE : Nat × Nat := (0, 4)
abbrev F.TOP_BOOT_SLOT : Nat × Nat := (4, 1)
abbrev F.TOP_BOOT_FALLBACK : Nat × Nat := (5, 1)
abbrev F.TOP_BOOT_GO : Nat × Nat := (6, 1)
/-- `TOP_ERR` (19_power_reset_package.md). -/
abbrev R.TOP_ERR : Nat := 0x20
abbrev F.TOP_ERR_BADCFG : Nat × Nat := (0, 1)
abbrev F.TOP_ERR_BADSTRAP : Nat × Nat := (1, 1)
abbrev F.TOP_ERR_BOOT_FAIL : Nat × Nat := (2, 1)
abbrev F.TOP_ERR_FLASH : Nat × Nat := (3, 1)
/-- `TOP_ALERT` (19_power_reset_package.md). -/
abbrev R.TOP_ALERT : Nat := 0x28
abbrev F.TOP_ALERT_THERM : Nat × Nat := (0, 1)
abbrev F.TOP_ALERT_VOLT : Nat × Nat := (1, 1)
abbrev F.TOP_ALERT_CRANK : Nat × Nat := (2, 1)
abbrev F.TOP_ALERT_RAS : Nat × Nat := (3, 1)
abbrev F.TOP_ALERT_BOOT : Nat × Nat := (4, 1)
/-- `TOP_ALERTEN` (19_power_reset_package.md). -/
abbrev R.TOP_ALERTEN : Nat := 0x30
abbrev F.TOP_ALERTEN_EN : Nat × Nat := (0, 5)
/-- `TOP_VID` (19_power_reset_package.md). -/
abbrev R.TOP_VID : Nat := 0x38
abbrev F.TOP_VID_CODE : Nat × Nat := (0, 8)
abbrev F.TOP_VID_BOOT : Nat × Nat := (8, 8)
abbrev F.TOP_VID_BUSY : Nat × Nat := (16, 1)
/-- `TOP_THERM` (19_power_reset_package.md). -/
abbrev R.TOP_THERM : Nat := 0x40
abbrev F.TOP_THERM_DIE_ALERT : Nat × Nat := (0, 8)
abbrev F.TOP_THERM_HBM_ALERT : Nat × Nat := (8, 8)
abbrev F.TOP_THERM_DIE_MAX : Nat × Nat := (16, 8)
abbrev F.TOP_THERM_HBM_MAX : Nat × Nat := (24, 8)
/-- `TOP_MGRQ_BASE` (19_power_reset_package.md). -/
abbrev R.TOP_MGRQ_BASE : Nat := 0x48
abbrev F.TOP_MGRQ_BASE_ADDR : Nat × Nat := (0, 64)
/-- `TOP_MGRQ_CFG` (19_power_reset_package.md). -/
abbrev R.TOP_MGRQ_CFG : Nat := 0x50
abbrev F.TOP_MGRQ_CFG_SIZE_LOG2 : Nat × Nat := (0, 5)
abbrev F.TOP_MGRQ_CFG_PORT : Nat × Nat := (5, 3)
abbrev F.TOP_MGRQ_CFG_MIRROR_EN : Nat × Nat := (8, 1)
abbrev F.TOP_MGRQ_CFG_NOTIFY_EN : Nat × Nat := (9, 1)
abbrev F.TOP_MGRQ_CFG_VECTOR : Nat × Nat := (16, 16)
abbrev F.TOP_MGRQ_CFG_VALID : Nat × Nat := (32, 1)
/-- `TOP_MGRQ_MIRROR` (19_power_reset_package.md). -/
abbrev R.TOP_MGRQ_MIRROR : Nat := 0x58
abbrev F.TOP_MGRQ_MIRROR_ADDR : Nat × Nat := (0, 64)
/-- `TOP_PORTCFG` (19_power_reset_package.md). -/
abbrev R.TOP_PORTCFG : Nat := 0x60
abbrev F.TOP_PORTCFG_EN : Nat × Nat := (0, 6)
abbrev F.TOP_PORTCFG_MODE : Nat × Nat := (8, 6)
abbrev F.TOP_PORTCFG_DEVICE_ID : Nat × Nat := (16, 4)
/-- `TOP_CTL` (19_power_reset_package.md). -/
abbrev R.TOP_CTL : Nat := 0x68
abbrev F.TOP_CTL_LOCK : Nat × Nat := (63, 1)
/-- `TOP_SMB_BADPEC` (19_power_reset_package.md). -/
abbrev R.TOP_SMB_BADPEC : Nat := 0x80
abbrev F.TOP_SMB_BADPEC_COUNT : Nat × Nat := (0, 64)

/-- The registers of block TOP, part 0. -/
def regsTOP0 : List RegDef := [
  ⟨"TOP_ID", 0x0, [],
   [fld "IDCODE" 0 32 .ro 0x1b32a0f3,
    fld "STEPPING" 32 8 .ro 161]⟩,
  ⟨"TOP_STRAP", 0x8, [],
   [fld "BOOT_MODE" 0 3 .ro 0,
    fld "TB_REF_SEL" 3 1 .ro 0,
    fld "TANDEM_MODE" 4 1 .ro 0,
    fld "MGMT_ADDR" 5 2 .ro 0]⟩,
  ⟨"TOP_RESET", 0x10, [],
   [fld "WARM" 0 1 .ro 0,
    fld "WARM_COUNT" 32 32 .ro 0]⟩,
  ⟨"TOP_BOOT", 0x18, [],
   [fld "STAGE" 0 4 .ro 0,
    fld "SLOT" 4 1 .ro 0,
    fld "FALLBACK" 5 1 .ro 0,
    fld "GO" 6 1 .wo 0]⟩,
  ⟨"TOP_ERR", 0x20, [],
   [fld "BADCFG" 0 1 .w1c 0,
    fld "BADSTRAP" 1 1 .w1c 0,
    fld "BOOT_FAIL" 2 1 .w1c 0,
    fld "FLASH" 3 1 .w1c 0]⟩,
  ⟨"TOP_ALERT", 0x28, [],
   [fld "THERM" 0 1 .w1c 0,
    fld "VOLT" 1 1 .w1c 0,
    fld "CRANK" 2 1 .w1c 0,
    fld "RAS" 3 1 .w1c 0,
    fld "BOOT" 4 1 .w1c 0]⟩,
  ⟨"TOP_ALERTEN", 0x30, [],
   [fld "EN" 0 5 .rw 31]⟩,
  ⟨"TOP_VID", 0x38, [],
   [fld "CODE" 0 8 .rw 0,
    fld "BOOT" 8 8 .ro 0,
    fld "BUSY" 16 1 .ro 0]⟩,
  ⟨"TOP_THERM", 0x40, [],
   [fld "DIE_ALERT" 0 8 .rw 100,
    fld "HBM_ALERT" 8 8 .rw 95,
    fld "DIE_MAX" 16 8 .ro 0,
    fld "HBM_MAX" 24 8 .ro 0]⟩,
  ⟨"TOP_MGRQ_BASE", 0x48, [],
   [fld "ADDR" 0 64 .rwl 0]⟩,
  ⟨"TOP_MGRQ_CFG", 0x50, [],
   [fld "SIZE_LOG2" 0 5 .rwl 4,
    fld "PORT" 5 3 .rwl 0,
    fld "MIRROR_EN" 8 1 .rwl 0,
    fld "NOTIFY_EN" 9 1 .rwl 0,
    fld "VECTOR" 16 16 .rwl 0,
    fld "VALID" 32 1 .rwl 0]⟩,
  ⟨"TOP_MGRQ_MIRROR", 0x58, [],
   [fld "ADDR" 0 64 .rwl 0]⟩]

/-- The registers of block TOP, part 1. -/
def regsTOP1 : List RegDef := [
  ⟨"TOP_PORTCFG", 0x60, [],
   [fld "EN" 0 6 .rwl 1,
    fld "MODE" 8 6 .rwl 0,
    fld "DEVICE_ID" 16 4 .rwl 0]⟩,
  ⟨"TOP_CTL", 0x68, [],
   [fld "LOCK" 63 1 .w1s 0]⟩,
  ⟨"TOP_SMB_BADPEC", 0x80, [],
   [fld "COUNT" 0 64 .ro 0]⟩]

/-- Every register of block TOP. -/
def regsTOP : List RegDef := regsTOP0 ++ regsTOP1

/-- R851: the registers of the block in whose window an offset lies. -/
def regsOf (off : Nat) : List RegDef :=
  let b := off / 0x10000
  if b < 0x10 then regsTOP
  else if b < 0x20 then regsTB
  else if b < 0x30 then regsDRL
  else if b < 0x40 then regsQM
  else if b < 0x50 then regsINST
  else if b < 0x56 then (if b = 0x50 then regsMLKn ++ regsMLK0 else regsMLKn)
  else if b < 0x60 then []
  else if b < 0x68 then regsHBMs
  else if b < 0x70 then []
  else if b < 0x80 then regsFOLD
  else if b < 0x90 then regsCHN
  else if b < 0xA0 then regsCHDc
  else if b < 0xE4 then regsLANnn
  else if b < 0xF0 then []
  else if b < 0x100 then regsCRK
  else if b < 0x110 then regsSWX
  else if b < 0x120 then regsCAL
  else if b < 0x130 then regsRAS
  else if b < 0x140 then regsDBG
  else if b < 0x150 then regsJNL
  else []

/-- Whether `rel`, an offset relative to an array's first element, is that of an element: the strides are
taken from the widest to the narrowest. -/
def dimsHit : List (Nat × Nat) → Nat → Bool
  | [], rel => rel == 0
  | (n, st) :: ds, rel => decide (rel / st < n) && dimsHit ds (rel % st)

/-- The register at a CSR offset, if one is named there. -/
def regAt (off : Nat) : Option RegDef :=
  (regsOf off).find? fun r => decide (r.base ≤ off) && dimsHit r.dims (off - r.base)

/-- R851: the occupied ranges within a block's window, as first and last byte. -/
def occupied (off : Nat) : Bool :=
  let within (o : Nat) (rs : List (Nat × Nat)) : Bool := rs.any fun r => decide (r.1 ≤ o ∧ o ≤ r.2)
  let b := off / 0x10000
  if b < 0x10 then within off [(0x000, 0x06F), (0x080, 0x087)]
  else if b < 0x20 then within (off - 0x100000) [(0x000, 0x027), (0x028, 0x02F), (0x040, 0x05F)]
  else if b < 0x30 then within (off - 0x200000)
    [(0x000, 0x0B7), (0x1000, 0x1FFF), (0x3000, 0x307F), (0x4000, 0x5FFF), (0x8000, 0xA1FF)]
  else if b < 0x40 then within (off - 0x300000) [(0x000, 0x01F), (0x040, 0x05F), (0x80000, 0xFFFFF)]
  else if b < 0x50 then within (off - 0x400000) [(0x000, 0x047), (0x10000, 0x2003F)]
  else if b < 0x56 then within (off % 0x10000)
    [(0x000, 0x02F), (0x040, 0x0AF), (0x200, 0x28F), (0x800, 0x807), (0x840, 0x8BF), (0x900, 0xAFF)]
  else if b < 0x60 then false
  else if b < 0x68 then within (off % 0x10000) [(0x000, 0x02F), (0x040, 0x08F), (0x100, 0x17F), (0x200, 0x22F)]
  else if b < 0x70 then false
  else if b < 0x80 then within (off - 0x700000)
    [(0x0000, 0x0027), (0x0100, 0x013F), (0x0400, 0x0BFF), (0x1000, 0x31FF)]
  else if b < 0x90 then within (off - 0x800000) [(0x000, 0x007), (0x010, 0x01F), (0x1000, 0x4FFF)]
  else if b < 0xA0 then within ((off - 0x900000) % 0x40000) [(0x0000, 0x0057), (0x0100, 0x054F)]
  else if b < 0xE4 then within (off % 0x10000)
    [(0x0000, 0x0007), (0x1000, 0x107F), (0x4000, 0xFFFF), (0x2000, 0x27FF), (0x2800, 0x29FF), (0x3000, 0x30FF),
     (0x3400, 0x39FF)]
  else if b < 0xF0 then false
  else if b < 0x100 then within (off - 0xF00000) [(0x000, 0x047), (0x080, 0x0A7)]
  else if b < 0x110 then within (off - 0x1000000) [(0x000, 0x027), (0x080, 0x0B7), (0x100, 0x23F)]
  else if b < 0x120 then within (off - 0x1100000)
    [(0x000, 0x017), (0x040, 0x067), (0x100, 0x2FF), (0x400, 0x47F), (0x500, 0x6AF), (0x800, 0x83F)]
  else if b < 0x130 then within (off - 0x1200000) [(0x000, 0x04F), (0x080, 0x0BF), (0x10000, 0x12B4F)]
  else if b < 0x140 then within (off - 0x1300000) [(0x000, 0x047)]
  else if b < 0x150 then within (off - 0x1400000) [(0x000, 0x027), (0x040, 0x07F)]
  else false

/-- R18, R852, R804: the cold-reset value of the fields whose column reads `fuse`, on a part whose repair map records
no repair and whose fused VID code is blank; factory calibration fields hold the part's own values. -/
def fuseReset (off : Nat) : Nat :=
  let b := off / 0x10000
  if 0x70 ≤ b ∧ b < 0x80 then
    let rel := off - 0x700000
    if 0x100 ≤ rel ∧ rel < 0x140 then 31
    else if 0x1000 ≤ rel ∧ rel % 0x40 = 0 then
      let u := ((rel - 0x1000) / 0x40) % 17
      if u = 16 then 31 <<< 9 else 1 ||| (u <<< 9)
    else 0
  else if 0xA0 ≤ b ∧ b < 0xE4 then
    if off % 0x10000 = 0 then
      let n := b - 0xA0
      let p := n % 17
      if p = 16 then 31 <<< 25 else ((n / 17) * 16 + p) ||| (1 <<< 6) ||| (31 <<< 25)
    else 0
  else if off = R.SWX_ATT then (0x8000 <<< 32) ||| (0x100 <<< 48)
  else if off = R.TOP_VID then 0x2828
  else if off = R.TB_OSCTRIM then (Config.factoryFuse off % 2 ^ 20) <<< 20
  else if R.CAL_TS 0 ≤ off ∧ off < R.CAL_SDS 0 then Config.factoryFuse off % 2 ^ 16
  else if R.CAL_SDS 0 ≤ off ∧ off < R.CAL_HBM 0 then Config.factoryFuse off % 2 ^ 18
  else if R.CAL_HBM 0 ≤ off ∧ off < R.CAL_HBM 8 then Config.factoryFuse off % 2 ^ 21
  else if R.RAS_SOOT 0 ≤ off ∧ off < R.RAS_SOOT 1386 then Config.factoryFuse off % 2 ^ 20
  else 0

/-- R18: the value a register holds as cold reset ends. -/
def regReset (off : Nat) : Nat :=
  match regAt off with
  | none => 0
  | some r => (r.flds.foldl (fun acc f => acc + (f.rst <<< f.lo)) 0) + fuseReset off

end Sys2Proof.Machine
end

