-- ==== Sys2Proof/Machine/State.lean ====
section
/-! DEFINITION. The state of the block: every register, ring, table, memory and pin the spec gives the PK2, the queue of
waiting commands, and the reasons a step can stop. Registers that are plain words live in `csr`; the collections of the
spec (queues, instances, contexts, runs, wicks and the rest) are structures, and the registers that show them are
computed from them. -/
namespace Sys2Proof.Machine

/-- A table keyed by a number: pairs in ascending key order. -/
abbrev Tab (α : Type) := List (Nat × α)

/-! ### Time base and Derailleur (11_derailleur_time.md) -/

/-- R485 to R507, R600: the time base. `TB_*` fields that software sees stand in `csr`; this is the rest. -/
structure TimeBase where
  /-- R485: the rack-time counter, ns. -/
  now : Nat := 0
  /-- The model's own: ns advanced through TB cycles since cold reset; no step moves it. Timers run on it. -/
  mono : Nat := 0
  /-- R491: the stamp of the last accepted edge, by the counter. -/
  lastEdge : Option Nat := none
  /-- R493: ns through TB cycles since the last accepted edge, or since cold reset. -/
  sinceEdge : Nat := 0
  /-- R492: the edges discarded since the last whole second of rack time, and that second. -/
  discards : Nat := 0
  discardSec : Nat := 0
  /-- R494: an edge was discarded, or the reference lost, since the last accepted edge. -/
  dirty : Bool := false
  /-- R495: ns through TB cycles the reference has been lost. -/
  lostFor : Nat := 0
  /-- R499: the correction that remains, signed, and the TB cycles since the last corrected one. -/
  slew : Int := 0
  slewCycles : Nat := 0
  /-- R502: the pending `TIME_SET`: its T, its command and the time base's receipt on `mono`. -/
  tset : Option (Nat × Nat × Nat) := none
  /-- R507: ns advanced since the last cog. -/
  cogNs : Nat := 0
  /-- R524: cogs since the load window opened. -/
  winCogs : Nat := 0
  /-- R489, R506: ns through TB cycles since the last 10 µs window and since the last measurement. -/
  refNs : Nat := 0
  oscNs : Nat := 0
  /-- R600: the last boundary closed, and the last whole ms sampled (R602). -/
  boundary : Nat := 0
  lastMs : Nat := 0
  /-- Minutes closed since cold reset (the model's own numbering of them). -/
  minutes : Nat := 0
  /-- R524: completed load windows. -/
  windows : Nat := 0
  /-- R489: a 10 µs window has been judged. -/
  refKnown : Bool := false
  /-- R603: flags of the minute in progress: not LOCKED at some moment; stepped. -/
  degraded : Bool := true
  stepped : Bool := false
deriving DecidableEq, Repr, Inhabited

/-- R510: the states of a task context. -/
inductive TState where
  | free | delayed | ready | running | preempted | ended | passed | committed | discarded
deriving DecidableEq, Repr, Inhabited

/-- R365, R374: a fold request as a task stages it: table list entry, the 64-byte slots of the request. -/
structure FoldReq where
  list : Nat := 0
  body : List Byte := []
deriving DecidableEq, Repr, Inhabited

/-- R510, R511: a task context, with the commit bookkeeping of its run record. -/
structure Ctx where
  taskNo : Nat := 0
  stage : Nat := 0
  epoch : Nat := 0
  slot : Nat := 0
  st : TState := .free
  inst : Nat := 0
  gen : Nat := 0
  prio : Nat := 0
  preempt : Bool := false
  saved : Bool := false
  gated : Bool := false
  pipe : Nat := 0
  morsel : List Byte := []
  run : Nat := 0
  due : Nat := 0
  cycles : Nat := 0
  wick : Nat := 0
  /-- The physical position of the wick of its current or last run. -/
  pos : Nat := 0
  readyCog : Nat := 0
  runCog : Nat := 0
  save : Nat := 0
  /-- R454: the status with which the run failed; 0 while it has not. -/
  failed : Nat := 0
  check : Nat := 0
  failOff : Nat := 0
  /-- R148: the chunks this run read, as ledger keys. -/
  chunks : List Nat := []
  /-- R305: the Chandelier banks this run searched, as 32c + b, with S(b). -/
  banks : List (Nat × Nat) := []
  /-- R655: the devices this run sent flits to: device, flits sent, acknowledged, marker sent. -/
  peers : List (Nat × Nat × Bool × Bool) := []
  /-- R453: emitted bytes, fold requests and sort runs staged by this run. -/
  emit : List Byte := []
  folds : List FoldReq := []
  runs : List Nat := []
  /-- R376: fold requests released and not yet acknowledged. -/
  foldOut : Nat := 0
  /-- R350: the number of its round on its slot, from 1; 0 for none. -/
  round : Nat := 0
deriving DecidableEq, Repr, Inhabited

/-! ### Wicks and the units of a lantern (03 to 05, 07 to 09) -/

/-- R175 to R180, R244, R245: one bound stream port: its ring, pointers, fill counts and pack buffer. -/
structure Port where
  num : Nat := 0
  base : Nat := 0
  len : Nat := 1
  /-- The ring position of the oldest filled slot, and how many are filled. -/
  head : Nat := 0
  filled : Nat := 0
  /-- R245: fill counts of the filled slots of an output ring, oldest first. -/
  counts : List Nat := []
  pack : List Byte := []
  /-- R322, R331: bytes of the record the exchange engine has begun, and bytes of whole records it has read. -/
  carry : List Byte := []
  stream : Nat := 0
deriving DecidableEq, Repr, Inhabited

/-- R193 to R197, R690: a pending far load: destination, device addresses, bytes per access, whether it goes through
the Sconce, issue slots of its shadow left; per access its bytes once sampled; whether the data has arrived. -/
structure FarLoad where
  ea : Nat := 0
  addrs : List Nat := []
  wid : Nat := 32
  hbm : Bool := false
  shadow : Nat := 4
  got : List (Option (List Byte)) := []
  arrived : Bool := false
deriving DecidableEq, Repr, Inhabited

/-- R404, R412, R435: the ladder descriptor of a task, with the lantern's format slot and the run area's place. -/
structure Ladder where
  mode : Nat := 0
  fmt : Nat := 0
  runRecords : Nat := 0
  topn : Nat := 0
  buf : Nat := 0
  area : Nat := 0
  areaSize : Nat := 0
  areaNo : Nat := 0
  runList : List Nat := []
  lo : Option Nat := none
  hi : Option Nat := none
  limit : Nat := 0
  output : Nat := 0
deriving DecidableEq, Repr, Inhabited

/-- R109, R115: a stream of a task's recipe: its `COLUMN` flags, and the region offset and header of the data chunk
and of the validity and dictionary chunks it names. -/
structure JCol where
  stream : Nat := 0
  flags : Nat := 0
  off : Nat := 0
  hdr : List Byte := []
  val : Option (Nat × List Byte) := none
  dict : Option (Nat × List Byte) := none
deriving DecidableEq, Repr, Inhabited

/-- R107 to R112, R158: what the Reservoir is doing for the task of a wick. -/
structure Job where
  /-- The recipe slot bound. -/
  slot : Option Nat := none
  /-- The chunk headers are checked. -/
  ready : Bool := false
  region : Nat := 0
  first : Nat := 0
  count : Nat := 0
  rowBase : Nat := 0
  cols : List JCol := []
  /-- Rows of the morsel decoded. -/
  done : Nat := 0
  /-- R109 step 4: `PRED` steps whose id bitmap is still to be prepared. -/
  prep : List Nat := []
  /-- R158: slots waiting for room: port and bytes. -/
  pending : List (Nat × List Byte) := []
  /-- R139: payload blocks fetched: region offset of the chunk, block. -/
  fetched : List (Nat × Nat) := []
  /-- R143: the last report to the ledger is sent. -/
  reported : Bool := false
  /-- Every segment is delivered. -/
  spent : Bool := false
deriving DecidableEq, Repr, Inhabited

/-- R403, R406: a sealed run: its seal's number on the device, whether it is sorted, its records still to be read. -/
structure Sealed where
  no : Nat := 0
  sorted : Bool := false
  recs : List Nat := []
deriving DecidableEq, Repr, Inhabited

/-- R172: a wick, by physical position 17n + w. Its wax lies in `mem`. -/
structure Wick where
  /-- 0 free; 1 running; 2 held at a `BREAK` (R216); 3 its task has ended and its ladder work is going on (R407). -/
  st : Nat := 0
  ctx : Nat := 0
  a : List Nat := List.replicate 16 0
  lr : Nat := 0
  pc : Nat := 0
  repcnt : Nat := 0
  fflags : Nat := 0
  /-- R205: of the kernel header. -/
  codeBase : Nat := 0
  codeLen : Nat := 0
  waxSlots : Nat := 0
  budget : Nat := 0
  preempt : Bool := false
  /-- R511: far windows: kind, base, length; the task's table lists. -/
  wins : List (Nat × Nat × Nat) := []
  chds : List Nat := []
  folds : List Nat := []
  ports : List Port := []
  loads : List FarLoad := []
  /-- R202, R203: 0 none, 1 `REP`, 2 `REPI`; iterations left; whether an iteration has run. -/
  repKind : Nat := 0
  repLeft : Nat := 0
  repMid : Bool := false
  /-- A word could not issue and waits (R177, R179, R194, R256). -/
  stalled : Bool := false
  /-- R212: the wick stands at an interruption point. -/
  atPoint : Bool := false
  cycles : Nat := 0
  /-- R523, R516: the cog of its dispatch or resumption. -/
  since : Nat := 0
  /-- R524: cycles in the open load window, and in the last one. -/
  busy : Nat := 0
  lastBusy : Nat := 0
  /-- R372: the slots of a fold request not yet whole, its table-list entry, and slots still to come. -/
  foldBuf : List Byte := []
  foldList : Nat := 0
  foldNeed : Nat := 0
  /-- R252: requests at a Chandelier and not answered. -/
  reqs : Nat := 0
  job : Option Job := none
  ladder : Option Ladder := none
  /-- R403 to R409, R416: sort records as big-endian numbers: the open run and the sealed runs, oldest first. -/
  openRun : List Nat := []
  sealed : List Sealed := []
  merged : Bool := false
  /-- R409: records in the lantern-store run buffer; a close is due. -/
  bufRecs : Nat := 0
  closing : Bool := false
  heap : List Nat := []
deriving DecidableEq, Repr, Inhabited

/-- R111, R112: a recipe slot: the pipeline and section it was filled for (none when filled through the window), and
when it was last bound. -/
structure RecSlot where
  ref : Option (Nat × Nat) := none
  used : Nat := 0
deriving DecidableEq, Repr, Inhabited

/-- R131 to R133: an id bitmap of a lantern. -/
structure Bitmap where
  lantern : Nat := 0
  run : Nat := 0
  dict : Nat := 0
  pipe : Nat := 0
  recipe : Nat := 0
  step : Nat := 0
  size : Nat := 0
  bits : Nat := 0
  used : Nat := 0
deriving DecidableEq, Repr, Inhabited

/-- R143 to R151: a ledger entry, one per chunk and run. Tasks are named by stage × 2^32 + task number. -/
structure Ledger where
  run : Nat := 0
  region : Nat := 0
  off : Nat := 0
  /-- The chunk's header, once a task has read it. -/
  hdr : List Byte := []
  planned : List Nat := []
  /-- The tasks whose last report has arrived. -/
  who : List Nat := []
  /-- Validity and dictionary chunks: the entries of the data chunks that name it. -/
  by_ : List Nat := []
  /-- R85: the `NULL_COUNT` of the data chunks that name a validity chunk. -/
  nulls : List Nat := []
  /-- R144: first reports: block, CRC, zero bits. -/
  blocks : List (Nat × Nat × Nat) := []
  /-- 0 open, 1 VERIFIED, 2 FAILED with `check`. -/
  st : Nat := 0
  check : Nat := 0
  /-- R145: the wick and instance of the task that reported last. -/
  last : Nat := 0
  lastInst : Nat := 0
deriving DecidableEq, Repr, Inhabited

/-- R142, R143: a report on its way to the ledger: a block with its CRC and zero bits, or (`last`) a task's last one. -/
structure Report where
  entry : Nat := 0
  ctx : Nat := 0
  task : Nat := 0
  wick : Nat := 0
  last : Bool := false
  block : Nat := 0
  crc : Nat := 0
  zero : Nat := 0
deriving DecidableEq, Repr, Inhabited

/-- R689, R692: a Sconce way, or a line in the eviction buffer. -/
structure Way where
  line : Nat := 0
  valid : Bool := false
  dirty : Bool := false
  filling : Bool := false
  data : List Byte := []
  /-- In the eviction buffer: the way a clean line waits on. -/
  home : Nat := 0
deriving DecidableEq, Repr, Inhabited

/-- R689 to R698: the Sconce of a lantern; its registers stand in `csr`. -/
structure Sconce where
  ways : List Way := List.replicate 32 {}
  plru : Nat := 0
  evict : List Way := []
deriving DecidableEq, Repr, Inhabited

/-- R325: a landing block that is not FREE, by device address. -/
structure Block where
  run : Nat := 0
  desc : Nat := 0
  lantern : Nat := 0
  slot : Nat := 0
  part : Nat := 0
  epoch : Nat := 0
  task : Nat := 0
  inst : Nat := 0
  gen : Nat := 0
  bytes : Nat := 0
  /-- 1 FILLING, 2 STAGED, 3 COMMITTED. -/
  st : Nat := 1
  dev : Nat := 0
  hbm : Bool := false
  /-- R350, R351: the spill round the block's rows are for, from 1; 0 for a block as landed. -/
  round : Nat := 0
deriving DecidableEq, Repr, Inhabited

/-- R330: an exchange flit on its way to a lantern: sender port (lantern, or 68 + Molmi port), header, records. -/
structure XFlit where
  frm : Nat := 0
  dest : Nat := 0
  run : Nat := 0
  desc : Nat := 0
  task : Nat := 0
  epoch : Nat := 0
  inst : Nat := 0
  gen : Nat := 0
  dev : Nat := 0
  bytes : List Byte := []
deriving DecidableEq, Repr, Inhabited

/-- R655: what has arrived of a peer's task: flits written, and its marker's count once it has arrived. -/
structure PeerIn where
  dev : Nat := 0
  task : Nat := 0
  epoch : Nat := 0
  port : Nat := 0
  flits : Nat := 0
  mark : Option Nat := none
deriving DecidableEq, Repr, Inhabited

/-- R376: a fold request released to a fold unit. -/
structure FoldMsg where
  table : Nat := 0
  inst : Nat := 0
  gen : Nat := 0
  ctx : Nat := 0
  slot : Nat := 0
  run : Nat := 0
  body : List Byte := []
deriving DecidableEq, Repr, Inhabited

/-- R410, R411: a sort run in a run area, by device address. -/
structure SRun where
  run : Nat := 0
  stage : Nat := 0
  areaNo : Nat := 0
  ctx : Nat := 0
  taskNo : Nat := 0
  epoch : Nat := 0
  inst : Nat := 0
  gen : Nat := 0
  records : Nat := 0
  /-- 1 FILLING, 2 STAGED, 3 COMMITTED. -/
  st : Nat := 2
deriving DecidableEq, Repr, Inhabited

/-! ### HBM and the Chain (15_memory_chain_sconce.md) -/

/-- R663 to R677: a stack; its registers stand in `csr`. Channels by u, pseudo-channels by 2u + q, delays by
64 × (2u + q) + DQ. -/
structure Hbm where
  /-- R665: on `mono`: the last refresh of each channel. -/
  refreshed : Tab Nat := []
  /-- R666: on `mono`: the last temperature readout, if one was made. -/
  readAt : Option Nat := none
  /-- R670: the last training of each pseudo-channel, on `mono`, and the temperature then. -/
  trained : Tab (Nat × Nat) := []
  /-- R669: write delay, read delay and `VREF` codes. -/
  delays : Tab (Nat × Nat × Nat) := []
  /-- R674: the next beat of the patrol. -/
  patrol : Nat := 0
deriving DecidableEq, Repr, Inhabited

/-- R675: a pool frame that has been taken: the frame it stands for, whether it is in use, whether it was retired. -/
structure PoolFrame where
  frame : Nat := 0
  valid : Bool := false
  bad : Bool := false
deriving DecidableEq, Repr, Inhabited

/-- R680: a piece of a burst: source address, destination address, bytes. -/
structure Piece where
  src : Nat := 0
  dst : Nat := 0
  len : Nat := 0
deriving DecidableEq, Repr, Inhabited

/-- R678 to R687: what a Chain channel is doing; its registers stand in `csr`. -/
structure ChainRun where
  /-- Bytes of the transfer before the last burst whose writes are issued, and before the next one. -/
  start : Nat := 0
  pos : Nat := 0
  /-- The burst that waits for its source bytes from host memory, and those bytes by piece (none yet: empty). -/
  burst : List Piece := []
  want : List (Nat × List Byte) := []
  /-- R681: the read-back is sent. -/
  asked : Bool := false
deriving DecidableEq, Repr, Inhabited

/-! ### Chandeliers (06_chandelier.md) -/

/-- R262: a row: its data bits as they stand, and the data its check bits encode. -/
structure CRow where
  data : Nat := 0
  wrote : Nat := 0
deriving DecidableEq, Repr, Inhabited

/-- R266: the side RAM of an entry; `good` says that its parity holds. -/
structure CSide where
  valid : Bool := false
  tag : Nat := 0
  value : Nat := 0
  good : Bool := true
deriving DecidableEq, Repr, Inhabited

/-- R289 to R292: an allocated step handle. -/
structure CHandle where
  seq : Nat := 0
  task : Nat := 0
  table : Nat := 0
  bank : Nat := 0
  key : Nat := 0
  tag : Nat := 0
  last : Nat := 0
  used : Nat := 0
deriving DecidableEq, Repr, Inhabited

/-- R262 to R315: a Chandelier; its registers stand in `csr`. Rows by 2,048 × bank + row, spare rows by 64 × bank +
spare, side RAM by 2,048 × bank + entry. -/
structure Chd where
  rows : Tab CRow := []
  spares : Tab CRow := []
  side : Tab CSide := []
  suspect : List Nat := []
  remap : Tab Nat := []
  handles : Tab CHandle := []
  seqs : Tab Nat := []
  clock : Nat := 0
  /-- R277: the load in progress: table, address, records in all, records done, run. -/
  load : Option (Nat × Nat × Nat × Nat × Nat) := none
  /-- R298: a visit is under way. -/
  visiting : Bool := false
deriving DecidableEq, Repr, Inhabited

/-! ### Queues and commands (12_queues_commands.md) -/

/-- R564: the states of a queue. -/
inductive QState where
  | absent | enabled | disabled | overrun
deriving DecidableEq, Repr, Inhabited

/-- R526 to R571, R573: one global queue. `head`, `tail` and `fetch` are indices of R527. -/
structure Queue where
  st : QState := .absent
  typ : Nat := 0
  push : Bool := false
  sizeLog2 : Nat := 0
  port : Nat := 0
  mirrorEn : Bool := false
  notifyEn : Bool := false
  inst : Nat := 0
  loc : Nat := 0
  vector : Nat := 0
  base : Nat := 0
  mirror : Nat := 0
  head : Nat := 0
  tail : Nat := 0
  fetch : Nat := 0
  cause : Nat := 0
  /-- R844: the generation under which the indices are published. -/
  pubGen : Nat := 0
  /-- RESULT and EVENT: the index of the next slot the device writes (its tail once confirmed). COMMAND and ADMIN: the
  index up to which the device has advanced the head (R536), published or not. -/
  prod : Nat := 0
  /-- R544: the keys of the entries of an open chain: the accepted command, if one is open. -/
  chain : Option Nat := none
  /-- R562, R648: coalescing count and time (µs), pending count, pending since (on `mono`), and the counts of the
  notifications owed, oldest first. -/
  coalCount : Nat := 1
  coalTime : Nat := 0
  pendCount : Nat := 0
  pendSince : Option Nat := none
  notices : List Nat := []
  /-- R570: events lost while the ring was full. -/
  lost : Nat := 0
  /-- Slots the head has passed in this life of the queue (R566, R567). -/
  passed : Nat := 0
  /-- R729: entries below this count of slots that have not started complete with `FW_CHANGED`. -/
  fwMark : Nat := 0
deriving DecidableEq, Repr, Inhabited

/-- R542 to R551: an accepted command. -/
structure Cmd where
  g : Nat := 0
  /-- Position and units of every entry of the command, in ring order. -/
  ents : List (Nat × Nat) := []
  opcode : Nat := 0
  flags : Nat := 0
  tag : Nat := 0
  gen : Nat := 0
  inst : Nat := 0
  /-- Journal source of R597. -/
  source : Nat := 0
  /-- Acceptance order over the device. -/
  seq : Nat := 0
  /-- R544: the parameter stream. -/
  prm : List Byte := []
  started : Bool := false
  finished : Bool := false
  status : Nat := 0
  residue : Nat := 0
  result : Nat := 0
  startT : Nat := 0
  endT : Nat := 0
  /-- The status area of every entry is written and confirmed (R536, R538). -/
  written : Bool := false
  /-- Progress of a command of several steps: an index noted at acceptance, bytes done, a phase. -/
  note : Nat := 0
  done : Nat := 0
  phase : Nat := 0
  /-- The command came through the management port. -/
  mgmt : Bool := false
  /-- R544: its chain is still open. -/
  isOpen : Bool := false
deriving DecidableEq, Repr, Inhabited

/-- R555 to R558, R643 to R646: the data phase of a `TABLE_WRITE`. -/
structure Xfer where
  xid : Nat := 0
  off : Nat := 0
  len : Nat := 0
  got : Nat := 0
  /-- Reached when the request was satisfied (R646). -/
  sat : Bool := false
  /-- ACTIVE ns since the last `DATA` (R645). -/
  idle : Nat := 0
deriving DecidableEq, Repr, Inhabited

/-- A `TABLE_WRITE` in progress: its reservation (0 while it waits), staged bytes, requests, bytes asked for and bytes
applied (R558). -/
structure Write where
  region : Nat := 0
  off : Nat := 0
  len : Nat := 0
  reserved : Nat := 0
  data : List Byte := []
  reqs : List Xfer := []
  asked : Nat := 0
  applied : Nat := 0
deriving DecidableEq, Repr, Inhabited

/-- R570: an event of an instance waiting to be written. -/
structure Event where
  kind : Nat := 0
  loc : Nat := 0
  lost : Nat := 0
  time : Nat := 0
  detail : List Byte := []
deriving DecidableEq, Repr, Inhabited

/-! ### Tenants, journal, Tally (13_tenants_tally.md) -/

/-- R602: the counts of one instance over a minute. -/
structure Counts where
  wickCycles : Nat := 0
  rerunCycles : Nat := 0
  hbmRead : Nat := 0
  hbmWritten : Nat := 0
  decoded : Nat := 0
  link : Nat := 0
  memHeld : Nat := 0
  searches : Nat := 0
  foldOps : Nat := 0
deriving DecidableEq, Repr, Inhabited

/-- R575 to R592: one instance number. -/
structure Inst where
  /-- 0 ABSENT, 1 ACTIVE, 2 DESTROYING. -/
  st : Nat := 0
  cls : Nat := 0
  wicks : Nat := 0
  banks : Nat := 0
  mem : Nat := 0
  fold : Nat := 0
  /-- R592: the larger size a pending shrink still counts at. -/
  memRes : Nat := 0
  banksRes : Nat := 0
  shrinking : Bool := false
  resizeCmd : Option Nat := none
  /-- R575: the last issued generation, and the current one (0 for none). -/
  lastGen : Nat := 0
  gen : Nat := 0
  /-- R578: tracked retired generations, oldest first, at most three. -/
  retired : List Nat := []
  stale : Nat := 0
  events : List Event := []
  /-- R524, R588: cycles of wick time and fold updates over the last completed load window, and in the open one. -/
  lastShare : Nat := 0
  curShare : Nat := 0
  /-- R600: present at some moment of the open minute; the counts of that minute. -/
  seen : Bool := false
  counts : Counts := {}
deriving DecidableEq, Repr, Inhabited

/-- R559, R591: a table region: owner, device address, size. -/
structure Region where
  inst : Nat := 0
  base : Nat := 0
  size : Nat := 0
deriving DecidableEq, Repr, Inhabited

/-- R602: a closed tally record waiting for the ring. -/
structure TallyRec where
  end_ : Nat := 0
  inst : Nat := 0
  gen : Nat := 0
  flags : Nat := 0
  span : Nat := 1
  /-- The model's own: which closed minute the record belongs to. -/
  minute : Nat := 0
  counts : Counts := {}
deriving DecidableEq, Repr, Inhabited

/-! ### Output stages (14_molmi_link.md R640, R854; 16_crankset.md R713, R714) -/

/-- What an output-stage instruction does when it is issued. -/
inductive OutAct where
  /-- Status area of every entry of the command of this key. -/
  | status (key : Nat)
  /-- Slots of a RESULT or EVENT ring, from an index, and the tail they bring; the run or 0. -/
  | ring (g idx : Nat) (bytes : List Byte) (newTail run : Nat)
  /-- Bytes 8 to 59 of a journal record, without `SEQ` and `CRC` (R597). -/
  | journal (body : List Byte)
  /-- An index of a queue to publish, and the entries flagged `NOTIFY` that it passes (R537, R648). -/
  | index (g idx notes : Nat)
deriving DecidableEq, Repr, Inhabited

/-- R713: one held instruction. Stages: 0 head publisher, 1 result ring, 2 event ring, 5 journal recorder. -/
structure OutItem where
  stage : Nat := 0
  stroke : Nat := 0
  claim : Nat := 0
  inst : Nat := 0
  gen : Nat := 0
  act : OutAct
deriving DecidableEq, Repr

/-- What a confirmed write to host memory lets happen. -/
inductive HeldFor where
  | status (key : Nat)
  | ring (g newTail run : Nat)
  | mirror (g : Nat)
  | data (key : Nat)
  | chain (ch : Nat)
  | swx (ctx : Nat)
deriving DecidableEq, Repr, Inhabited

/-- R640, R854: a write to host memory that no read-back has confirmed. -/
structure Held where
  port : Nat := 0
  addr : Nat := 0
  bytes : List Byte := []
  what : HeldFor
  inst : Nat := 0
  gen : Nat := 0
  /-- The tag of the read-back that is to confirm it; none when it waits to be issued again. -/
  tag : Option Nat := none
  /-- On `mono`: when the read-back failed (R854). -/
  failedAt : Option Nat := none
deriving DecidableEq, Repr

/-- R637, R639: an outstanding `MRD`. -/
structure Mrd where
  port : Nat := 0
  tag : Nat := 0
  /-- What the read is for: a read-back, a command's data, a Chain source. -/
  readBack : Bool := true
  key : Nat := 0
  chan : Option Nat := none
  /-- ns of ACTIVE time since it was issued (R639). -/
  age : Nat := 0
deriving DecidableEq, Repr, Inhabited

/-- A packet the device has sent on a port and that no row of the table takes further. -/
inductive Sent where
  | ntfy (port inst gen loc head vector count : Nat)
  | xferRdy (port inst gen loc entry xid off len addr : Nat)
  | mrd (port tag addr len : Nat)
  | peer (port kind src dst hops inst gen slot task exchange epoch lost flits : Nat) (bytes : List Byte)
  | mgmt (port kind : Nat) (bytes : List Byte)
  | control (port kind arg : Nat)
  | ack (port ack : Nat) (nak : Bool) (credits : List Nat)
  | replay (port frm : Nat)
deriving DecidableEq, Repr, Inhabited

/-- R622, R625: a DATA flit in a replay buffer. -/
structure TxFlit where
  seq : Nat := 0
  vc : Nat := 0
  /-- `FIRST_OFF`. -/
  first : Nat := 255
  bytes : List Byte := []
deriving DecidableEq, Repr, Inhabited

/-- R610 to R631, R657: a Molmi port; its registers stand in `csr`. Times are on `mono`. -/
structure MPort where
  /-- Per virtual channel: stream bytes not yet in flits, and the offsets at which packets begin in them. -/
  tx : Tab (List Byte) := []
  starts : Tab (List Nat) := []
  unacked : List TxFlit := []
  /-- R630: credits in hand and credits to return, per channel. -/
  credit : List Nat := [0, 0, 0, 0]
  owed : List Nat := [0, 0, 0, 0]
  /-- R629, R635: received stream bytes per channel that are not yet a whole packet; channels that look for a packet
  start. -/
  rx : Tab (List Byte) := []
  seek : List Nat := []
  /-- R627: a `NAK` is out. -/
  nak : Bool := false
  /-- R628: flits accepted since the last report, and when that was. -/
  fresh : Nat := 0
  reportAt : Nat := 0
  /-- R627: replays in a row without an advance; when `ACK` last advanced or began to wait. -/
  replays : Nat := 0
  ackAt : Nat := 0
  /-- When the state was entered (R616, R617). -/
  entered : Nat := 0
  /-- R657: when the port left ACTIVE, while it has not returned. -/
  lostAt : Option Nat := none
  /-- R639: when recent `CPL` timeouts came. -/
  timeouts : List Nat := []
  /-- CONTROL messages without answer: kind, argument, when sent. Kinds: 0 `SWAP_REQ`, 1 CONFIG. -/
  waiting : List (Nat × Nat × Nat) := []
  /-- R619, R620: the lane whose swap was asked of the partner; the lane announced for a group ahead. -/
  swapRx : Option Nat := none
  swapTx : Option Nat := none
  /-- R657, R658: the next training resumes the link-layer state. -/
  resume : Bool := false
  /-- R619: when the last 1 ms of lane errors ended. -/
  laneAt : Nat := 0
deriving DecidableEq, Repr, Inhabited

/-! ### Pipelines and runs (10_pipelines.md) -/

/-- R423, R429, R430: a loaded pipeline. `img` is the copy of the image's body. -/
structure Pipe where
  inst : Nat := 0
  gen : Nat := 0
  img : List Byte := []
  imageId : Nat := 0
  /-- Kernel places: lantern slot, section `ID`, code-store address. -/
  kernels : List (Nat × Nat × Nat) := []
  /-- Chandelier tables: layout index, 32c + t. Fold tables: plan index, t. -/
  chdTabs : List (Nat × Nat) := []
  foldTabs : List (Nat × Nat) := []
deriving DecidableEq, Repr, Inhabited

/-- R443: one stage of a run. `st`: 0 waiting, 1 started, 2 complete. -/
structure StageRun where
  st : Nat := 0
  /-- Tasks the stage holds, tasks created so far, tasks committed. -/
  total : Nat := 0
  created : Nat := 0
  committed : Nat := 0
  /-- R346: build totals of the exchange the stage consumes. -/
  buildRows : Nat := 0
  buildNulls : Nat := 0
  /-- R282, R443: at the barrier; Chandelier tables still to load: 32c + t, `OUTPUT` area. -/
  barrier : Bool := false
  loads : List (Nat × Nat) := []
  /-- R460: slots whose slot commit has been made. -/
  slotsDone : List Nat := []
  /-- What each task of a `BLOCKS` stage consumes (its block and round, R350) or of a `MERGE` stage (its runs). -/
  inputs : List (List Nat) := []
deriving DecidableEq, Repr, Inhabited

/-- R349 to R351: a round of a spilled partition: hash-table plan, partition, slot and number on that slot from 1; the
sub-partition `q` of 2^`s`, and its build rows from `first` on. -/
structure Round where
  hash : Nat := 0
  part : Nat := 0
  slot : Nat := 0
  no : Nat := 0
  /-- R447: what `ROUND` shows. -/
  shown : Nat := 0
  q : Nat := 0
  s : Nat := 0
  first : Nat := 0
  count : Nat := 0
  /-- The build rows are in the lantern store and their tasks created. -/
  begun : Bool := false
deriving DecidableEq, Repr, Inhabited

/-- R438 to R478, R560, R563: a run. -/
structure Run where
  /-- `CMD_TAG` of the `QUERY_RUN`; the run's key is its command's. -/
  tag : Nat := 0
  pipe : Nat := 0
  inst : Nat := 0
  gen : Nat := 0
  resultG : Nat := 0
  delivery : Nat := 0
  batch : Nat := 2
  hold : Bool := false
  stall : Nat := 0
  deadline : Nat := 0
  rowLimit : Nat := 0
  /-- R439: its turn among the runs of its pipeline. -/
  order : Nat := 0
  scans : List (Nat × Nat) := []
  regions : List Nat := []
  params : List Byte := []
  /-- R563: 0 queued, 1 running, 2 suspended, 3 completed. -/
  st : Nat := 0
  status : Nat := 0
  failing : Bool := false
  check : Nat := 0
  failOff : Nat := 0
  committed : Nat := 0
  rows : Nat := 0
  startT : Nat := 0
  endT : Nat := 0
  stages : List StageRun := []
  /-- R440, R436: memory-plan areas: number, kind, device address, size; bytes taken from the area's start. -/
  areas : List (Nat × Nat × Nat × Nat) := []
  taken : List (Nat × Nat) := []
  /-- R362: device ranges of its fold tables' shares. -/
  shares : List (Nat × Nat) := []
  /-- R442: device address and length of each scan list's copy. -/
  scanAt : List (Nat × Nat) := []
  /-- R466: next entry `SEQ`; R469: stall timer start on `mono`. -/
  seq : Nat := 0
  stallSince : Option Nat := none
  /-- R453, R469: contexts of committed tasks whose rows are not all delivered, in commit order; the rows stay in the
  task's emit staging until they are. -/
  deliver : List Nat := []
  /-- R467: what is left of a row that is split over entries: `TASK_NO`, bytes. -/
  cont : Option (Nat × List Byte) := none
  rounds : List Round := []
  endIssued : Bool := false
  endWritten : Bool := false
  /-- R471: lantern-store ranges copied out: lantern slot, offset, bytes. -/
  saved : List (Nat × Nat × List Byte) := []
  savedSize : Nat := 0
deriving DecidableEq, Repr, Inhabited

/-! ### Crankset (16_crankset.md), boot, pins and ports (19_power_reset_package.md) -/

/-- R706: the roles of a seat. -/
inductive Role where
  | booting | captain | stoker | failed
deriving DecidableEq, Repr, Inhabited

/-- A doorbell as it arrives: a page write (`kind` 0), a `DBELL` (1) or a `CMDP` (2). -/
structure Doorbell where
  kind : Nat := 0
  port : Nat := 0
  inst : Nat := 0
  gen : Nat := 0
  loc : Nat := 0
  idx : Nat := 0
  units : Nat := 0
deriving DecidableEq, Repr, Inhabited

/-- R716, R717: what a seat has seen of the other: windows in a row without a heartbeat, with one on the wire only, on the
copy link only; and windows in a row with one on the copy link (R719). -/
structure Watch where
  silent : Nat := 0
  copyLost : Nat := 0
  wireLost : Nat := 0
  copyOk : Nat := 0
deriving DecidableEq, Repr, Inhabited

/-- R705 to R730: the Crankset. Registers `CRK_*` stand in `csr`. -/
structure Crank where
  roleA : Role := .booting
  roleB : Role := .booting
  synced : Bool := false
  detached : Bool := false
  /-- R711: the stroke in progress; R712: copies sent; R713: strokes that may be released, and that are (next numbers). -/
  stroke : Nat := 0
  copied : Nat := 0
  acked : Nat := 0
  released : Nat := 0
  /-- R720: the seat that is to take over or is taking over. -/
  taking : Option Nat := none
  /-- R714: the stages hold, since when on `mono`; R723: they hold for good. -/
  gap : Bool := false
  halted : Bool := false
  gapStart : Nat := 0
  watchA : Watch := {}
  watchB : Watch := {}
  /-- R719, R722: seats that are to boot and synchronise. -/
  rejoin : List Nat := []
  /-- R708, R822: seats that have verified an image in this boot, and when the first did, on `mono`. -/
  verified : List Nat := []
  bootStart : Option Nat := none
  /-- R725, R726: the staging area, whether the next `FW_STAGE` starts a new image, and whether the image is verified. -/
  fw : List Byte := []
  fwNew : Bool := true
  fwStaged : Bool := false
  /-- R728: the activation in progress: its command, its start on `mono`, its phase (0 the stoker boots, 1 it is
  synchronised, 2 it takes over, 3 the old captain rejoins). -/
  act : Option (Nat × Nat × Nat) := none
  /-- The firmware each seat runs. -/
  image : List Byte := []
  imageB : List Byte := []
  /-- R714: doorbells latched during a gap, in arrival order. -/
  latched : List Doorbell := []
deriving DecidableEq, Repr, Inhabited

/-- R812 to R835: levels of the pins the model holds. -/
structure Pins where
  pwrgood : Bool := true
  resetN : Bool := true
  snuffN : Bool := true
  tbPps : Bool := false
  grantA : Bool := false
  grantB : Bool := false
  straps : Nat := 0
  smbAlertN : Bool := true
  thermTripN : Bool := true
  vid : Nat := 0x28
  hbA : Bool := false
  hbB : Bool := false
  /-- R828: levels a boundary-scan register drives during `EXTEST`, by cell; `SAMPLE/PRELOAD` loads it. -/
  scan : List Bool := []
deriving DecidableEq, Repr, Inhabited

/-- R818 to R829: boot, management port, JTAG. -/
structure Boot where
  /-- R818, R822: images tried in this boot; on `mono`, when stage `FETCH` was entered; crank B's ROM reads. -/
  tried : Nat := 0
  fetchStart : Nat := 0
  fetchB : Bool := false
  /-- R814: this boot follows a warm reset. -/
  warm : Bool := false
  /-- R786, R789: the user page has been loaded since cold reset. -/
  paged : Bool := false
  inReset : Bool := false
  tripped : Bool := false
  /-- R826: the management port's running command, the state code 0x04 reports, and the status area. -/
  mgmtCmd : Option Nat := none
  mgmtState : Nat := 0
  mgmtArea : List Byte := List.replicate 16 0
  /-- R825, R826: what the last transaction of the management port returned, and whether it was NACKed. -/
  readData : List Byte := []
  nack : Bool := false
  /-- R828, R829: the JTAG instruction; what the next Capture-DR loads: `DONE`, `ERROR`, data. -/
  jtagIr : Nat := 0xFF
  jtagDone : Bool := false
  jtagErr : Bool := false
  jtagData : Nat := 0
  /-- R804: on `mono`: when VID last moved. -/
  vidSince : Nat := 0
deriving DecidableEq, Repr, Inhabited

/-! ### Sealwax (17_sealwax_trust.md) -/

/-- R734: a key slot; `key` is the key's own bytes, none when the slot is empty. -/
structure SwxSlot where
  key : Option (List Byte) := none
  use : Nat := 0
  loads : Nat := 0
deriving DecidableEq, Repr, Inhabited

/-- R737 to R753: a tenant's message, by 65,536 × instance + `CONTEXT`. -/
structure SwxMsg where
  gen : Nat := 0
  keyed : Bool := false
  slot : Nat := 0
  save : Nat := 0
  port : Nat := 0
  loads : Nat := 0
  words : List Nat := []
  /-- The partial block, the bytes of the pass still to come, and how many of those are the command's data. -/
  buf : List Byte := []
  more : List Byte := []
  left : Nat := 0
  absorbed : Nat := 0
  declared : Option Nat := none
  /-- The padding is in `more`; the outer pass is under way. -/
  padded : Bool := false
  outer : Bool := false
  /-- The `DIGEST` under way, its data (none: the read failed), and whether they have been taken. -/
  cmd : Option Nat := none
  data : Option (List Byte) := none
  taken : Bool := false
  /-- R748: its state lies in its save area. -/
  saved : Bool := false
  /-- R747: on `mono`: since when it has needed a context and had none; and its turn among those. -/
  waitSince : Option Nat := none
  order : Nat := 0
deriving DecidableEq, Repr, Inhabited

/-- R744 to R748: a context: 0 FREE, 1 LOADED, 2 EXPORTING, 3 IMPORTING. -/
structure SwxCtx where
  st : Nat := 0
  msg : Nat := 0
  served : Nat := 0
  blocks : Nat := 0
deriving DecidableEq, Repr, Inhabited

/-- R731 to R768: Sealwax; its other registers stand in `csr`. -/
structure Swx where
  slots : Tab SwxSlot := []
  ctxs : Tab SwxCtx := []
  msgs : Tab SwxMsg := []
  /-- R750: exports since boot. -/
  exports : Nat := 0
  /-- R744: the context served last, and a count of services and requests that orders them. -/
  turn : Nat := 7
  clock : Nat := 0
  /-- R754: both instances have failed. -/
  dead : Bool := false
deriving DecidableEq, Repr, Inhabited

/-- R769 to R800: repair, logging and the Snuffer. -/
structure Ras where
  /-- R773: the error log, oldest first: bytes 0 to 63 of each record. -/
  log : List (List Byte) := []
  /-- R776: per unit (class, unit) with a corrected-error record this second: the second, the record's `SEQ`. -/
  ceSec : List (Nat × Nat × Nat × Nat) := []
  /-- R780: corrected errors per unit (class, unit, detail): their stamps in rack time. -/
  ce : List (Nat × Nat × Nat × Nat) := []
  /-- R784: repairs in progress: class, unit, detail, and the command waiting, if any. -/
  repairing : List (Nat × Nat × Nat × Option Nat) := []
  /-- R788, R790: the repair entries of the user page in effect: class, unit, detail. -/
  page : List (Nat × Nat × Nat) := []
  /-- R783: rows recorded for hard repair at the next cold reset: unit, detail. -/
  hard : List (Nat × Nat) := []
  /-- R781: redundant lines in use: 0 wax of position or 1 lantern store of lantern, unit, line. -/
  lines : List (Nat × Nat × Nat) := []
  saveAgain : Bool := false
  /-- R779: the rack time of the last measurement of the soot monitors. -/
  sootAt : Nat := 0
  /-- R793: domains are stopped. -/
  frozen : Bool := false
  /-- R732, R762: the OTP fields the owner and Sealwax burn, as bytes or a count. -/
  ownerHash : List Byte := []
  loadSeed : List Byte := []
  policy : Nat := 0
  /-- R791: burned this power cycle, in effect at the next cold reset. -/
  burned : List (Nat × List Byte) := []
  /-- R762: the positions of the tree-epoch counter that read 1 (lowest first), and those that failed to burn. -/
  epochTop : Nat := 0
  epochBurned : Nat := 0
  otpData : List Nat := [0, 0, 0, 0]
deriving DecidableEq, Repr, Inhabited

/-- The whole state of the block. -/
structure State where
  /-- The commands that wait, first in, first out. -/
  pending : List Instr := []
  /-- The model's own counter of free values drawn (`Config.freeValue`). -/
  drawn : Nat := 0
  /-- The CSR file: registers whose raw value differs from the map's cold-reset value, ascending offset. -/
  csr : Tab Reg64 := []
  /-- The device's memories by physical place (`Ops.lean` gives the places), canonical form. -/
  mem : List Host.Cell := []
  /-- Host memory as the device has written it: port × 2^64 + address. -/
  hostMem : List Host.Cell := []
  /-- R819: the SPI NOR. -/
  flash : List Host.Cell := []
  /-- R593: the mailbox pages, by page offset i × 4,096. -/
  mail : List Host.Cell := []
  /-- R672: poisoned beats, by device address, in the order found. -/
  poison : List Nat := []
  tb : TimeBase := {}
  /-- R507: the cog counter. -/
  cog : Nat := 0
  ctxs : Tab Ctx := []
  /-- R513: ready lists by 8 × slot + priority; R519: delay lists of (due, context). -/
  ready : Tab (List Nat) := []
  delay : Tab (List (Nat × Nat)) := []
  queues : Tab Queue := []
  cmds : Tab Cmd := []
  cmdSeq : Nat := 0
  writes : Tab Write := []
  /-- R557: the instance whose write was given staging last. -/
  stagingTurn : Nat := 0
  insts : Tab Inst := []
  regions : Tab Region := []
  pipes : Tab Pipe := []
  runs : Tab Run := []
  /-- R589: the pool's amounts: wicks, banks, memory, fold. -/
  pool : List Nat := [0, 0, 0, 0]
  /-- R597, R599: the change journal, oldest first. -/
  journal : List (List Byte) := []
  /-- R605, R606: held tally records and merge records. -/
  tally : List TallyRec := []
  merges : List TallyRec := []
  outbox : List OutItem := []
  held : List Held := []
  mrds : List Mrd := []
  sent : List Sent := []
  ports : Tab MPort := []
  crank : Crank := {}
  wicks : Tab Wick := []
  /-- R213: preempted wicks by save area; the saved wax lies in `mem`. -/
  saves : Tab Wick := []
  sealCount : Nat := 0
  recSlots : Tab RecSlot := []
  recClock : Nat := 0
  bitmaps : List Bitmap := []
  ledger : Tab Ledger := []
  reports : List Report := []
  /-- R152: dictionary chunks checked: lantern, run, device address. -/
  dictSeen : List (Nat × Nat × Nat) := []
  sconces : Tab Sconce := []
  blocks : Tab Block := []
  /-- R330: credits spent, by 74 × receiving lantern + sender port. -/
  credits : Tab Nat := []
  flits : List XFlit := []
  /-- R322: record bytes received and not yet a whole record, by sender, producer and exchange. -/
  xparts : List XFlit := []
  peerIns : List PeerIn := []
  foldMsgs : List FoldMsg := []
  /-- R380: lines in the write queue of the unit that serves channel 16s + u, oldest first. -/
  foldQ : Tab (List (Nat × List Byte)) := []
  sruns : Tab SRun := []
  chds : Tab Chd := []
  hbm : Tab Hbm := []
  /-- R675: retirement tables: pool frames taken, by 4,096 × (16s + u) + pool frame. -/
  retired : Tab PoolFrame := []
  /-- R683: channels that are RUNNING or ABORTING. -/
  chains : Tab ChainRun := []
  pins : Pins := {}
  boot : Boot := {}
  swx : Swx := {}
  ras : Ras := {}
deriving DecidableEq, Repr

/-- Why a step faults. No meaning of this block raises a fault: the spec gives each event an effect. -/
inductive Fault where
  /-- Raised by no meaning: the spec gives every command of the table an effect, so the block never stops. Safe. -/
  | never
deriving DecidableEq, Repr

/-- Why a step is refused. -/
inductive Refusal where
  /-- Raised by an arm of `exec` whose command has no meaning yet; it names the row. Safe. -/
  | notModelled (mnemonic : String)
deriving DecidableEq, Repr

/-- The block as cold reset ends (R18, R813, R822): stage `FUSES`, both seats BOOTING, no instance, queue, run or task,
nothing in memory, every register at its cold-reset value. -/
def State.reset : State := {}

end Sys2Proof.Machine
end

