-- ==== Sys2Proof/Machine/Ops.lean ====
section
/-! DEFINITION. The named operations the meanings share: tables, the CSR file, the memories, byte order, check codes, the
places of the device address space, the RAS error log and the change journal. -/
namespace Sys2Proof.Machine

/-! ### Tables -/

/-- The entry of a table under a key. -/
def Tab.get {α : Type} : Tab α → Nat → Option α
  | [], _ => none
  | (k, v) :: r, a => if k = a then some v else Tab.get r a

/-- The table with an entry set, keys kept ascending. -/
def Tab.put {α : Type} : Tab α → Nat → α → Tab α
  | [], a, b => [(a, b)]
  | (k, v) :: r, a, b =>
    if a < k then (a, b) :: (k, v) :: r else if a = k then (k, b) :: r else (k, v) :: Tab.put r a b

/-- The table without an entry. -/
def Tab.del {α : Type} (t : Tab α) (a : Nat) : Tab α := t.filter fun e => e.1 != a

/-- The entry under a key, or the type's idle value. -/
def Tab.at {α : Type} [Inhabited α] (t : Tab α) (a : Nat) : α := (Tab.get t a).getD default

/-- The table with one entry changed in place. -/
def Tab.upd {α : Type} (t : Tab α) (a : Nat) (f : α → α) : Tab α :=
  t.map fun e => if e.1 = a then (e.1, f e.2) else e

/-- The table with an entry's value, or the idle one, passed through `f`. -/
def Tab.edit {α : Type} [Inhabited α] (t : Tab α) (a : Nat) (f : α → α) : Tab α := Tab.put t a (f (Tab.at t a))

/-- How many entries meet a test. -/
def Tab.count {α : Type} (t : Tab α) (p : α → Bool) : Nat := (t.filter fun e => p e.2).length

/-- The list with element `i` replaced. -/
def setNth {α : Type} (l : List α) (i : Nat) (v : α) : List α := l.set i v

/-! ### Bytes -/

/-- R8: `n` as `w` bytes, little-endian. -/
def le (n : Nat) : Nat → List Byte
  | 0 => []
  | w + 1 => BitVec.ofNat 8 n :: le (n / 256) w

/-- R8: the number little-endian bytes spell. -/
def leNat : List Byte → Nat
  | [] => 0
  | b :: r => b.toNat + 256 * leNat r

/-- Big-endian bytes of a number (RFC 8554 structures, digests). -/
def be (n w : Nat) : List Byte := (le n w).reverse

/-- The number big-endian bytes spell. -/
def beNat (bs : List Byte) : Nat := leNat bs.reverse

/-- `n` bytes from offset `o`. -/
def slice (bs : List Byte) (o n : Nat) : List Byte := (bs.drop o).take n

/-- The little-endian field of `n` bytes at offset `o`; bytes beyond the end read 0. -/
def fieldAt (bs : List Byte) (o n : Nat) : Nat := leNat (slice bs o n)

/-- Zero bytes. -/
def zeros (n : Nat) : List Byte := List.replicate n 0

/-- `bs` cut or filled with zero bytes to `n` bytes. -/
def padTo (bs : List Byte) (n : Nat) : List Byte := bs.take n ++ zeros (n - bs.length)

/-- `bs` with the bytes of `v` written from offset `o` (within `bs`). -/
def patch (bs : List Byte) (o : Nat) (v : List Byte) : List Byte :=
  bs.take o ++ v.take (bs.length - o) ++ bs.drop (o + v.length)

/-- A number of `w` bits read as two's complement. -/
def sgn (w n : Nat) : Int := if n % 2 ^ w < 2 ^ (w - 1) then (n % 2 ^ w : Nat) else ((n % 2 ^ w : Nat) : Int) - 2 ^ w

/-- The low `w` bits of an integer. -/
def ofSgn (w : Nat) (i : Int) : Nat := (i % (2 ^ w : Nat)).toNat

/-- `n ÷ d` rounded up. -/
def ceilDiv (n d : Nat) : Nat := (n + d - 1) / d

/-- `n` rounded up to a multiple of `d`. -/
def roundUp (n d : Nat) : Nat := ceilDiv n d * d

/-! ### Check codes -/

/-- One step of a reflected CRC register. -/
def crcBit (poly r : Nat) : Nat := if r % 2 = 1 then (r / 2) ^^^ poly else r / 2

/-- A reflected CRC register after one byte. -/
def crcByte (poly r : Nat) (b : Byte) : Nat :=
  (List.range 8).foldl (fun r _ => crcBit poly r) (r ^^^ b.toNat)

/-- R96, R237: the raw CRC-32C register after some bytes. -/
def crc32cRaw (r : Nat) (bs : List Byte) : Nat := bs.foldl (crcByte 0x82F63B78) r

/-- R96: CRC-32C. -/
def crc32c (bs : List Byte) : Nat := crc32cRaw 0xFFFFFFFF bs ^^^ 0xFFFFFFFF

/-- One step of the unreflected CRC-64 of R623. -/
def crc64Bit (r : Nat) : Nat :=
  if r ≥ 2 ^ 63 then ((r * 2) % 2 ^ 64) ^^^ 0x42F0E1EBA9EA3693 else r * 2

/-- R623: CRC-64 of the flits. -/
def crc64 (bs : List Byte) : Nat :=
  (bs.foldl (fun r b => (List.range 8).foldl (fun r _ => crc64Bit r) (r ^^^ (b.toNat <<< 56))) 0xFFFFFFFFFFFFFFFF)
    ^^^ 0xFFFFFFFFFFFFFFFF

/-! ### Memories: lists of cells in canonical form, an unlisted byte reading 0 -/

/-- The byte at an address. -/
def cellGet : List Host.Cell → Nat → Byte
  | [], _ => 0
  | (k, v) :: r, a => if k = a then v else cellGet r a

/-- The memory with one byte written; a zero byte is not listed. -/
def cellPut : List Host.Cell → Nat → Byte → List Host.Cell
  | [], a, b => if b = 0 then [] else [(a, b)]
  | (k, v) :: r, a, b =>
    if a < k then (if b = 0 then (k, v) :: r else (a, b) :: (k, v) :: r)
    else if a = k then (if b = 0 then r else (k, b) :: r)
    else (k, v) :: cellPut r a b

/-- The bytes from an address on. -/
def cellsRead (m : List Host.Cell) (a : Nat) : Nat → List Byte
  | 0 => []
  | n + 1 => cellGet m a :: cellsRead m (a + 1) n

/-- The memory with bytes written from an address on. -/
def cellsWrite (m : List Host.Cell) (a : Nat) : List Byte → List Host.Cell
  | [] => m
  | b :: bs => cellsWrite (cellPut m a b) (a + 1) bs

/-- The memory with `n` bytes from `lo` zeroed. -/
def cellsZero (m : List Host.Cell) (lo n : Nat) : List Host.Cell :=
  m.filter fun c => decide (c.1 < lo ∨ lo + n ≤ c.1)

/-- `dst` with the `n` bytes at `to` taken from the bytes of `src` at `frm`. -/
def cellsCopy (src dst : List Host.Cell) (frm dest n : Nat) : List Host.Cell :=
  (src.filter fun c => decide (frm ≤ c.1 ∧ c.1 < frm + n)).foldl
    (fun m c => cellPut m (c.1 - frm + dest) c.2) (cellsZero dst dest n)

/-- The canonical form: addresses strictly rising, and no listed byte 0. -/
def Memory.wf : List Host.Cell → Bool
  | [] => true
  | [c] => c.2 != 0
  | c :: d :: r => c.2 != 0 && decide (c.1 < d.1) && Memory.wf (d :: r)

/-! ### The CSR file -/

/-- The raw value of a register: the stored one, or its cold-reset value. -/
def State.rd (s : State) (off : Nat) : Nat :=
  match Tab.get s.csr off with
  | some v => v.toNat
  | none => regReset off

/-- The state with a register's raw value set. -/
def State.wr (s : State) (off v : Nat) : State := { s with csr := Tab.put s.csr off (BitVec.ofNat 64 v) }

/-- A field of a register. -/
def State.fld (s : State) (off : Nat) (f : Nat × Nat) : Nat := bitsOf (s.rd off) f.1 f.2

/-- A one-bit field of a register. -/
def State.bit (s : State) (off : Nat) (f : Nat × Nat) : Bool := s.fld off f != 0

/-- The state with a field of a register set. -/
def State.setFld (s : State) (off : Nat) (f : Nat × Nat) (v : Nat) : State :=
  s.wr off (putBits (s.rd off) f.1 f.2 v)

/-- The state with a sticky bit set. -/
def State.raise (s : State) (off : Nat) (f : Nat × Nat) : State := s.setFld off f 1

/-- The state with a 64-bit counter advanced, modulo 2^64. -/
def State.bump (s : State) (off : Nat) (n : Nat := 1) : State := s.wr off ((s.rd off + n) % 2 ^ 64)

/-! ### Gates, time and free values -/

/-- The domains run: the device is not in reset, frozen or tripped. -/
def State.live (s : State) : Bool := !s.boot.inReset && !s.ras.frozen && !s.boot.tripped

/-- R485: rack time. -/
def State.now (s : State) : Nat := s.tb.now

/-- R706: the seat that is CAPTAIN, 0 for crank A. -/
def State.captain (s : State) : Option Nat :=
  if s.crank.roleA = .captain then some 0 else if s.crank.roleB = .captain then some 1 else none

/-- The boot stage (R822). -/
def State.stage (s : State) : Nat := s.fld R.TOP_BOOT F.TOP_BOOT_STAGE

/-- A free value: the next one drawn, and the state that has drawn it. -/
def State.draw (s : State) : Nat × State := (Config.freeValue s.drawn, { s with drawn := s.drawn + 1 })

/-- A meaning that the table's row gives only when `c` holds; otherwise the event is not due and nothing changes. -/
def whenDue (c : Bool) (s : State) (t : State) : State := if c then t else s

/-- R168, R420, R703: the requesters that reach a restricted register. -/
def reaches (who : Who) : Bool := who == .lamplighter || who == .mgmt || who == .jtag

/-! ### Places of the device address space (R20 to R29, R40 to R42) -/

/-- R22, R25, R26: the lantern that fills slot `m`, if one does. -/
def State.lanternOf (s : State) (m : Nat) : Option Nat :=
  let n := 17 * (m / 16) + m % 16
  let sp := 17 * (m / 16) + 16
  let fills (l : Nat) : Bool := s.bit (R.LAN_REP_STAT l) F.LAN_REP_STAT_FILLS
    && s.fld (R.LAN_REP_STAT l) F.LAN_REP_STAT_SLOT == m
  if m < 64 then (if fills n then some n else if fills sp then some sp else none) else none

/-- R786: the slot lantern `n` fills, if it fills one. -/
def State.slotOf (s : State) (n : Nat) : Option Nat :=
  if n < 68 ∧ s.bit (R.LAN_REP_STAT n) F.LAN_REP_STAT_FILLS then some (s.fld (R.LAN_REP_STAT n) F.LAN_REP_STAT_SLOT)
  else none

/-- R24, R27: the physical position 17n + w of the wick that carries a number, if one does. -/
def State.wickPos (s : State) (w : Nat) : Option Nat :=
  let m := if w < 1024 then w / 16 else w - 1024
  let i := if w < 1024 then w % 16 else 16
  match s.lanternOf m with
  | none => none
  | some n => if w < 1088 ∧ !bitAt (s.fld (R.LAN_REP_STAT n) F.LAN_REP_STAT_WICK_FAIL) i then some (17 * n + i) else none

/-- R24, R26, R27: the number the wick at a physical position carries, if it carries one. -/
def State.wickNum (s : State) (pos : Nat) : Option Nat :=
  let n := pos / 17
  let i := pos % 17
  match s.slotOf n with
  | none => none
  | some m =>
    if bitAt (s.fld (R.LAN_REP_STAT n) F.LAN_REP_STAT_WICK_FAIL) i then none
    else some (if i = 16 then 1024 + m else 16 * m + i)

/-- The key in `mem` of byte `off` of the lantern store of lantern `n`. -/
def lstoreKey (n off : Nat) : Nat := 0x8000000000 + n * 0x400000 + off

/-- The key in `mem` of byte `off` of the wax at physical position `pos`. -/
def waxKey (pos off : Nat) : Nat := 0x9000000000 + pos * 0x40000 + off

/-- The key in `mem` of byte `off` of the code store of lantern `n`. -/
def codeKey (n off : Nat) : Nat := 0xA000000000 + n * 0x40000 + off

/-- R40, R42: where a device address leads. -/
inductive Place where
  | cell (key : Nat)
  | csr (off : Nat)
  | doorbell (inst off : Nat)
  | mailbox (inst off : Nat)
  | unassigned
deriving DecidableEq, Repr

/-- R40 to R42, R850, R851: the place of a device address. -/
def State.place (s : State) (a : Nat) : Place :=
  if a < 0x4800000000 then .cell a
  else if 0x8000000000 ≤ a ∧ a < 0x8000000000 + 68 * 0x400000 then
    (if (a - 0x8000000000) % 0x400000 < 0x200000 then .cell a else .unassigned)
  else if 0x9000000000 ≤ a ∧ a < 0x9000000000 + 1088 * 0x40000 then
    let w := (a - 0x9000000000) / 0x40000
    let o := (a - 0x9000000000) % 0x40000
    match s.wickPos w with
    | some p => if o < 0x20000 then .cell (waxKey p o) else .unassigned
    | none => .unassigned
  else if 0xFE00000000 ≤ a ∧ a < 0xFE10000000 then
    (if occupied (a - 0xFE00000000) then .csr (a - 0xFE00000000) else .unassigned)
  else if 0xFF00000000 ≤ a ∧ a < 0xFF00000000 + 1025 * 0x1000 then
    .doorbell ((a - 0xFF00000000) / 0x1000) (a % 0x1000)
  else if 0xFF10000000 ≤ a ∧ a < 0xFF10000000 + 1025 * 0x1000 then
    .mailbox ((a - 0xFF10000000) / 0x1000) (a % 0x1000)
  else .unassigned

/-- R672: the poisoned beats that `n` bytes at `a` touch. -/
def State.poisoned (s : State) (a n : Nat) : Bool :=
  s.poison.any fun p => decide (p < a + n ∧ a < p + 32)

/-- R672: poison as it stands after `n` bytes are written at `a`: whole beats are cleared, others kept. -/
def clearPoison (ps : List Nat) (a n : Nat) : List Nat := ps.filter fun p => !decide (a ≤ p ∧ p + 32 ≤ a + n)

/-- Bytes of `mem` from a key on. -/
def State.peek (s : State) (a n : Nat) : List Byte := cellsRead s.mem a n

/-- The state with bytes of `mem` written from a key on, poison of whole beats cleared (R672). -/
def State.poke (s : State) (a : Nat) (bs : List Byte) : State :=
  { s with mem := cellsWrite s.mem a bs, poison := clearPoison s.poison a bs.length }

/-- The state with `n` bytes of `mem` from a key on zeroed. -/
def State.wipe (s : State) (a n : Nat) : State :=
  { s with mem := cellsZero s.mem a n, poison := clearPoison s.poison a n }

/-- The key in `hostMem` of a host address behind a port. -/
def hostKey (port a : Nat) : Nat := port * 2 ^ 64 + a

/-! ### The RAS error log (R773 to R776) and the change journal (R596 to R599) -/

/-- `REQUESTER` of R774. -/
def whoCode : Who → Nat
  | .wick => 0 | .reservoir => 1 | .chain => 2 | .mgmt => 3 | .jtag => 4 | .lamplighter => 5 | .other => 6

/-- `SOURCE` of R597 for an access made by `who`. -/
def whoSource : Who → Nat
  | .mgmt => 2 | .jtag => 3 | _ => 4

/-- What a RAS record reports (R774). -/
structure RasEvent where
  kind : Nat
  cls : Nat := 0
  unit : Nat := 0
  detail : Nat := 0
  addr : Nat := 0
  inst : Nat := 0xFFFF
  gen : Nat := 0
  who : Who := .other

/-- R774: bytes 0 to 59 of a record, then its `CRC`. -/
def rasBytes (seq time : Nat) (e : RasEvent) : List Byte :=
  let b := le seq 8 ++ le time 8 ++ le e.kind 1 ++ le e.cls 1 ++ le e.unit 2 ++ le e.detail 4 ++ le e.addr 8
    ++ le e.inst 2 ++ le e.gen 2 ++ le (whoCode e.who) 1 ++ zeros 23
  b ++ le (crc32c b) 4

/-- R773: a record written to the log; the oldest is overwritten when 4,096 are held. -/
def State.rasLog (s : State) (e : RasEvent) : State :=
  let seq := s.rd R.RAS_LOG_NEXT
  let log := s.ras.log ++ [rasBytes seq s.now e]
  let full := decide (4096 < log.length)
  let s := { s with ras := { s.ras with log := if full then log.drop 1 else log } }
  let s := s.bump R.RAS_LOG_NEXT
  if full then s.bump R.RAS_LOG_WRAPS else s

/-- R776: a corrected error of a unit: at most one `KIND` 0x03 record per unit and second; further ones raise its
`DETAIL` and count in `RAS_CE_SUPPRESSED`. The correction is stamped for the windows of R780. -/
def State.corrected (s : State) (cls unit detail addr : Nat) : State :=
  let sec := s.now / 1000000000
  let s := { s with ras := { s.ras with ce := s.ras.ce ++ [(cls, unit, detail, s.now)] } }
  match s.ras.ceSec.find? fun e => decide (e.1 = cls ∧ e.2.1 = unit ∧ e.2.2.1 = sec) with
  | some (_, _, _, seq) =>
    let fix (r : List Byte) : List Byte :=
      if fieldAt r 0 8 = seq then
        let b := patch (r.take 60) 20 (le (fieldAt r 20 4 + 1) 4)
        b ++ le (crc32c b) 4
      else r
    { s with ras := { s.ras with log := s.ras.log.map fix } }.bump R.RAS_CE_SUPPRESSED
  | none =>
    let seq := s.rd R.RAS_LOG_NEXT
    let keep := s.ras.ceSec.filter fun e => !decide (e.1 = cls ∧ e.2.1 = unit)
    { s with ras := { s.ras with ceSec := (cls, unit, sec, seq) :: keep } }.rasLog
      { kind := 3, cls := cls, unit := unit, detail := 1, addr := addr }

/-- What a journal record reports (R597, R598). -/
structure JEntry where
  source : Nat := 4
  action : Nat
  srcInst : Nat := 0xFFFF
  srcGen : Nat := 0
  target : Nat := 0xFFFF
  object : Nat := 0
  old : Nat := 0
  new : Nat := 0
  field : Nat := 0
  tag : Nat := 0

/-- R597: bytes 8 to 59 of a record made at rack time `time`. -/
def jBody (time : Nat) (e : JEntry) : List Byte :=
  le time 8 ++ le e.source 1 ++ le e.action 1 ++ le e.srcInst 2 ++ le e.srcGen 2 ++ le e.target 2 ++ le e.object 8
    ++ le e.old 8 ++ le e.new 8 ++ le e.field 2 ++ le e.tag 2 ++ zeros 8

/-- R599: a record entered in the journal under the next `SEQ`; the oldest is overwritten when 16,384 are held. -/
def State.journalPut (s : State) (body : List Byte) : State :=
  let b := le (s.rd R.JNL_NEXT) 8 ++ body
  let j := s.journal ++ [b ++ le (crc32c b) 4]
  let full := decide (16384 < j.length)
  let s := { s with journal := if full then j.drop 1 else j }.bump R.JNL_NEXT
  let s := s.setFld R.JNL_STAT F.JNL_STAT_COUNT (s.journal.length)
  if full then s.bump R.JNL_WRAPS else s

/-- The claim of a seat. -/
def State.claimOf (s : State) (seat : Nat) : Nat :=
  if seat = 1 then s.fld R.CRK_CLAIM F.CRK_CLAIM_CLAIM_B else s.fld R.CRK_CLAIM F.CRK_CLAIM_CLAIM_A

/-- R709: the claim that instructions carry: that of the captain, and in a gap that of the seat that takes over. -/
def State.claim (s : State) : Nat :=
  match if s.crank.gap then s.crank.taking else s.captain with
  | some seat => s.claimOf seat
  | none => s.claimOf 0

/-- R713: an instruction put into an output stage's outbox, tagged with the stroke in progress. -/
def State.sendOut (s : State) (stage inst gen : Nat) (act : OutAct) : State :=
  { s with outbox := s.outbox ++ [{ stage := stage, stroke := s.crank.stroke, claim := s.claim,
                                    inst := inst, gen := gen, act := act }] }

/-- R596: a change journalled. The captain's records pass through the journal recorder (R714); while no seat is captain
the always-on block records at once. -/
def State.journalRec (s : State) (e : JEntry) : State :=
  match s.captain with
  | some _ => s.sendOut 5 0 0 (.journal (jBody s.now e))
  | none => s.journalPut (jBody s.now e)

/-! ### Alerts (R809, R825) -/

/-- R809: ALERT_N is asserted. -/
def State.alertAsserted (s : State) : Bool := (s.rd R.TOP_ALERT &&& s.rd R.TOP_ALERTEN) % 32 != 0

/-- R809, R825: a bit of `TOP_ALERT` set; SMB_ALERT_N is asserted together with ALERT_N. -/
def State.alert (s : State) (f : Nat × Nat) : State :=
  let s := s.raise R.TOP_ALERT f
  if s.alertAsserted then { s with pins := { s.pins with smbAlertN := false } } else s

end Sys2Proof.Machine
end

