-- ==== Sys2Proof/Machine/QueueOps.lean ====
section
/-! DEFINITION. Shared operations over rings, accepted commands and their completion (R526 to R553, R572): index
arithmetic, when a command may start, and what finishing one does. -/
namespace Sys2Proof.Machine

/-! ### Indices (R527 to R529) -/

/-- R528: the linear value of an index in a ring of `n` slots. -/
def linear (n idx : Nat) : Nat := (if bitAt idx 16 then n else 0) + idx % 65536

/-- R527, R528: the index of a linear value. -/
def ofLinear (n l : Nat) : Nat := if l % (2 * n) < n then l % (2 * n) else l % (2 * n) - n + 65536

/-- R528: an index advanced by `k` slots. -/
def advance (n idx k : Nat) : Nat := ofLinear n (linear n idx + k)

/-- R529: occupancy between two indices. -/
def occupancy (n head tail : Nat) : Nat := (linear n tail + 2 * n - linear n head) % (2 * n)

/-- R526: the ring size of a queue, in slots. -/
def Queue.n (q : Queue) : Nat := 2 ^ q.sizeLog2

/-- The queue is a COMMAND or ADMIN queue: the host is the producer. -/
def Queue.submits (q : Queue) : Bool := decide (q.typ = 0 ∨ q.typ = 1)

/-- R526: the host address of the slot at a position. -/
def Queue.slotAddr (q : Queue) (pos : Nat) : Nat := (q.base + 64 * pos) % 2 ^ 64

/-- R573: a queue comes into being: no value stored in its registers while it was ABSENT survives (log entry 168). -/
def State.bringQueue (s : State) (g : Nat) (q : Queue) : State :=
  ((({ s with queues := Tab.put s.queues g q }).wr (R.QM_QCFG g) 0).wr (R.QM_QBASE g) 0).wr (R.QM_QMIRROR g) 0

/-- R644, R657: every byte of a write has arrived. -/
def Write.arrived (w : Write) : Bool := decide (w.asked = w.len ∧ 0 < w.len) && w.reqs.all (·.sat)

/-! ### Status codes (R572) -/

namespace Status
abbrev ok : Nat := 0x0000
abbrev okTruncated : Nat := 0x0001
abbrev invalidOpcode : Nat := 0x0101
abbrev invalidField : Nat := 0x0102
abbrev invalidLength : Nat := 0x0103
abbrev invalidQueue : Nat := 0x0104
abbrev chainBroken : Nat := 0x0105
abbrev invalidDelay : Nat := 0x0106
abbrev staleGeneration : Nat := 0x0107
abbrev noResource : Nat := 0x0201
abbrev quotaExceeded : Nat := 0x0202
abbrev busy : Nat := 0x0203
abbrev queuesNotIdle : Nat := 0x0204
abbrev dataOverrun : Nat := 0x0301
abbrev dataUnderrun : Nat := 0x0302
abbrev chunkCorrupt : Nat := 0x0303
abbrev checkMismatch : Nat := 0x0304
abbrev trapIllegal : Nat := 0x0401
abbrev trapAddress : Nat := 0x0402
abbrev trapDivzero : Nat := 0x0403
abbrev trapWatchdog : Nat := 0x0404
abbrev aggOverflow : Nat := 0x0405
abbrev resultStall : Nat := 0x0406
abbrev deadlineMissed : Nat := 0x0407
abbrev spillFull : Nat := 0x0408
abbrev trapBreak : Nat := 0x0409
abbrev tableLoadFailed : Nat := 0x040A
abbrev foldTableFull : Nat := 0x040B
abbrev authFailed : Nat := 0x0501
abbrev keySlotEmpty : Nat := 0x0502
abbrev wrapInvalid : Nat := 0x0503
abbrev uncorrectable : Nat := 0x0601
abbrev linkLost : Nat := 0x0602
abbrev repairExhausted : Nat := 0x0603
abbrev abortedFlush : Nat := 0x0701
abbrev abortedReset : Nat := 0x0702
abbrev abortedHost : Nat := 0x0703
abbrev fwChanged : Nat := 0x0704
end Status

/-! ### Accepted commands -/

/-- The key of the management port's command in `cmds`; ring commands are keyed g × 65,536 + position of the first
slot (R841). -/
def mgmtKey : Nat := 2 ^ 30

/-- The byte of a command's parameter stream at Pn, and wider little-endian fields. -/
def Cmd.p (c : Cmd) (o n : Nat) : Nat := fieldAt c.prm o n

/-- R548: the byte offset of Pn from byte 0 of the `FIRST` entry, the chain's slots taken as 64-byte units. -/
def prmOffset : List (Nat × Nat) → Nat → Nat → Nat
  | [], base, n => base + 8 + n
  | (_, u) :: r, base, n =>
    if n < 40 then base + 8 + n
    else if n < 40 + 64 * (u - 1) then base + 64 + (n - 40)
    else prmOffset r (base + 64 * u) (n - (40 + 64 * (u - 1)))

/-- R548: the residue of `INVALID_FIELD` for the field at Pn, bit `b`. -/
def Cmd.fieldResidue (c : Cmd) (n : Nat) (b : Nat := 0) : Nat := prmOffset c.ents 0 n * 8 + b

/-- R542: bits [43:20] of a rack time. -/
def time24 (t : Nat) : Nat := (t / 2 ^ 20) % 2 ^ 24

/-- R542: bytes 48 to 63 of every entry of a finished command. -/
def Cmd.area (c : Cmd) : List Byte :=
  le c.status 2 ++ le c.residue 4 ++ le c.result 4 ++ le c.startT 3 ++ le c.endT 3

/-- R552: the region bytes a command reads or writes: region, offset, length (whole regions as the largest length). -/
def Cmd.ranges (c : Cmd) : List (Nat × Nat × Nat) :=
  let whole := 2 ^ 64
  if c.opcode = 0x40 ∨ c.opcode = 0x41 then [(c.p 0 4, c.p 8 8, c.p 16 4)]
  else if c.opcode = 0x42 then [(c.p 0 4, c.p 8 8, c.p 24 8), (c.p 4 4, c.p 16 8, c.p 24 8)]
  else if c.opcode = 0x44 then [(c.p 0 4, 0, whole)]
  else if c.opcode = 0x48 then [(c.p 0 4, c.p 8 8, whole)]
  else if c.opcode = 0x4A then
    ((List.range (min (c.p 7 1) 16)).map fun j => (c.p (40 + 16 * j) 4, 0, whole))
      ++ ((List.range (min (c.p 8 1) 16)).map fun j => (c.p (296 + 4 * j) 4, 0, whole))
  else []

/-- R552: two ranges share a byte. -/
def rangesMeet (a b : List (Nat × Nat × Nat)) : Bool :=
  a.any fun x => b.any fun y => decide (x.1 = y.1 ∧ x.2.1 < y.2.1 + y.2.2 ∧ y.2.1 < x.2.1 + x.2.2)

/-- R550 to R553, R741: an earlier unfinished command `e` of the device holds back command `c`. -/
def holdsBack (c e : Cmd) : Bool :=
  let sameQ := decide (e.g = c.g)
  let ordered := bitAt c.flags 2 || decide (c.opcode = 0x58)
  let barrier := bitAt e.flags 3 || decide (e.opcode = 0x58)
  !e.finished && !e.mgmt && decide (e.seq < c.seq) &&
    ((sameQ && (ordered || barrier || rangesMeet c.ranges e.ranges
        || decide (c.opcode = 0x50 ∧ e.opcode = 0x50 ∧ c.p 2 2 = e.p 2 2)))
      || (decide (c.opcode = 0x58 ∧ c.p 0 1 % 2 = 1 ∧ e.inst = c.inst)))

/-- R549 to R553: the command may start: nothing earlier holds it back. -/
def State.mayStart (s : State) (c : Cmd) : Bool :=
  c.mgmt || !(s.cmds.any fun e => holdsBack c e.2)

/-- Commands are served: the boot has reached `READY`, a seat is captain and its output stages do not hold for good. -/
def State.serving (s : State) : Bool :=
  s.live && decide (s.stage = 8) && s.captain.isSome && !s.crank.halted

/-- The accepted command under a key with an opcode, when it is unfinished and has started or may start. -/
def State.cmdDue (s : State) (key op : Nat) : Option Cmd :=
  match Tab.get s.cmds key with
  | none => none
  | some c =>
    if s.serving && decide (c.opcode = op) && !c.finished && !c.isOpen && (c.started || s.mayStart c) then some c else none

/-- R542: the command begins its first action. -/
def State.beginCmd (s : State) (key : Nat) : State :=
  { s with cmds := Tab.upd s.cmds key fun c =>
      if c.started then c else { c with started := true, startT := time24 s.now } }

/-- A field of the stored command changed. -/
def State.editCmd (s : State) (key : Nat) (f : Cmd → Cmd) : State := { s with cmds := Tab.upd s.cmds key f }

/-- R542, R572: a command finishes: its status area is fixed, and the head publisher is told to write it into every
entry (R548); the management port keeps it for code 0x04 (R826). -/
def State.finishCmd (s : State) (key status : Nat) (residue : Nat := 0) (result : Nat := 0) : State :=
  match Tab.get s.cmds key with
  | none => s
  | some c =>
    let t := time24 s.now
    let c := { c with finished := true, status := status, residue := residue % 2 ^ 32,
                      result := result % 2 ^ 32, endT := t, startT := if c.started then c.startT else t }
    if c.mgmt then
      { s with cmds := Tab.del s.cmds key,
               boot := { s.boot with mgmtCmd := none, mgmtState := 2, mgmtArea := c.area } }
    else
      { s with cmds := Tab.put s.cmds key c }.sendOut 0 c.inst c.gen (.status key)

/-- A command that completes in the step that starts it. -/
def State.completeCmd (s : State) (key status : Nat) (residue : Nat := 0) (result : Nat := 0) : State :=
  (s.beginCmd key).finishCmd key status residue result

/-- R597: the journal source, instance and tag of a change made by a command. -/
def Cmd.journal (c : Cmd) (action target object old new : Nat) (field : Nat := 0) : JEntry :=
  { source := c.source, action := action,
    srcInst := if c.mgmt then 0xFFFF else c.inst, srcGen := if c.mgmt then 0 else c.gen,
    target := target, object := object, old := old, new := new, field := field, tag := c.tag }

/-! ### Queues and instances -/

/-- R532: the global number of local queue `loc` of instance `i`, if the queue exists. -/
def State.globalOf (s : State) (i loc : Nat) : Option Nat :=
  if loc = 0 then (if (Tab.at s.queues i).st ≠ .absent then some i else none)
  else (s.queues.find? fun e => decide (1024 < e.1) && e.2.st != .absent && e.2.inst == i && e.2.loc == loc).map (·.1)

/-- R575: the current generation of an instance; 0 for none. -/
def State.genOf (s : State) (i : Nat) : Nat := (Tab.at s.insts i).gen

/-- R564: the queue holds no accepted and unfinished entry and no pending status or mirror write. -/
def State.queueIdle (s : State) (g : Nat) : Bool :=
  !(s.cmds.any fun e => e.2.g == g && !e.2.mgmt && !e.2.written)
    && !(s.held.any fun h => match h.what with
          | .mirror g' => g' == g
          | .ring g' _ _ => g' == g
          | _ => false)
    && !(s.outbox.any fun o => match o.act with
          | .ring g' _ _ _ _ => g' == g
          | .index g' _ _ => g' == g
          | _ => false)

/-- R570: an event queued for an instance; it is discarded when the instance has no EVENT queue (at `EVENT_WRITE`). -/
def State.postEvent (s : State) (i : Nat) (e : Event) : State :=
  { s with insts := Tab.edit s.insts i fun x => { x with events := x.events ++ [e] } }

/-- R535, R541, R570: a queue enters OVERRUN with a cause, and the instance is told. -/
def State.overrun (s : State) (g cause : Nat) : State :=
  let q := Tab.at s.queues g
  let s := { s with queues := Tab.put s.queues g { q with st := .overrun, cause := cause } }
  let s := (s.raise R.QM_ERR F.QM_ERR_OVERRUN).bump R.QM_OVERRUNS
  s.postEvent q.inst { kind := 0xE1, loc := q.loc, time := s.now, detail := le cause 1 ++ zeros 47 }

end Sys2Proof.Machine
end

