-- ==== Sys2Proof/Machine/Image.lean ====
section
/-! DEFINITION. Reading a pipeline image: its sections, stage descriptors and plan entries (R424 to R436, R465), and the
run record's windows and areas (R432, R440, R511). An image is the list of its bytes. -/
namespace Sys2Proof.Machine

/-- R425: a directory entry: kind, `ID`, offset, length. -/
structure Section where
  kind : Nat
  id : Nat
  off : Nat
  len : Nat
deriving DecidableEq, Repr

/-- R424: the number of sections. -/
def Img.count (img : List Byte) : Nat := fieldAt img 6 2

/-- R425: directory entry `i`. -/
def Img.entry (img : List Byte) (i : Nat) : Section :=
  let o := 64 + 16 * i
  { kind := fieldAt img o 2, id := fieldAt img (o + 2) 2, off := fieldAt img (o + 4) 4, len := fieldAt img (o + 8) 4 }

/-- The directory. -/
def Img.sections (img : List Byte) : List Section := (List.range (Img.count img)).map (Img.entry img)

/-- R426: the section of a kind, if there is one. -/
def Img.find (img : List Byte) (kind : Nat) : Option Section := (Img.sections img).find? (·.kind == kind)

/-- The section of a kind with an `ID`. -/
def Img.byId (img : List Byte) (kind id : Nat) : Option Section :=
  (Img.sections img).find? fun x => x.kind == kind && x.id == id

/-- Where the section of a kind begins, 0 if there is none. -/
def Img.base (img : List Byte) (kind : Nat) : Nat := match Img.find img kind with | some x => x.off | none => 0

/-- How many entries of a size the section of a kind holds. -/
def Img.entries (img : List Byte) (kind size : Nat) : Nat :=
  match Img.find img kind with | some x => x.len / size | none => 0

/-- The stages of an image. -/
def Img.stages (img : List Byte) : Nat := Img.entries img 1 256

/-- R431: a field of stage descriptor `j`. -/
def Img.st (img : List Byte) (j o n : Nat) : Nat := fieldAt img (Img.base img 1 + 256 * j + o) n

/-- R431: the list of a stage descriptor up to the first 0xFF. -/
def Img.list (img : List Byte) (j o n : Nat) : List Nat :=
  ((List.range n).map fun i => Img.st img j (o + i) 1).takeWhile (· != 0xFF)

/-- R431: `FLAGS` bits: `NO_GATE`, `EMIT`, `ORDERED`. -/
def Img.noGate (img : List Byte) (j : Nat) : Bool := bitAt (Img.st img j 3 1) 0
def Img.emit (img : List Byte) (j : Nat) : Bool := bitAt (Img.st img j 3 1) 1
def Img.ordered (img : List Byte) (j : Nat) : Bool := bitAt (Img.st img j 3 1) 2

/-- An emitting stage: its rows go to the result ring. -/
def Img.emitting (img : List Byte) (j : Nat) : Bool := Img.emit img j && Img.st img j 34 2 == 0xFFFF

/-- R431: the slots tasks of a stage may run on. -/
def Img.slots (img : List Byte) (j : Nat) : List Nat :=
  let m := Img.st img j 16 8
  (List.range 64).filter fun i => m == 0 || bitAt m i

/-- R431: the stages that stage `j` waits on. -/
def Img.waits (img : List Byte) (j : Nat) : List Nat := (List.range 64).filter fun i => bitAt (Img.st img j 8 8) i

/-- R432: a window descriptor: kind, flags, source, offset, length. -/
structure WinDesc where
  kind : Nat
  flags : Nat
  source : Nat
  off : Nat
  len : Nat
deriving DecidableEq, Repr

/-- R432: window `i` of stage `j`. -/
def Img.win (img : List Byte) (j i : Nat) : WinDesc :=
  let f := fun o n => Img.st img j (64 + 16 * i + o) n
  { kind := f 0 1, flags := f 1 1, source := f 2 2, off := f 4 6, len := f 10 6 }

/-- R459: the lantern-store windows that stage `j` owns: offset, length. -/
def Img.owned (img : List Byte) (j : Nat) : List (Nat × Nat) :=
  (List.range 8).filterMap fun i =>
    let w := Img.win img j i
    if w.kind = 1 ∧ bitAt w.flags 0 then some (w.off, w.len) else none

/-- R433: a field of exchange descriptor `d`, and the descriptor that carries an exchange number. -/
def Img.xch (img : List Byte) (d o n : Nat) : Nat := fieldAt img (Img.base img 4 + 160 * d + o) n
def Img.xchOf (img : List Byte) (num : Nat) : Option Nat :=
  (List.range (Img.entries img 4 160)).find? fun d => Img.xch img d 0 2 == num

/-- R434: fields of a hash-table plan, a Chandelier layout and a fold-table plan. -/
def Img.hash (img : List Byte) (i o n : Nat) : Nat := fieldAt img (Img.base img 5 + 16 * i + o) n
def Img.chd (img : List Byte) (i o n : Nat) : Nat := fieldAt img (Img.base img 6 + 16 * i + o) n
def Img.fold (img : List Byte) (i o n : Nat) : Nat := fieldAt img (Img.base img 7 + 32 * i + o) n

/-- R426: the formats and ladder descriptors of `SORTPLAN`. -/
def Img.formats (img : List Byte) : Nat :=
  match Img.find img 8 with | some x => fieldAt img x.off 2 | none => 0
def Img.ladders (img : List Byte) : Nat :=
  match Img.find img 8 with | some x => fieldAt img (x.off + 2) 2 | none => 0
def Img.format (img : List Byte) (f : Nat) : List Byte := slice img (Img.base img 8 + 64 + 64 * f) 64
def Img.ladder (img : List Byte) (i o n : Nat) : Nat :=
  fieldAt img (Img.base img 8 + 64 + 64 * Img.formats img + 64 * i + o) n

/-- R436: memory-plan area `i`: number, kind, size. -/
def Img.area (img : List Byte) (i : Nat) : Nat × Nat × Nat :=
  let o := Img.base img 9 + 16 * i
  (fieldAt img o 2, fieldAt img (o + 2) 1, fieldAt img (o + 8) 8)
def Img.areas (img : List Byte) : List (Nat × Nat × Nat) :=
  (List.range (Img.entries img 9 16)).map (Img.area img)

/-- R465: `COLUMNS` and `ROW_LEN` of the result layout; column `c`'s field. -/
def Img.columns (img : List Byte) : Nat := fieldAt img (Img.base img 10) 2
def Img.rowLen (img : List Byte) : Nat := fieldAt img (Img.base img 10 + 2) 2
def Img.column (img : List Byte) (c o n : Nat) : Nat := fieldAt img (Img.base img 10 + 8 + 8 * c + o) n

/-- R440: a run's memory-plan area by number: device address, size. -/
def Run.area (r : Run) (no : Nat) : Option (Nat × Nat) :=
  (r.areas.find? fun a => a.1 == no).map fun a => (a.2.2.1, a.2.2.2)

/-- R511: the eight far windows of a stage: kind (0 NONE, 1 LSTORE, 2 HBM), base, length. An HBM window's base is a
device address. -/
def State.windows (s : State) (r : Run) (img : List Byte) (j : Nat) : List (Nat × Nat × Nat) :=
  (List.range 8).map fun i =>
    let w := Img.win img j i
    if w.kind = 1 then (1, w.off, w.len)
    else if w.kind = 2 then
      if bitAt w.flags 1 then
        match r.area w.source with
        | some (a, size) => if w.off + w.len ≤ size then (2, a + w.off, w.len) else (0, 0, 0)
        | none => (0, 0, 0)
      else
        match Tab.get s.regions (r.regions.getD w.source 0) with
        | some g => if g.inst = r.inst ∧ w.off + w.len ≤ g.size then (2, g.base + w.off, w.len) else (0, 0, 0)
        | none => (0, 0, 0)
    else (0, 0, 0)

/-- The image of a run's pipeline. -/
def State.imgOf (s : State) (r : Run) : List Byte := (Tab.at s.pipes r.pipe).img

/-- The run of a context, and its image. -/
def State.runOf (s : State) (ctx : Nat) : Run := Tab.at s.runs (Tab.at s.ctxs ctx).run

end Sys2Proof.Machine
end

