-- ==== Sys2Proof/Machine/Flags.lean ====
section
/-! DEFINITION. Float arithmetic and its flags: binary32 and binary64 operations with the `FFLAGS` bits they raise, the
order and representatives of R56 to R59, and the conversions (R173, R232 to R234). -/
namespace Sys2Proof.Machine

/-- R172: `FFLAGS` bits. -/
abbrev ffNX : Nat := 1
abbrev ffUF : Nat := 2
abbrev ffOF : Nat := 4
abbrev ffDZ : Nat := 8
abbrev ffNV : Nat := 16

/-- Fraction bits of the float of width `w`. -/
def fracBits (w : Nat) : Nat := if w = 32 then 23 else 52

/-- Exponent bits of the float of width `w`. -/
def expBits (w : Nat) : Nat := w - 1 - fracBits w

/-- The bit pattern of +∞. -/
def fInf (w : Nat) : Nat := (2 ^ expBits w - 1) * 2 ^ fracBits w

/-- R233: the one NaN that operations produce. -/
def fNaN (w : Nat) : Nat := fInf w + 2 ^ (fracBits w - 1)

/-- The magnitude bits of a float. -/
def fMag (w x : Nat) : Nat := x % 2 ^ (w - 1)

def fNeg (w x : Nat) : Bool := x % 2 ^ w ≥ 2 ^ (w - 1)

def fIsNaN (w x : Nat) : Bool := fMag w x > fInf w

def fIsInf (w x : Nat) : Bool := fMag w x == fInf w

/-- A signalling NaN: the first fraction bit is 0. -/
def fIsSNaN (w x : Nat) : Bool := fIsNaN w x && !Nat.testBit x (fracBits w - 1)

/-- The exponent of the last place of a subnormal. -/
def fEmin (w : Nat) : Int := if w = 32 then -149 else -1074

/-- A finite magnitude as an integer times a power of two. -/
def fSplit (w x : Nat) : Nat × Int :=
  let e := fMag w x / 2 ^ fracBits w
  let f := fMag w x % 2 ^ fracBits w
  if e = 0 then (f, fEmin w) else (f + 2 ^ fracBits w, fEmin w + (e - 1 : Int))

/-- The sign bit in place. -/
def fSign (w : Nat) (neg : Bool) : Nat := if neg then 2 ^ (w - 1) else 0

/-- `m` without its `sh` low bits, rounded to nearest, ties to even; whether it was inexact. `sticky` stands for a
non-zero part below `m`. -/
def roundOff (m sh : Nat) (sticky : Bool) : Nat × Bool :=
  let q := m >>> sh
  let r := m % 2 ^ sh
  let half := if sh = 0 then 0 else 2 ^ (sh - 1)
  let up := decide (0 < sh) && (decide (half < r) || (decide (r = half) && (sticky || decide (q % 2 = 1))))
  (if up then q + 1 else q, decide (r ≠ 0) || sticky)

/-- R232: the float nearest to ±(m + ε) × 2^e, with the flags NX, UF and OF it raises; tininess is detected after
rounding. A caller with `sticky` set gives at least two bits more than the fraction holds. -/
def fRound (w : Nat) (neg : Bool) (m : Nat) (e : Int) (sticky : Bool) : Nat × Nat :=
  if m = 0 ∧ !sticky then (fSign w neg, 0)
  else
    let p := fracBits w + 1
    let len := Nat.log2 m + 1
    let free : Int := e + len - p
    let q : Int := max free (fEmin w)
    let r := if q ≤ e then (m <<< (e - q).toNat, sticky) else roundOff m (q - e).toNat sticky
    let bits := (q - fEmin w).toNat * 2 ^ (p - 1) + r.1
    let least : Int := fEmin w + (p - 1 : Nat)
    let wouldCarry := decide (e + len = least) &&
      (if free ≤ e then false else (roundOff m (free - e).toNat sticky).1 == 2 ^ p)
    let tiny := decide (e + len - 1 < least) && !wouldCarry
    let spent := decide (fInf w ≤ bits)
    let nx := r.2 || spent
    (fSign w neg + (if spent then fInf w else bits),
      (if nx then ffNX else 0) + (if tiny && nx then ffUF else 0) + (if spent then ffOF else 0))

/-- The flags of a result that is a NaN by its operands: NV for a signalling one. -/
def fNaNOf (w a b : Nat) : Nat × Nat := (fNaN w, if fIsSNaN w a || fIsSNaN w b then ffNV else 0)

/-- `FADD` on one lane. -/
def fAdd (w a b : Nat) : Nat × Nat :=
  if fIsNaN w a || fIsNaN w b then fNaNOf w a b
  else if fIsInf w a then
    (if fIsInf w b && (fNeg w a != fNeg w b) then (fNaN w, ffNV) else (a % 2 ^ w, 0))
  else if fIsInf w b then (b % 2 ^ w, 0)
  else
    let x := fSplit w a
    let y := fSplit w b
    let e := min x.2 y.2
    let mx : Int := (x.1 <<< (x.2 - e).toNat : Nat)
    let my : Int := (y.1 <<< (y.2 - e).toNat : Nat)
    let s := (if fNeg w a then -mx else mx) + (if fNeg w b then -my else my)
    if s = 0 then (fSign w (fNeg w a && fNeg w b), 0)
    else fRound w (decide (s < 0)) s.natAbs e false

/-- `FSUB` on one lane. -/
def fSub (w a b : Nat) : Nat × Nat :=
  if fIsNaN w b then fNaNOf w a b else fAdd w a (b ^^^ 2 ^ (w - 1))

/-- `FMUL` on one lane. -/
def fMul (w a b : Nat) : Nat × Nat :=
  let neg := fNeg w a != fNeg w b
  if fIsNaN w a || fIsNaN w b then fNaNOf w a b
  else if fIsInf w a || fIsInf w b then
    (if fMag w a == 0 || fMag w b == 0 then (fNaN w, ffNV) else (fSign w neg + fInf w, 0))
  else
    let x := fSplit w a
    let y := fSplit w b
    fRound w neg (x.1 * y.1) (x.2 + y.2) false

/-- `FDIV` on one lane. -/
def fDiv (w a b : Nat) : Nat × Nat :=
  let neg := fNeg w a != fNeg w b
  if fIsNaN w a || fIsNaN w b then fNaNOf w a b
  else if fIsInf w a then (if fIsInf w b then (fNaN w, ffNV) else (fSign w neg + fInf w, 0))
  else if fIsInf w b then (fSign w neg, 0)
  else if fMag w b = 0 then
    (if fMag w a = 0 then (fNaN w, ffNV) else (fSign w neg + fInf w, ffDZ))
  else
    let x := fSplit w a
    let y := fSplit w b
    let n := x.1 <<< 120
    fRound w neg (n / y.1) (x.2 - y.2 - 120) (n % y.1 != 0)

/-- The integer square root, one bit of the result at a time. -/
def isqrt (n : Nat) (bits : Nat) : Nat :=
  (List.range bits).foldl (fun r i =>
    let t := r + 2 ^ (bits - 1 - i)
    if t * t ≤ n then t else r) 0

/-- `FSQRT` on one lane. -/
def fSqrt (w b : Nat) : Nat × Nat :=
  if fIsNaN w b then fNaNOf w b b
  else if fMag w b = 0 then (b % 2 ^ w, 0)
  else if fNeg w b then (fNaN w, ffNV)
  else if fIsInf w b then (b % 2 ^ w, 0)
  else
    let x := fSplit w b
    let odd := x.2 % 2 ≠ 0
    let n := x.1 <<< (if odd then 121 else 120)
    let e : Int := (if odd then x.2 - 1 else x.2) / 2 - 60
    let r := isqrt n 90
    fRound w false r e (r * r != n)

/-- R56: a key that orders floats: every NaN last, both zeros together. -/
def fKey (w x : Nat) : Int :=
  if fIsNaN w x then (2 ^ w : Nat) else if fNeg w x then -(fMag w x : Int) else (fMag w x : Int)

/-- R59: the representative of a float: +0 for zeros, the one NaN for NaNs. -/
def fCanon (w x : Nat) : Nat :=
  if fIsNaN w x then fNaN w else if fMag w x = 0 then 0 else x % 2 ^ w

/-- R234: the lesser under R56; equal operands give the representative. -/
def fMin (w a b : Nat) : Nat :=
  if fKey w a < fKey w b then a else if fKey w b < fKey w a then b else fCanon w a

/-- R234: the greater under R56; equal operands give the representative. -/
def fMax (w a b : Nat) : Nat :=
  if fKey w b < fKey w a then a else if fKey w a < fKey w b then b else fCanon w a

/-- `FCVTF` on one lane: the signed integer of width `w` as the nearest float. -/
def fOfInt (w b : Nat) : Nat × Nat :=
  let i := sgn w b
  fRound w (decide (i < 0)) i.natAbs 0 false

/-- `FCVTI` on one lane: toward zero; out of range saturates by sign with NV, a NaN gives 0 with NV. -/
def fToInt (w b : Nat) : Nat × Nat :=
  let top := 2 ^ (w - 1)
  if fIsNaN w b then (0, ffNV)
  else if fIsInf w b then (if fNeg w b then top else top - 1, ffNV)
  else
    let x := fSplit w b
    let mag := if 0 ≤ x.2 then x.1 <<< x.2.toNat else x.1 >>> (-x.2).toNat
    let nx := if x.2 < 0 ∧ x.1 % 2 ^ (-x.2).toNat ≠ 0 then ffNX else 0
    if fNeg w b then
      (if top < mag then (top, ffNV) else ((2 ^ w - mag) % 2 ^ w, nx))
    else (if top ≤ mag then (top - 1, ffNV) else (mag, nx))

/-- `FWIDEN` on one lane: binary32 to binary64, exact; a NaN gives the one NaN. -/
def fWiden (b : Nat) : Nat :=
  if fIsNaN 32 b then fNaN 64
  else if fIsInf 32 b then fSign 64 (fNeg 32 b) + fInf 64
  else
    let x := fSplit 32 b
    (fRound 64 (fNeg 32 b) x.1 x.2 false).1

/-- `FNARROW` on one lane: binary64 to binary32; a NaN gives the one NaN and no flag. -/
def fNarrow (b : Nat) : Nat × Nat :=
  if fIsNaN 64 b then (fNaN 32, 0)
  else if fIsInf 64 b then (fSign 32 (fNeg 64 b) + fInf 32, 0)
  else
    let x := fSplit 64 b
    fRound 32 (fNeg 64 b) x.1 x.2 false

end Sys2Proof.Machine
end

