-- ==== Sys2Proof/Machine/MemOps.lean ====
section
/-! DEFINITION. HBM addressing, reads through the fold units' write queues, and the Sconce (R380, R661 to R664, R672,
R689 to R694). -/
namespace Sys2Proof.Machine

/-- R661: the channel of a device address as 16s + u. -/
def chanOf (a : Nat) : Nat := 16 * ((a / 256) % 128 % 8) + (a / 256) % 128 / 8

/-- R661: the channel-local offset. -/
def chanLocal (a : Nat) : Nat := a / 32768 * 256 + a % 256

/-- R662: the device address of a channel-local offset of channel 16s + u. -/
def chanAddr (ch l : Nat) : Nat := l / 256 * 32768 + (8 * (ch % 16) + ch / 16) * 256 + l % 256

/-- R380: bytes read from `a` with a queued 64-byte line laid over them. -/
def overlay (a : Nat) (bs : List Byte) (line : Nat × List Byte) : List Byte :=
  if line.1 < a + bs.length ∧ a < line.1 + 64 then
    (List.range bs.length).zipWith (fun i b =>
      if line.1 ≤ a + i ∧ a + i < line.1 + 64 then line.2.getD (a + i - line.1) 0 else b) bs
  else bs

/-- R380, R664: a read of HBM: the youngest queued line that covers a byte, else memory. -/
def State.hbmRead (s : State) (a n : Nat) : List Byte :=
  s.foldQ.foldl (fun bs q => q.2.foldl (overlay a) bs) (s.peek a n)

/-- R661, R672: a read that touches a poisoned beat is counted and recorded with its `SOURCE`. -/
def State.noteUE (s : State) (a source : Nat) : State :=
  let ch := chanOf a
  let st := ch / 16
  let s := (s.raise (R.HBM_ERR st) F.HBM_ERR_UE).bump (R.HBM_UE_COUNT st)
  let s := s.rasLog { kind := 4, cls := 5, unit := ch, addr := a }
  s.wr (R.HBM_LASTUE st) (a / 32 * 32 + (ch % 16) * 2 ^ 40 + (chanLocal a / 256 % 2) * 2 ^ 44 + source * 2 ^ 45)

/-- R671: a corrected beat: `dq` is the lane of the corrected bit. -/
def State.noteCE (s : State) (a dq : Nat) : State :=
  let ch := chanOf a
  let st := ch / 16
  let s := (s.raise (R.HBM_ERR st) F.HBM_ERR_CE).bump (R.HBM_CE_COUNT st)
  let s := s.wr (R.HBM_LASTCE st) (a / 32 * 32 + (ch % 16) * 2 ^ 40 + (chanLocal a / 256 % 2) * 2 ^ 44 + dq % 64 * 2 ^ 45)
  s.corrected 5 ch (chanLocal a / 4096) a

/-- R671, R672: what the SECDED finds in the beat at `a`: 0 nothing, 1 a corrected bit, 2 an error it cannot correct. -/
def State.beatFault (s : State) (a fault dq : Nat) : State :=
  if fault = 1 then s.noteCE a dq
  else if fault = 2 then
    { s with poison := if s.poison.contains (a / 32 * 32) then s.poison else s.poison ++ [a / 32 * 32] }
  else s

/-- R671, R672: what the SECDED finds in beats of a range: address, 1 corrected or 2 not, DQ lane. -/
def State.beatFaults (s : State) (a n : Nat) (fs : List (Nat × Nat × Nat)) : State :=
  fs.foldl (fun s f => if a ≤ f.1 ∧ f.1 < a + n then s.beatFault f.1 f.2.1 f.2.2 else s) s

/-! ### The Sconce -/

/-- The lock of a lockable way of lantern `n`: its line address, if locked. -/
def State.lockOf (s : State) (n w : Nat) : Option Nat :=
  if w < 8 ∧ s.bit (R.LAN_SCN_LOCK n w) F.LAN_SCN_LOCK_LOCKED then
    some (s.fld (R.LAN_SCN_LOCK n w) F.LAN_SCN_LOCK_LINE) else none

/-- The index of the way that holds a line (by line number, address ÷ 128). -/
def Sconce.find (c : Sconce) (line : Nat) : Option Nat :=
  (List.range 32).find? fun w => (c.ways.getD w {}).valid && (c.ways.getD w {}).line == line

/-- R691: after a hit or fill of way `w` each bit on the path points away from it. Node i has children 2i + 1 and
2i + 2; way w is leaf 31 + w; a 0 bit points to the first child. -/
def plruTouch (bits w : Nat) : Nat :=
  (List.range 5).foldl (fun (st : Nat × Nat) _ =>
    let leaf := st.2
    let parent := (leaf - 1) / 2
    let first := decide (leaf % 2 = 1)
    (putBits st.1 parent 1 (if first then 1 else 0), parent)) (bits, 31 + w) |>.1

/-- The ways under a node. -/
def waysUnder (node : Nat) : List Nat :=
  (List.range 32).filter fun w =>
    let l := 31 + w
    let p1 := (l - 1) / 2
    let p2 := (p1 - 1) / 2
    let p3 := (p2 - 1) / 2
    let p4 := (p3 - 1) / 2
    [l, p1, p2, p3, p4, 0].contains node

/-- R691: the walk down the tree; a side wholly locked or filling is avoided. -/
def plruWalk (bits : Nat) (blocked : Nat → Bool) : Nat → Nat → Nat
  | 0, node => node - 31
  | fuel + 1, node =>
    if 31 ≤ node then node - 31
    else
      let side := 2 * node + 1 + (if bitAt bits node then 1 else 0)
      let other := 2 * node + 2 - (if bitAt bits node then 1 else 0)
      plruWalk bits blocked fuel (if (waysUnder side).all blocked then other else side)

/-- R691: the victim of a miss. -/
def State.victim (s : State) (n line : Nat) : Nat :=
  let c := Tab.at s.sconces n
  let locked := fun w => (s.lockOf n w).isSome
  match (List.range 8).find? fun w => s.lockOf n w == some line with
  | some w => w
  | none =>
    match (List.range 32).find? fun w => !locked w && !(c.ways.getD w {}).valid && !(c.ways.getD w {}).filling with
    | some w => w
    | none => plruWalk c.plru (fun w => locked w || (c.ways.getD w {}).filling) 6 0

/-- A Sconce changed. -/
def State.sconce (s : State) (n : Nat) (f : Sconce → Sconce) : State :=
  { s with sconces := Tab.edit s.sconces n f }

/-- R692, R694: the oldest dirty line of the eviction buffer is written back. -/
def State.drainOne (s : State) (n : Nat) : State :=
  let c := Tab.at s.sconces n
  match c.evict.find? (·.dirty) with
  | some e =>
    ((s.poke (128 * e.line) e.data).sconce n fun c => { c with evict := c.evict.erase e }).bump (R.LAN_SCN_WRITEBACKS n)
  | none => s

/-- R692: way `w` gives up its line: a dirty one goes to the eviction buffer, a clean one is dropped. -/
def State.vacate (s : State) (n w : Nat) : State :=
  let c := Tab.at s.sconces n
  let v := c.ways.getD w {}
  if !v.valid then s
  else
    let s := if v.dirty && decide (4 ≤ c.evict.length) then s.drainOne n else s
    let s := s.bump (R.LAN_SCN_EVICTS n)
    s.sconce n fun c =>
      { c with ways := c.ways.set w {}, evict := if v.dirty then c.evict ++ [{ v with home := w }] else c.evict }

/-- A way takes a line. -/
def State.place_ (s : State) (n w : Nat) (v : Way) : State :=
  s.sconce n fun c => { c with ways := c.ways.set w v, plru := plruTouch c.plru w }

/-- R690 to R693: a request makes its line valid in a way and answers the way: a hit, a line reinstated from the
eviction buffer, or a fill from the channel. -/
def State.sconceGet (s : State) (n line : Nat) : Nat × State :=
  let c := Tab.at s.sconces n
  match c.find line with
  | some w => (w, (s.sconce n fun c => { c with plru := plruTouch c.plru w }).bump (R.LAN_SCN_HITS n))
  | none =>
    match c.evict.find? (·.line == line) with
    | some e =>
      let s := if e.dirty then (s.poke (128 * line) e.data).bump (R.LAN_SCN_WRITEBACKS n) else s
      let s := s.sconce n fun c => { c with evict := c.evict.erase e }
      let w := s.victim n line
      let s := s.vacate n w
      (w, (s.place_ n w { line := line, valid := true, data := e.data }).bump (R.LAN_SCN_REINSTATES n))
    | none =>
      let w := s.victim n line
      let s := (s.vacate n w).bump (R.LAN_SCN_MISSES n)
      (w, s.place_ n w { line := line, valid := true, data := s.hbmRead (128 * line) 128 })

/-- R689, R690: bytes of one line written through the Sconce of lantern `n`. With `EN` 0 a miss allocates no way, and
a poisoned line keeps its poison in memory (R672). -/
def State.sconcePut (s : State) (n a : Nat) (bs : List Byte) : State :=
  let line := a / 128
  let c := Tab.at s.sconces n
  let held := (c.find line).isSome || c.evict.any (·.line == line)
  let fill := (List.range 32).find? fun w => (c.ways.getD w {}).filling && !(c.ways.getD w {}).valid
    && (c.ways.getD w {}).line == line
  match fill with
  | some w =>
    if s.poisoned (128 * line) 128 && bs.length != 128 then s.poke a bs
    else
      let v : Way := { line := line, valid := true, dirty := true, filling := true,
                       data := patch (s.hbmRead (128 * line) 128) (a % 128) bs }
      s.sconce n fun c => { c with ways := c.ways.set w v }
  | none =>
  if !held && (!s.bit (R.LAN_SCN_CTL n) F.LAN_SCN_CTL_EN || (s.poisoned (128 * line) 128 && bs.length != 128)) then
    s.poke a bs
  else
    let r := if bs.length = 128 ∧ !held then
        let w := s.victim n line
        (w, ((s.vacate n w).bump (R.LAN_SCN_MISSES n)).place_ n w { line := line, valid := true, data := bs })
      else s.sconceGet n line
    r.2.sconce n fun c =>
      { c with ways := c.ways.set r.1 { (c.ways.getD r.1 {}) with
          dirty := true, data := patch (c.ways.getD r.1 {}).data (a % 128) bs } }

/-- Bytes written to HBM through the Sconce of lantern `n`, line by line. -/
def State.sconceWrite (s : State) (n a : Nat) (bs : List Byte) : State :=
  let lines := (a + bs.length + 127) / 128 - a / 128
  (List.range lines).foldl (fun s i =>
    let lo := max a (128 * (a / 128 + i))
    let hi := min (a + bs.length) (128 * (a / 128 + i) + 128)
    s.sconcePut n lo (slice bs (lo - a) (hi - lo))) s

/-- R700: a dirty line of lantern `n`'s Sconce touches a range. -/
def State.dirtyIn (s : State) (n a len : Nat) : Bool :=
  let c := Tab.at s.sconces n
  (c.ways ++ c.evict).any fun v => v.dirty && decide (128 * v.line < a + len ∧ a < 128 * v.line + 128)

end Sys2Proof.Machine
end

