-- ==== Sys2Proof/Machine/SortOps.lean ====
section
/-! DEFINITION. The key former and the order of sort records (R393 to R400). -/
namespace Sys2Proof.Machine

/-- R52: the PLAIN element width of a type in bytes, with its `TYPE_ARG`; BOOL takes 1 byte where it stands alone. -/
def typeWidth (ty arg : Nat) : Nat :=
  match ty with
  | 0x01 | 0x02 | 0x06 => 1
  | 0x03 | 0x07 => 2
  | 0x04 | 0x08 | 0x0C | 0x0E | 0x11 => 4
  | 0x05 | 0x09 | 0x0A | 0x0D | 0x0F => 8
  | 0x0B => 16
  | 0x10 => arg
  | _ => 0

/-- R52: the type's values are signed integers. -/
def typeSigned (ty : Nat) : Bool := [0x02, 0x03, 0x04, 0x05, 0x0A, 0x0B, 0x0E, 0x0F].contains ty

/-- R398: the width of a field's normalised value. -/
def normWidth (ty arg : Nat) : Nat := if ty = 0x11 then arg + 1 else typeWidth ty arg

/-- R397, R398: the normalised form of a non-null value of a raw record. -/
def normValue (raw : List Byte) (ty src arg lenOff : Nat) : List Byte :=
  let w := typeWidth ty arg
  let n := fieldAt raw src w
  if ty = 0x01 then [BitVec.ofNat 8 (fieldAt raw src 1 % 2)]
  else if ty = 0x0C ∨ ty = 0x0D then
    let c := fCanon (8 * w) n
    be (if fNeg (8 * w) c then 2 ^ (8 * w) - 1 - c else c + 2 ^ (8 * w - 1)) w
  else if typeSigned ty then be (n ^^^ 2 ^ (8 * w - 1)) w
  else if ty = 0x10 then slice raw src arg
  else if ty = 0x11 then slice raw src arg ++ [BitVec.ofNat 8 (min (fieldAt raw lenOff 2) (arg + 1))]
  else be n w

/-- R396, R399, R400: one field of the key. -/
def normField (raw d : List Byte) : List Byte :=
  let ty := fieldAt d 0 1
  let flags := fieldAt d 2 1
  let arg := fieldAt d 3 1
  let v := normValue raw ty (fieldAt d 1 1) arg (fieldAt d 4 1)
  let v := if bitAt flags 0 then v.map fun b => b ^^^ 0xFF else v
  if bitAt flags 2 then
    let nb := fieldAt d 5 2
    let valid := bitAt (fieldAt raw (nb / 8) 1) (nb % 8)
    if valid then 1 :: v
    else (if bitAt flags 1 then 2 else 0) :: zeros (normWidth ty arg)
  else v

/-- R396: the descriptors of a format, up to the first `TYPE` 0. -/
def formatFields (fmt : List Byte) : List (List Byte) :=
  ((List.range 8).map fun i => slice fmt (8 * i) 8).takeWhile fun d => fieldAt d 0 1 != 0

/-- R395: the sort record of a raw record. -/
def sortRecord (fmt raw : List Byte) : List Byte :=
  let key := (formatFields fmt).flatMap (normField raw)
  (key ++ raw.drop key.length).take 64

/-- R420: the 64 bytes of format slot `f` of lantern `n`. -/
def State.fmtSlot (s : State) (n f : Nat) : List Byte :=
  (List.range 8).flatMap fun j => le (s.rd (R.LAN_SL_FMT n (8 * f + j))) 8

/-- R393: a record inserted into an ascending list. -/
def insertRec (r : Nat) : List Nat → List Nat
  | [] => [r]
  | x :: xs => if r ≤ x then r :: x :: xs else x :: insertRec r xs

/-- R394: records in ascending order. -/
def sortRecs : List Nat → List Nat
  | [] => []
  | x :: xs => insertRec x (sortRecs xs)

/-- R393: the records of some bytes, as big-endian numbers, and back. -/
def recsOf (bs : List Byte) : List Nat := (List.range (bs.length / 64)).map fun i => beNat (slice bs (64 * i) 64)
def bytesOfRecs (rs : List Nat) : List Byte := rs.flatMap fun r => be r 64

end Sys2Proof.Machine
end

