-- ==== Sys2Proof/Machine/TallyOps.lean ====
section
/-! DEFINITION. The Tally's shared operations: counting, and closing a minute (R600 to R606). -/
namespace Sys2Proof.Machine

/-- One minute, in ns. -/
def minuteNs : Nat := 60000000000

/-- R602: an instance's counts of the open minute changed. -/
def State.tallyAdd (s : State) (i : Nat) (f : Counts → Counts) : State :=
  { s with insts := Tab.upd s.insts i fun x => { x with counts := f x.counts } }

/-- R606: two minutes' counts added. -/
def Counts.add (a b : Counts) : Counts :=
  { wickCycles := a.wickCycles + b.wickCycles, rerunCycles := a.rerunCycles + b.rerunCycles,
    hbmRead := a.hbmRead + b.hbmRead, hbmWritten := a.hbmWritten + b.hbmWritten, decoded := a.decoded + b.decoded,
    link := a.link + b.link, memHeld := a.memHeld + b.memHeld, searches := a.searches + b.searches,
    foldOps := a.foldOps + b.foldOps }

/-- R605: minutes whose records are still held. -/
def State.heldMinutes (s : State) : Nat := ((s.tally.map (·.minute)).eraseDups).length

/-- R605: the tally ring, when local queue 1 of the manager is a RESULT queue. -/
def State.tallyRing (s : State) : Option Nat :=
  match s.globalOf 0 1 with
  | some g => if (Tab.at s.queues g).typ = 2 then some g else none
  | none => none

/-- R603: the flags of a minute that closes now, without `MERGED` and `NOKEY`. -/
def State.minuteFlags (s : State) (stepped : Bool) : Nat :=
  let st := s.fld R.TB_STAT F.TB_STAT_STATE
  (if st = 3 then 2 else 0) + (if s.tb.degraded ∨ st ≠ 1 then 4 else 0)
    + (if s.tb.stepped ∨ stepped then 8 else 0)
    + (if s.bit R.TB_STAT F.TB_STAT_TIME_VALID then 0 else 16)

/-- R606: a closed minute of one instance added to its merge record. -/
def mergeInto (ms : List TallyRec) (r : TallyRec) : List TallyRec :=
  if ms.any fun m => m.inst == r.inst then
    ms.map fun m =>
      if m.inst = r.inst then
        { m with end_ := r.end_, gen := r.gen, flags := (m.flags ||| r.flags) ||| 1,
                 span := min 65535 (m.span + r.span), counts := m.counts.add r.counts }
      else m
  else ms ++ [{ r with flags := r.flags ||| 1 }]

/-- R600, R605, R606: the minute closes with boundary `fin`: one record per instance that was not ABSENT at any moment
of it, held, or merged when 64 minutes are held. -/
def State.closeMinute (s : State) (fin : Nat) (stepped : Bool) : State :=
  let flags := s.minuteFlags stepped
  let recs : List TallyRec := (s.insts.filter fun e => e.2.seen || e.2.st != 0).map fun e =>
    { end_ := fin, inst := e.1, gen := e.2.gen, flags := flags, minute := s.tb.minutes, counts := e.2.counts }
  let merge := decide (64 ≤ s.heldMinutes)
  let s := if merge then
      let s := { s with merges := recs.foldl mergeInto s.merges }
      (s.raise R.INST_ERR F.INST_ERR_MERGED).bump R.INST_TALLY_MERGES
    else { s with tally := s.tally ++ recs }
  let s := match s.tallyRing with
    | some g =>
      let q := Tab.at s.queues g
      if q.n < occupancy q.n q.head q.prod + 2 then s.raise R.INST_ERR F.INST_ERR_HELD else s
    | none => s.raise R.INST_ERR F.INST_ERR_HELD
  { s with
    insts := s.insts.map fun e => (e.1, { e.2 with counts := {}, seen := e.2.st != 0 }),
    tb := { s.tb with boundary := fin, minutes := s.tb.minutes + 1, stepped := false,
                      degraded := s.fld R.TB_STAT F.TB_STAT_STATE != 1 } }

/-- R601: rack time has stepped from `old` to `new`: a forward step that reaches the next boundary closes the minute;
any other step marks its minute `STEPPED`. -/
def State.timeStepped (s : State) (old new : Nat) : State :=
  if old < new ∧ s.tb.boundary + minuteNs ≤ new then
    s.closeMinute (new / minuteNs * minuteNs) true
  else if old = new then s
  else { s with tb := { s.tb with stepped := true } }

end Sys2Proof.Machine
end

