-- ==== Sys2Proof/Machine/Time.lean ====
section
/-! DEFINITION. Rack time, the time base's states, PPS, slewing, `TIME_SET` and the cog (R485 to R509, R519 to R521,
R524, R525; 11_derailleur_time.md). -/
namespace Sys2Proof.Machine

/-- The time base's state (R495): 0 ACQUIRE, 1 LOCKED, 2 NOISY, 3 HOLDOVER. -/
def State.tbState (s : State) : Nat := s.fld R.TB_STAT F.TB_STAT_STATE

/-- The TB domain runs: PWRGOOD is high and no freeze or trip has stopped it. -/
def State.tbRuns (s : State) : Bool := s.pins.pwrgood && !s.ras.frozen && !s.boot.tripped

/-- The time base enters a state (R495); leaving LOCKED marks the minute (R603). -/
def State.tbEnter (s : State) (st : Nat) : State :=
  let s := s.setFld R.TB_STAT F.TB_STAT_STATE st
  if st = 1 then s else { s with tb := { s.tb with degraded := true } }

/-- R494 to R496: entry to HOLDOVER: the counter goes on from its value, `CLEAN` is 0. -/
def State.tbHoldover (s : State) : State :=
  if s.tbState = 3 then s
  else ((s.tbEnter 3).setFld R.TB_STAT F.TB_STAT_CLEAN 0).bump R.TB_HOLDOVERS

/-- R505: the effective trim, in 0.001 ppm. -/
def State.effectiveTrim (s : State) : Int :=
  let e := sgn 20 (s.fld R.TB_OSCTRIM F.TB_OSCTRIM_FACTORY) + sgn 20 (s.fld R.TB_OSCTRIM F.TB_OSCTRIM_USER)
  max (-100000) (min 100000 e)

/-- One TB cycle adds `ns` to the counter, and to every count that runs through TB cycles. -/
def State.tbAdvance (s : State) (ns : Nat) : State :=
  let lost := s.tb.refKnown && !s.bit R.TB_STAT F.TB_STAT_REF_OK
  { s with
    tb := { s.tb with now := (s.tb.now + ns) % 2 ^ 64, mono := s.tb.mono + ns, sinceEdge := s.tb.sinceEdge + ns,
                      lostFor := if lost then s.tb.lostFor + ns else 0, cogNs := s.tb.cogNs + ns,
                      refNs := s.tb.refNs + ns, oscNs := s.tb.oscNs + ns, slewCycles := s.tb.slewCycles + 1 },
    mrds := s.mrds.map fun m =>
      if s.fld (R.MLK_STAT m.port) F.MLK_STAT_STATE = 5 then { m with age := m.age + ns } else m,
    writes := s.writes.map fun e =>
      if s.fld (R.MLK_STAT (Tab.at s.queues ((Tab.at s.cmds e.1).g)).port) F.MLK_STAT_STATE = 5 then
        (e.1, { e.2 with reqs := e.2.reqs.map fun x => { x with idle := x.idle + ns } })
      else e }

/-- The TB cycle that passes when no command waits (R488): 4 ns. -/
def State.tick (s : State) : State := if s.tbRuns then s.tbAdvance 4 else s

/-- R489, R495: a 10 µs window of reference edges ends. -/
def refWindow (edges : Nat) (s : State) : State :=
  let good := if s.bit R.TB_STAT F.TB_STAT_REF_SEL then decide (248 ≤ edges ∧ edges ≤ 252)
    else decide (99 ≤ edges ∧ edges ≤ 101)
  let was := s.bit R.TB_STAT F.TB_STAT_REF_OK
  let known := s.tb.refKnown
  let s := s.setFld R.TB_STAT F.TB_STAT_REF_OK (b2n good)
  let s := { s with tb := { s.tb with refNs := 0, refKnown := true } }
  if good then { s with tb := { s.tb with lostFor := 0 } }
  else if was ∨ !known then
    let s := s.raise R.TB_ERR F.TB_ERR_REF_LOST
    let s := { s with tb := { s.tb with dirty := true, lostFor := 0 } }
    if s.tbState = 1 ∨ s.tbState = 2 then s.tbHoldover else s
  else { s with tb := { s.tb with dirty := true } }

/-- REF_WINDOW (R489, R494 to R496). -/
def execRefWindow (edges : Nat) (s : State) : Host.Outcome State Fault Refusal :=
  .next (whenDue s.tbRuns s (refWindow edges s))

/-- REF_LOSS_TIMEOUT (R495): in ACQUIRE, a loss of 1.5 s leads to HOLDOVER. -/
def execRefLossTimeout (s : State) : Host.Outcome State Fault Refusal :=
  .next (whenDue (s.tbRuns && decide (s.tbState = 0) && s.tb.refKnown && !s.bit R.TB_STAT F.TB_STAT_REF_OK
      && decide (1500000000 ≤ s.tb.lostFor)) s s.tbHoldover)

/-- R497: the phase error of an edge: its nanoseconds within the second, signed. -/
def phaseError (stamp : Nat) : Int :=
  let r := stamp % 1000000000
  if r < 500000000 then (r : Int) else (r : Int) - 1000000000

/-- R491, R492: an edge is discarded. -/
def ppsDiscard (stamp : Nat) (s : State) : State :=
  let sec := stamp / 1000000000
  let n := (if s.tb.discardSec = sec then s.tb.discards else 0) + 1
  let s := s.bump R.TB_GLITCH
  let s := { s with tb := { s.tb with discards := n, discardSec := sec, dirty := true } }
  let s := s.setFld R.TB_STAT F.TB_STAT_DISCARDS (min 31 n)
  if 16 < n ∧ s.tbState = 1 then (s.raise R.TB_ERR F.TB_ERR_NOISY).tbEnter 2 else s

/-- R494: `CLEAN` after an accepted edge. -/
def ppsClean (stamp : Nat) (s : State) : State :=
  let clean := match s.tb.lastEdge with
    | some l => decide (l + 999000000 ≤ stamp ∧ stamp ≤ l + 1001000000) && !s.tb.dirty
        && s.bit R.TB_STAT F.TB_STAT_REF_OK
    | none => false
  s.setFld R.TB_STAT F.TB_STAT_CLEAN (if clean then min 4 (s.fld R.TB_STAT F.TB_STAT_CLEAN + 1) else 0)

/-- R498 to R502: what an accepted edge does to the counter; the edge's own stamp afterwards is the second value. -/
def ppsPhase (stamp : Nat) (s : State) : State × Nat :=
  let e := phaseError stamp
  let s := s.wr R.TB_PHASE (ofSgn 32 e)
  let valid := s.bit R.TB_STAT F.TB_STAT_TIME_VALID
  match s.tb.tset with
  | some (t, key, recv) =>
    if recv + 4 + (s.now - stamp) ≤ s.tb.mono then
      let old := s.now
      let new := (t + (old - stamp)) % 2 ^ 64
      let c := Tab.at s.cmds key
      let s := { s with tb := { s.tb with now := new, tset := none, slew := 0 } }
      let s := s.setFld R.TB_STAT F.TB_STAT_TIME_VALID 1
      let s := s.timeStepped old new
      let s := s.journalRec (c.journal 0x10 0xFFFF 0 old new)
      (s.finishCmd key Status.ok, t)
    else (s, stamp)
  | none =>
    if !valid && decide (e ≠ 0) then
      let old := s.now
      let new := ofSgn 64 ((old : Int) - e)
      let s := { s with tb := { s.tb with now := new, slew := 0 } }
      (s.timeStepped old new, ofSgn 64 ((stamp : Int) - e))
    else if valid && decide (e.natAbs > 100000000) then
      ({ s with tb := { s.tb with slew := 0 } }.raise R.TB_ERR F.TB_ERR_PHASE, stamp)
    else if valid && decide (s.tbState ≠ 2) && s.bit R.TB_CTL F.TB_CTL_SLEW_EN then
      ({ s with tb := { s.tb with slew := -e } }, stamp)
    else ({ s with tb := { s.tb with slew := 0 } }, stamp)

/-- R491 to R502: an edge is accepted. -/
def ppsAccept (stamp : Nat) (s : State) : State :=
  let s := (s.bump R.TB_ACCEPTED)
  let s := ppsClean stamp s
  let r := ppsPhase stamp s
  let s := r.1
  let since := s.now - r.2
  let s := { s with tb := { s.tb with lastEdge := some r.2, sinceEdge := since,
                                      dirty := !s.bit R.TB_STAT F.TB_STAT_REF_OK } }
  if s.fld R.TB_STAT F.TB_STAT_CLEAN = 4 ∧ s.tbState ≠ 1 ∧ s.bit R.TB_CTL F.TB_CTL_FORCE_HOLD = false then s.tbEnter 1
  else s

/-- R490, R491: a pulse of TB_PPS whose run of high samples has ended. -/
def ppsPulse (samples stamp : Nat) (s : State) : State :=
  if samples < 13 then s.bump R.TB_RUNTS
  else
    let soon := match s.tb.lastEdge with
      | some l => decide (stamp < l + 900000000)
      | none => false
    if soon then ppsDiscard stamp s else ppsAccept stamp s

/-- PPS_PULSE (R485, R490 to R502, R596, R601): a pulse of `samples` high samples, the first stamped `stamp`. -/
def execPpsPulse (samples stamp : Nat) (s : State) : Host.Outcome State Fault Refusal :=
  .next (whenDue (s.tbRuns && decide (0 < samples ∧ stamp ≤ s.now)) s (ppsPulse samples stamp s))

/-- PPS_TIMEOUT (R493, R495): 1.5 s without an accepted edge, in LOCKED or NOISY. -/
def execPpsTimeout (s : State) : Host.Outcome State Fault Refusal :=
  .next (whenDue (s.tbRuns && decide (s.tbState = 1 ∨ s.tbState = 2) && decide (1500000000 ≤ s.tb.sinceEdge)) s
    ((s.raise R.TB_ERR F.TB_ERR_HOLDOVER).tbHoldover))

/-- R499: the one TB cycle in 40,000 that adds 3 ns or 5 ns. -/
def slewStep (s : State) : State :=
  let up := decide (0 < s.tb.slew)
  let s := s.tbAdvance (if up then 5 else 3)
  { s with tb := { s.tb with slew := if up then s.tb.slew - 1 else s.tb.slew + 1, slewCycles := 0 } }

/-- SLEW_STEP (R485, R499). -/
def execSlewStep (s : State) : Host.Outcome State Fault Refusal :=
  .next (whenDue (s.tbRuns && decide (s.tb.slew ≠ 0) && decide (39999 ≤ s.tb.slewCycles) && decide (s.tbState ≠ 2)
      && s.bit R.TB_CTL F.TB_CTL_SLEW_EN && s.bit R.TB_STAT F.TB_STAT_TIME_VALID) s (slewStep s))

/-- R506: the residual error saturates at ±524,287. -/
def oscMeasure (ppb : Int) (s : State) : State :=
  let v := max (-524287) (min 524287 ppb)
  let s := s.setFld R.TB_OSCTRIM F.TB_OSCTRIM_MEASURED (ofSgn 20 v)
  { s with tb := { s.tb with oscNs := 0 } }

/-- OSC_MEASURE (R506): the oscillator measured over a second, `ppb` in units of 0.001 ppm. -/
def execOscMeasure (ppb : Int) (s : State) : Host.Outcome State Fault Refusal :=
  .next (whenDue (s.tbRuns && s.bit R.TB_STAT F.TB_STAT_REF_OK && decide (1000000000 ≤ s.tb.oscNs)) s (oscMeasure ppb s))

/-- R509, R519: some delay list holds an entry. -/
def State.delaying (s : State) : Bool := s.delay.any fun e => !e.2.isEmpty

/-- R508, R525: a write of `DRL_COGCFG`. -/
def cogCfgWrite (val : Nat) (s : State) : State :=
  let p := bitsOf val 0 20
  let w := bitsOf val 20 16
  if s.delaying then s.raise R.DRL_ERR F.DRL_ERR_COG_BUSY
  else
    let bad := decide (p < 100 ∨ 1000000 < p ∨ w = 0)
    let s := if p < 100 ∨ 1000000 < p then s else s.setFld R.DRL_COGCFG F.DRL_COGCFG_PERIOD p
    let s := if w = 0 then s else s.setFld R.DRL_COGCFG F.DRL_COGCFG_LOADWIN w
    if bad then s.raise R.DRL_ERR F.DRL_ERR_BADCFG else s

/-- R596, R598: a write that changed a register is journalled when the management port or JTAG made it. -/
def State.journalCsr (before s : State) (who : Who) (off : Nat) : State :=
  if (who = .mgmt ∨ who = .jtag) ∧ before.rd off ≠ s.rd off then
    s.journalRec { source := whoSource who, action := 0x11, object := off, old := before.rd off, new := s.rd off }
  else s

/-- COGCFG_WRITE (R508, R525). -/
def execCogcfgWrite (who : Who) (val : Nat) (s : State) : Host.Outcome State Fault Refusal :=
  .next (whenDue s.live s (s.journalCsr (cogCfgWrite val s) who R.DRL_COGCFG))

/-! ### Ready lists, delay lists and the cog -/

/-- R513: a context joins the tail of the ready list of its slot and priority. -/
def State.readyPush (s : State) (i : Nat) : State :=
  let c := Tab.at s.ctxs i
  { s with ready := Tab.edit s.ready (8 * c.slot + c.prio) fun l => l ++ [i] }

/-- R513: a context becomes READY. -/
def State.makeReady (s : State) (i : Nat) : State :=
  let s := { s with ctxs := Tab.upd s.ctxs i fun c => { c with st := .ready, readyCog := s.cog, due := 0 } }
  s.readyPush i

/-- R509: an entry due at cog `d` is due. -/
def isDue (cog d : Nat) : Bool := decide ((cog + 2 ^ 32 - d % 2 ^ 32) % 2 ^ 32 < 2 ^ 31)

/-- R520: the due entries at the front of one delay list move to their ready lists, in list order. -/
def State.drainDelay (s : State) (l : Nat) : State :=
  let es := Tab.at s.delay l
  let due := es.takeWhile fun e => isDue s.cog e.1
  due.foldl (fun s e => s.makeReady e.2) { s with delay := Tab.put s.delay l (es.drop due.length) }

/-- R507, R520: a cog elapses. -/
def cogElapse (s : State) : State :=
  let s := { s with cog := (s.cog + 1) % 2 ^ 32,
                    tb := { s.tb with cogNs := s.tb.cogNs - s.fld R.DRL_COGCFG F.DRL_COGCFG_PERIOD,
                                      winCogs := s.tb.winCogs + 1 } }
  (List.range 16).foldl (fun s l => s.drainDelay l) s

/-- COG (R507, R509, R513, R519 to R521). -/
def execCog (s : State) : Host.Outcome State Fault Refusal :=
  .next (whenDue (s.live && decide (s.fld R.DRL_COGCFG F.DRL_COGCFG_PERIOD ≤ s.tb.cogNs)) s (cogElapse s))

/-- R509, R519: a context enters the delay list of its slot `d` cogs from now; a delay of 0 makes it ready at once. -/
def State.delayTask (s : State) (i d : Nat) : State :=
  if d = 0 then s.makeReady i
  else
    let due := (s.cog + d) % 2 ^ 32
    let l := (Tab.at s.ctxs i).slot / 4
    let before (e : Nat × Nat) : Bool := decide ((due + 2 ^ 32 - e.1) % 2 ^ 32 < 2 ^ 31)
    let s := { s with ctxs := Tab.upd s.ctxs i fun c => { c with st := .delayed, due := due } }
    { s with delay := Tab.edit s.delay l fun es =>
        es.takeWhile before ++ [(due, i)] ++ es.dropWhile before }

/-- R524: the load window ends; R588: the shares of the completed window. -/
def loadWindow (s : State) : State :=
  { s with
    tb := { s.tb with winCogs := 0, windows := (s.tb.windows + 1) % 2 ^ 24 },
    insts := s.insts.map fun e => (e.1, { e.2 with lastShare := e.2.curShare, curShare := 0 }),
    wicks := s.wicks.map fun e => (e.1, { e.2 with lastBusy := e.2.busy % 2 ^ 40, busy := 0 }) }

/-- LOAD_WINDOW (R524). -/
def execLoadWindow (s : State) : Host.Outcome State Fault Refusal :=
  .next (whenDue (s.live && decide (s.fld R.DRL_COGCFG F.DRL_COGCFG_LOADWIN ≤ s.tb.winCogs)) s (loadWindow s))

/-! ### TIME_SET -/

/-- R501 to R503: the time base receives a `TIME_SET`. -/
def timeSet (key : Nat) (c : Cmd) (s : State) : State :=
  let t := c.p 0 8
  if t % 1000000000 ≠ 0 ∨ t < 1000000000 then s.completeCmd key Status.invalidField (c.fieldResidue 0)
  else if s.tb.tset.isSome then s.completeCmd key Status.busy
  else
    let s := s.beginCmd key
    { s with tb := { s.tb with tset := some (t, key, s.tb.mono) } }

/-- TIME_SET (R501 to R503). -/
def execTimeSet (key : Nat) (s : State) : Host.Outcome State Fault Refusal :=
  match s.cmdDue key 0x1E with
  | some c => .next (whenDue (!c.started) s (timeSet key c s))
  | none => .next s

/-- TIME_SET_TIMEOUT (R504). -/
def execTimeSetTimeout (s : State) : Host.Outcome State Fault Refusal :=
  match s.tb.tset with
  | some (_, key, recv) =>
    .next (whenDue (s.tbRuns && decide (recv + 3000000000 ≤ s.tb.mono)) s
      ({ s with tb := { s.tb with tset := none } }.finishCmd key Status.busy))
  | none => .next s

/-- MINUTE_BOUNDARY (R600 to R603, R605, R606): rack time has reached the next boundary. -/
def execMinuteBoundary (s : State) : Host.Outcome State Fault Refusal :=
  .next (whenDue (s.tbRuns && decide (s.tb.boundary + minuteNs ≤ s.now)) s
    (s.closeMinute (s.tb.boundary + minuteNs) false))

end Sys2Proof.Machine
end

