-- ==== Sys2Proof/Machine/TaskOps.lean ====
section
/-! DEFINITION. What happens to a task around its words: the lantern monitor, staging areas, the end of a task's run and
the freeing of its staged output (R215 to R220, R374, R375, R407, R408, R453, R464). -/
namespace Sys2Proof.Machine

/-- One bit of a register field that holds a bit per unit. -/
def State.setBit (s : State) (off : Nat) (f : Nat × Nat) (i : Nat) (v : Bool) : State :=
  s.setFld off f (putBits (s.fld off f) i 1 (b2n v))

/-- A wick changed; `RUNNING` and `HELD` of its lantern follow (R216). -/
def State.putWick (s : State) (pos : Nat) (k : Wick) : State :=
  let n := pos / 17
  let s := { s with wicks := Tab.put s.wicks pos k }
  let run := decide (k.st = 1 ∨ k.st = 2)
  let s := if bitAt (s.fld (R.LAN_MON_STAT n) F.LAN_MON_STAT_RUNNING) (pos % 17) = run then s
    else s.setBit (R.LAN_MON_STAT n) F.LAN_MON_STAT_RUNNING (pos % 17) run
  if bitAt (s.fld (R.LAN_MON_STAT n) F.LAN_MON_STAT_HELD) (pos % 17) = decide (k.st = 2) then s
  else s.setBit (R.LAN_MON_STAT n) F.LAN_MON_STAT_HELD (pos % 17) (decide (k.st = 2))

/-- The wick at a physical position. -/
def State.wick (s : State) (pos : Nat) : Wick := Tab.at s.wicks pos

/-- R211, R524, R588, R602: a wick passes core cycles with its task. -/
def State.charge (s : State) (pos cyc : Nat) : State :=
  let k := s.wick pos
  let i := (Tab.at s.ctxs k.ctx).inst
  { s with
    wicks := Tab.put s.wicks pos { k with cycles := k.cycles + cyc, busy := k.busy + cyc },
    insts := Tab.upd s.insts i fun x =>
      { x with curShare := x.curShare + cyc, counts := { x.counts with wickCycles := x.counts.wickCycles + cyc } } }

/-- R218: what an outcome record says beyond the task's own fields. -/
structure Outcome where
  status : Nat
  flags : Nat := 0
  pc : Nat := 0
  word : Nat := 0
  addr : Nat := 0
  remain : Nat := 0
  check : Nat := 0
  codeBase : Nat := 0

/-- R217, R218, R220: the lantern monitor writes the outcome record of a task that ran on a wick and sets `TRAPPED`. -/
def State.outcomeOf (s : State) (pos ctx cycles fflags : Nat) (o : Outcome) : State :=
  let n := pos / 17
  let c := Tab.at s.ctxs ctx
  let b := le o.status 2 ++ le (pos % 17) 1 ++ le o.flags 1 ++ le c.inst 2 ++ le c.gen 2 ++ le ctx 4 ++ le o.pc 4
    ++ le o.word 8 ++ le o.addr 8 ++ le o.remain 4 ++ le o.check 1 ++ le fflags 1 ++ le c.stage 1 ++ le 0 1
    ++ le cycles 8 ++ le s.now 8 ++ le o.codeBase 4 ++ le c.taskNo 4
  let s := (List.range 8).foldl (fun s j => s.wr (R.LAN_MON_OUT n (8 * (pos % 17) + j)) (fieldAt b (8 * j) 8)) s
  (s.setBit (R.LAN_MON_STAT n) F.LAN_MON_STAT_TRAPPED (pos % 17) true).bump (R.LAN_MON_TRAPS n)

/-- The outcome record of the task a wick runs. -/
def State.outcome (s : State) (pos : Nat) (o : Outcome) : State :=
  let k := s.wick pos
  s.outcomeOf pos k.ctx k.cycles k.fflags o

/-! ### Staging -/

/-- R375, R453: 4,096-byte staging blocks of a context. -/
def Ctx.stageBlocks (c : Ctx) : Nat :=
  ceilDiv ((c.folds.map fun f => f.body.length).foldl (· + ·) 0) 4096 + ceilDiv c.emit.length 4096

/-- R375: blocks of a stage's staging area in use on a slot. -/
def State.stageUse (s : State) (run stage slot : Nat) : Nat :=
  (s.ctxs.map fun e =>
    if e.2.run = run ∧ e.2.stage = stage ∧ e.2.slot = slot ∧ e.2.st ≠ .free then e.2.stageBlocks else 0).foldl (· + ·) 0

/-- R375, R464: blocks of a `SPILL` area in use: landing blocks in it, and staging beyond the staging areas. -/
def State.spillUse (s : State) (run area : Nat) : Nat :=
  let r := Tab.at s.runs run
  let img := s.imgOf r
  let land := (s.blocks.filter fun b =>
    b.2.run == run && b.2.hbm && Img.xch img b.2.desc 6 2 == area).length
  let spent := (List.range (Img.stages img)).map fun j =>
    if Img.st img j 42 2 = area then
      ((List.range 64).map fun m => s.stageUse run j m - Img.st img j 40 2).foldl (· + ·) 0
    else 0
  land + spent.foldl (· + ·) 0

/-- R375, R464: the staging of context `i` still finds room when the context stands as in `s`. -/
def State.stageFits (s : State) (i : Nat) : Bool :=
  let c := Tab.at s.ctxs i
  let r := Tab.at s.runs c.run
  let img := s.imgOf r
  if s.stageUse c.run c.stage c.slot ≤ Img.st img c.stage 40 2 then true
  else
    match r.area (Img.st img c.stage 42 2) with
    | some (_, size) => decide (4096 * s.spillUse c.run (Img.st img c.stage 42 2) ≤ size)
    | none => false

/-- R469: a committed entry of a run waits for room in the result ring. -/
def State.resultWaits (s : State) (run : Nat) : Bool :=
  let r := Tab.at s.runs run
  r.stallSince.isSome && (r.cont.isSome || !r.deliver.isEmpty)

/-! ### The end of a task's run -/

/-- R407: a wick's ladder still has work of its task to do. -/
def Wick.ladderBusy (k : Wick) : Bool :=
  match k.ladder with
  | some l => (decide (l.mode = 2 ∨ l.mode = 3) && (!k.sealed.isEmpty || decide (k.bufRecs ≠ 0) || !k.heap.isEmpty))
      || (decide (l.mode = 4 ∧ l.output = 0) && !k.merged)
  | none => false

/-- Exchange output ports still hold slots, or a record half read. -/
def Wick.portsBusy (k : Wick) : Bool :=
  k.ports.any fun p => decide (0x020 ≤ p.num ∧ p.num ≤ 0x02F) && (decide (p.filled ≠ 0) || !p.carry.isEmpty)

/-- A wick with no task. -/
def Wick.idle (k : Wick) : Wick := { busy := k.busy, lastBusy := k.lastBusy }

/-- The name of a context's task in the ledger. -/
def Ctx.task (c : Ctx) : Nat := c.stage * 2 ^ 32 + c.taskNo

/-- R143: the last report of wick `pos`'s task to every ledger entry that waits for it. -/
def State.closeReports (s : State) (pos : Nat) : State :=
  let k := s.wick pos
  let c := Tab.at s.ctxs k.ctx
  if (match k.job with | some j => j.reported | none => true) then s
  else
    let es := s.ledger.filter fun e => e.2.run == c.run && e.2.planned.contains c.task
    let last (e : Nat × Ledger) : Report := { entry := e.1, ctx := k.ctx, task := c.task, wick := pos, last := true }
    { s with reports := s.reports ++ es.map last,
             wicks := Tab.upd s.wicks pos fun k => { k with job := k.job.map fun j => { j with reported := true } } }

/-- The wick leaves its task; what its ladder and exchange ports still hold of a successful run stays with it. -/
def State.leaveWick (s : State) (pos : Nat) (drain : Bool) : State :=
  let k := s.wick pos
  if drain && (k.ladderBusy || k.portsBusy) then
    s.putWick pos { k with st := 3, loads := [], job := none, stalled := false, atPoint := false }
  else s.putWick pos k.idle

/-- R210: the run of a task ends successfully; the commit check follows (R454). -/
def State.endTask (s : State) (pos : Nat) : State :=
  let s := s.closeReports pos
  let k := s.wick pos
  let s := { s with ctxs := Tab.upd s.ctxs k.ctx fun c => { c with st := .ended, cycles := k.cycles } }
  s.leaveWick pos true

/-- R454: the run of a task fails with a status; nothing more of it is done. -/
def State.failTask (s : State) (pos status : Nat) (check off : Nat := 0) : State :=
  let k := s.wick pos
  let s := { s with ctxs := Tab.upd s.ctxs k.ctx fun c =>
      { c with st := .ended, cycles := k.cycles, failed := status, check := check, failOff := off } }
  s.leaveWick pos false

/-- A wick that has drained after its task's end becomes free. -/
def State.settleWick (s : State) (pos : Nat) : State :=
  let k := s.wick pos
  if k.st = 3 ∧ !(k.ladderBusy || k.portsBusy) then s.putWick pos k.idle else s

/-- R215, R217, R218: the status of a trap. -/
def trapStatus (kind : Nat) : Nat :=
  match kind with
  | 0 => Status.trapIllegal
  | 1 => Status.trapAddress
  | 2 => Status.trapDivzero
  | 3 => Status.trapBreak
  | _ => Status.trapWatchdog

/-- R218: repeat flags of an outcome record. -/
def Wick.repFlags (k : Wick) : Nat := if k.repLeft = 0 then 0 else if k.repKind = 1 then 2 else if k.repKind = 2 then 4 else 0

/-- R215, R217: the wick stops at a trap, and its task fails. -/
def State.trapAt (s : State) (pos word kind addr : Nat) (halfB : Bool) : State :=
  let k := s.wick pos
  let s := s.outcome pos { status := trapStatus kind, flags := b2n halfB + k.repFlags, pc := k.pc, word := word,
                           addr := addr, remain := k.repLeft, codeBase := k.codeBase }
  s.failTask pos (trapStatus kind)

/-- R154, R217: a task fails with `CHUNK_CORRUPT`. -/
def State.corruptTask (s : State) (pos check off : Nat) : State :=
  let s := s.outcome pos { status := Status.chunkCorrupt, addr := off, check := check }
  s.failTask pos Status.chunkCorrupt check off

/-! ### Freeing staged output (R327, R375, R408, R411) -/

/-- The record length of a landing block's exchange. -/
def State.blockLX (s : State) (b : Block) : Nat := Img.xch (s.imgOf (Tab.at s.runs b.run)) b.desc 2 2

/-- R327: a landing block becomes FREE and its records are counted. -/
def State.freeBlock (s : State) (a : Nat) : State :=
  let b := Tab.at s.blocks a
  let lx := s.blockLX b
  let s := s.bump (R.LAN_XCH_DISCARDS b.lantern) (if lx = 0 then 0 else b.bytes / lx)
  { s.poke (a + 16) [0] with blocks := Tab.del s.blocks a }

/-- R327, R411: the staged blocks and runs of a context that carry another epoch than `keep` become FREE. -/
def State.freeStale (s : State) (ctx : Nat) (keep : Option Nat) : State :=
  let stale := fun (task st epoch : Nat) => task == ctx && st != 3 && some epoch != keep
  let s := (s.blocks.filter fun b => stale b.2.task b.2.st b.2.epoch).foldl (fun s b => s.freeBlock b.1) s
  let dead := s.sruns.filter fun r => stale r.2.ctx r.2.st r.2.epoch
  let s := dead.foldl (fun s r => s.poke (r.1 + 4) [0]) s
  { s with sruns := s.sruns.filter fun r => !stale r.2.ctx r.2.st r.2.epoch }

/-- R479: the local staging of a context's run is freed. -/
def State.freeLocal (s : State) (ctx : Nat) : State :=
  { s with ctxs := Tab.upd s.ctxs ctx fun c =>
      { c with emit := [], folds := [], runs := [], banks := [], peers := [], chunks := [] } }

/-- R602: the cycles of a run discarded for a device cause count as re-run cycles. -/
def State.rerunCycles (s : State) (inst cyc : Nat) : State :=
  s.tallyAdd inst fun c =>
    { c with wickCycles := c.wickCycles - cyc, rerunCycles := c.rerunCycles + min cyc c.wickCycles }

/-! ### Fold requests (R372 to R375) -/

/-- R363: value words per input of an op code. -/
def cellWords (op : Nat) : Nat := if op = 7 then 2 else 1

/-- R374: the check of a control slot against the task's fold-table list: a trap, or the table-list entry and the
number of slots that follow it. DEDUCED: a `KEY` byte that R372 gives as 0 is judged with the cells, against the table
that `TABLE` names (log entry 167). -/
def foldCheck (s : State) (folds : List Nat) (bs : List Byte) : Except (Nat × Nat) (Nat × Nat) :=
  let tb := fieldAt bs 8 1
  let kind := fieldAt bs 9 1
  let cell := fieldAt bs 10 1
  let words := fieldAt bs 11 1
  let list := tb % 8
  if 8 ≤ tb ∨ 2 ≤ kind ∨ words < 1 ∨ 16 < words ∨ fieldAt bs 12 4 ≠ 0 then .error (0, 0)
  else match folds[list]? with
  | none => .error (1, list)
  | some t =>
    let cells := s.fld (R.FOLD_TBL_CFG t) F.FOLD_TBL_CFG_CELLS
    let opOf := fun j => bitsOf (s.rd (R.FOLD_TBL_CELLS t)) (8 * j) 4
    let named := (List.range 8).filter fun j => bitAt cell j
    let ok := if kind = 0 then
        named.all (fun j => decide (j < cells))
          && (named.map fun j => cellWords (opOf j)).foldl (· + ·) 0 == words
      else decide (cell < cells) && (opOf cell != 7 || words % 2 == 0)
    let keyed := s.fld (R.FOLD_TBL_CFG t) F.FOLD_TBL_CFG_MODE == 1
    let limit := 128 * 2 ^ s.fld (R.FOLD_TBL_CFG t) F.FOLD_TBL_CFG_SHARE_LOG2
      / 2 ^ s.fld (R.FOLD_TBL_CFG t) F.FOLD_TBL_CFG_REPL_LOG2
    let keyLen := if keyed then min 16 (8 * s.fld (R.FOLD_TBL_CFG t) F.FOLD_TBL_CFG_KEY_LEN) else 0
    if !ok || ((bs.drop (16 + keyLen)).take (16 - keyLen)).any (· ≠ 0) then .error (0, 0)
    else if !keyed && decide (limit ≤ fieldAt bs 0 8) then .error (1, fieldAt bs 0 8)
    else
      let ext := if keyed ∧ 3 ≤ s.fld (R.FOLD_TBL_CFG t) F.FOLD_TBL_CFG_KEY_LEN then 1 else 0
      .ok (list, ext + ceilDiv words 4)

/-- R372: a slot of port 0x031 with the request that is being filled (its slots so far, its table-list entry and how
many slots it still lacks): the request after the slot, or the trap of a control slot. -/
def foldFill (s : State) (folds : List Nat) (req : List Byte × Nat × Nat) (bs : List Byte) :
    Except (Nat × Nat) (List Byte × Nat × Nat) :=
  if req.2.2 = 0 then
    match foldCheck s folds bs with
    | .ok (list, more) => .ok (bs, list, more)
    | .error e => .error e
  else .ok (req.1 ++ bs, req.2.1, req.2.2 - 1)

end Sys2Proof.Machine
end

