-- ==== Sys2Proof/Machine/RunOps.lean ====
section
/-! DEFINITION. A run as a whole: stopping its tasks, `FAIL_RUN`, and what its completion releases (R440, R444, R456,
R512). -/
namespace Sys2Proof.Machine

/-- A run changed. -/
def State.setRun (s : State) (key : Nat) (f : Run → Run) : State := { s with runs := Tab.upd s.runs key f }

/-- A context changed. -/
def State.setCtx (s : State) (i : Nat) (f : Ctx → Ctx) : State := { s with ctxs := Tab.upd s.ctxs i f }

/-- The contexts of a run that meet a test. -/
def State.ctxsOf (s : State) (run : Nat) (p : Ctx → Bool) : List Nat :=
  (s.ctxs.filter fun e => e.2.run == run && e.2.st != .free && p e.2).map (·.1)

/-- A context leaves its ready and delay lists (R513, R519). -/
def State.unlist (s : State) (i : Nat) : State :=
  { s with ready := s.ready.map fun e => (e.1, e.2.filter (· != i)),
           delay := s.delay.map fun e => (e.1, e.2.filter (·.2 != i)) }

/-- The wick that holds a context, running or draining. -/
def State.wickOf (s : State) (i : Nat) : Option Nat :=
  (s.wicks.find? fun e => e.2.st != 0 && e.2.ctx == i).map (·.1)

/-- R456, R479: the wick of a context stops where it stands. -/
def State.stopWick (s : State) (i : Nat) : State :=
  match s.wickOf i with
  | some pos => s.putWick pos (s.wick pos).idle
  | none => s

/-- R512: a context returns to FREE. -/
def State.freeCtx (s : State) (i : Nat) : State :=
  let s := (s.stopWick i).unlist i
  { s with ctxs := Tab.del s.ctxs i, saves := s.saves.filter fun e => e.2.ctx != i,
           reports := s.reports.filter (·.ctx != i) }

/-- R440, R456: what the completion of a run releases: its areas, scan lists, landing blocks, sort runs, id bitmaps,
ledger entries and suspension copies, and the service of its fold tables. -/
def State.releaseRun (s : State) (key : Nat) : State :=
  let r := Tab.at s.runs key
  let s := (s.ctxsOf key fun _ => true).foldl State.freeCtx s
  let s := if r.shares.isEmpty then s
    else (Tab.at s.pipes r.pipe).foldTabs.foldl (fun s t => s.setFld (R.FOLD_TBL_CFG t.2) F.FOLD_TBL_CFG_VALID 0) s
  { s.setRun key fun r => { r with areas := [], taken := [], shares := [], scanAt := [], saved := [], savedSize := 0,
                                   deliver := [], cont := none, rounds := [] } with
    blocks := s.blocks.filter fun e => e.2.run != key,
    sruns := s.sruns.filter fun e => e.2.run != key,
    bitmaps := s.bitmaps.filter fun b => b.run != key,
    ledger := s.ledger.filter fun e => e.2.run != key,
    dictSeen := s.dictSeen.filter fun e => e.2.1 != key }

/-- R444, R542: `QUERY_RUN` completes with the run's status and the rows delivered. -/
def State.completeRun (s : State) (key : Nat) (residue : Nat := 0) : State :=
  let r := Tab.at s.runs key
  let s := s.setRun key fun r => { r with st := 3, endT := s.now, stallSince := none }
  s.finishCmd key r.status residue r.rows

/-- R444, R474: the `END` entry is in the ring: the run completes. -/
def State.endWritten (s : State) (key : Nat) : State :=
  match Tab.get s.runs key with
  | some r =>
    if r.st = 3 ∨ !r.endIssued ∨ (r.failing && r.status != Status.okTruncated) then s
    else
      let s := s.setRun key fun r => { r with endWritten := true }
      let s := if r.failing then s else s.releaseRun key
      s.completeRun key
  | none => s

/-- R456: a failing run whose publications have all finished releases its tables and areas and completes; one that
`ROW_LIMIT` stopped still has its `END` entry to write (R473). -/
def State.settleRun (s : State) (key : Nat) (residue : Nat := 0) : State :=
  let r := Tab.at s.runs key
  if !r.failing || r.st == 3 || !(s.ctxsOf key fun c => c.foldOut != 0).isEmpty then s
  else
    let s := s.releaseRun key
    if r.status = Status.okTruncated then s else s.completeRun key residue

/-- R456: `FAIL_RUN`. -/
def State.failRun (s : State) (key status : Nat) (check off : Nat := 0) (residue : Nat := 0) : State :=
  match Tab.get s.runs key with
  | none => s
  | some r =>
    if r.st = 3 then s
    else
      let s := if r.failing then s
        else s.setRun key fun r => { r with failing := true, status := status, check := check, failOff := off }
      let doomed := s.ctxsOf key fun c => c.foldOut == 0
      let s := doomed.foldl (fun s i => (s.stopWick i).freeStale i none) s
      let s := doomed.foldl State.freeCtx s
      let s := s.setRun key fun r => { r with deliver := [] }
      s.settleRun key residue

/-- A run that may still do work: started, not failing, not suspended or completed. -/
def Run.active (r : Run) : Bool := r.st == 1 && !r.failing

/-! ### Re-runs (R451, R452, R461, R479, R480) -/

/-- The run of a context's task has begun and is not PASSED: a migration re-runs it. -/
def Ctx.begun (c : Ctx) : Bool := c.st == .running || c.st == .preempted || c.st == .ended

/-- R451, R452: a context's epoch rises by 1 and its run starts over; a 256th re-run fails the query. -/
def State.raiseEpoch (s : State) (i : Nat) : State :=
  let c := Tab.at s.ctxs i
  if 255 ≤ c.epoch then s.failRun c.run Status.uncorrectable
  else s.setCtx i fun c =>
    { c with epoch := c.epoch + 1, failed := 0, check := 0, failOff := 0, cycles := 0, saved := false }

/-- R479: the run of a context is stopped where it stands and its local staging freed; its cycles are device re-run
cycles (R602). -/
def State.abandon (s : State) (i : Nat) : State :=
  let c := Tab.at s.ctxs i
  let cyc := match s.wickOf i with
    | some pos => (s.wick pos).cycles
    | none => match s.saves.find? (·.2.ctx == i) with | some e => e.2.cycles | none => c.cycles
  let s := if c.begun || c.st == .passed then s.rerunCycles c.inst cyc else s
  let s := ((s.stopWick i).unlist i).freeLocal i
  { s with saves := s.saves.filter fun e => e.2.ctx != i }

/-- The key of the lantern store of the lantern that fills a slot, with owned windows of a stage zeroed (R459). -/
def State.zeroOwned (s : State) (img : List Byte) (j slot : Nat) : State :=
  match s.lanternOf slot with
  | some n => (Img.owned img j).foldl (fun s w => s.wipe (lstoreKey n w.1) w.2) s
  | none => s

/-- R461: the slot restart of stage `j` of a run on a slot. -/
def State.slotRestart (s : State) (run j slot : Nat) : State :=
  let img := s.imgOf (Tab.at s.runs run)
  let tasks := s.ctxsOf run fun c =>
    c.stage == j && c.slot == slot && c.st != .committed && c.st != .discarded
  let s := tasks.foldl (fun s i => (s.abandon i).raiseEpoch i) s
  let s := s.zeroOwned img j slot
  tasks.foldl (fun s i => if (Tab.get s.ctxs i).isSome then s.makeReady i else s) s

/-- R450, R479, R480: a task's run is stopped and starts over on a slot; in a stage that owns windows the whole slot
restarts. A task not dispatched only moves; a PASSED one stays. -/
def State.migrate (s : State) (i slot : Nat) : State :=
  let c := Tab.at s.ctxs i
  let img := s.imgOf (Tab.at s.runs c.run)
  if !(Img.owned img c.stage).isEmpty then
    if c.begun then s.slotRestart c.run c.stage c.slot else s
  else if c.begun then
    let s := (s.abandon i).raiseEpoch i
    if (Tab.get s.ctxs i).isSome then (s.setCtx i fun c => { c with slot := slot }).makeReady i else s
  else if c.st = .ready then ((s.unlist i).setCtx i fun c => { c with slot := slot }).readyPush i
  else if c.st = .delayed then s.setCtx i fun c => { c with slot := slot }
  else s

end Sys2Proof.Machine
end

