-- ==== Sys2Proof/Machine/RepairOps.lean ====
section
/-! DEFINITION. What every repair does besides its own effect (R782, R785): the journal, the RAS log, the counters, the
user calibration page. -/
namespace Sys2Proof.Machine

/-- R785, R790: a save of the user calibration page is asked for; one asked for during a save follows it. -/
def State.askSave (s : State) : State :=
  if s.bit R.CAL_STAT F.CAL_STAT_SAVING then { s with ras := { s.ras with saveAgain := true } }
  else s.setFld R.CAL_STAT F.CAL_STAT_SAVING 1

/-- R785: a repair is made: a unit of a class (R783) is replaced by a spare. `by_` is the journal source of a commanded
repair. -/
def State.repairMade (s : State) (cls unit detail old spare : Nat) (by_ : JEntry := { action := 0x0F }) : State :=
  let s := s.journalRec { by_ with action := 0x0F, object := cls + 256 * unit, old := old, new := spare }
  let s := (s.rasLog { kind := 6, cls := cls, unit := unit, detail := spare, who := .lamplighter }).bump R.RAS_REPAIRS
  let kept := decide (1 ≤ cls ∧ cls ≤ 6) || cls == 10
  (if kept then { s with ras := { s.ras with page := s.ras.page ++ [(cls, unit, detail)] } } else s).askSave

/-- R782: a repair finds no spare. -/
def State.noSpare (s : State) (cls unit : Nat) : State :=
  let s := s.rasLog { kind := 7, cls := cls, unit := unit, who := .lamplighter }
  ((s.setFld R.RAS_STAT F.RAS_STAT_DEGRADED 1).raise R.RAS_ERR F.RAS_ERR_NO_SPARE).alert F.TOP_ALERT_RAS

end Sys2Proof.Machine
end

