-- ==== Sys2Proof/Machine/Lanes.lean ====
section
/-! DEFINITION. What each Taper operation computes on 32-byte vectors, held as numbers below 2^256 whose lane `i` of
width `w` is bits `i·w` up (05_taper_reference.md). `w` is the element width in bits; `a`, `b` and `d` are `SRC1`,
`SRC2` and the old `DST`. -/
namespace Sys2Proof.Machine

/-- The lanes of a vector, lane 0 first. -/
def lanesOf (w n : Nat) : List Nat := (List.range (256 / w)).map fun i => bitsOf n (i * w) w

/-- The vector whose lanes are `ls`. -/
def ofLanes (w : Nat) : List Nat → Nat
  | [] => 0
  | l :: r => l % 2 ^ w + 2 ^ w * ofLanes w r

/-- The first lane. -/
def lane0 (w n : Nat) : Nat := bitsOf n 0 w

/-- A mask lane: TRUE has every bit 1. -/
def truth (w : Nat) (c : Bool) : Nat := if c then 2 ^ w - 1 else 0

/-- Lane-wise operation of two operands. -/
def map2 (w : Nat) (f : Nat → Nat → Nat) (a b : Nat) : Nat :=
  ofLanes w (List.zipWith f (lanesOf w a) (lanesOf w b))

/-- Lane-wise operation of one operand. -/
def map1 (w : Nat) (f : Nat → Nat) (b : Nat) : Nat := ofLanes w ((lanesOf w b).map f)

/-- Lane-wise float operation, with the flags of all lanes. -/
def fmap2 (w : Nat) (f : Nat → Nat → Nat × Nat) (a b : Nat) : Nat × Nat :=
  let rs := List.zipWith f (lanesOf w a) (lanesOf w b)
  (ofLanes w (rs.map (·.1)), rs.foldl (fun n r => n ||| r.2) 0)

/-- Lane-wise float operation of one operand. -/
def fmap1 (w : Nat) (f : Nat → Nat × Nat) (b : Nat) : Nat × Nat := fmap2 w (fun _ y => f y) b b

/-! ### Integer operations -/

def opAdd (w a b : Nat) : Nat := map2 w (fun x y => x + y) a b
def opSub (w a b : Nat) : Nat := map2 w (fun x y => x + 2 ^ w - y) a b
def opMul (w a b : Nat) : Nat := map2 w (fun x y => x * y) a b
def opMulh (w a b : Nat) : Nat := map2 w (fun x y => ofSgn (2 * w) (sgn w x * sgn w y) / 2 ^ w) a b
def opMulhu (w a b : Nat) : Nat := map2 w (fun x y => x * y / 2 ^ w) a b
def opDiv (w a b : Nat) : Nat := map2 w (fun x y => ofSgn w ((sgn w x).tdiv (sgn w y))) a b
def opDivu (w a b : Nat) : Nat := map2 w (fun x y => x / y) a b
def opRem (w a b : Nat) : Nat := map2 w (fun x y => ofSgn w ((sgn w x).tmod (sgn w y))) a b
def opRemu (w a b : Nat) : Nat := map2 w (fun x y => x % y) a b
def opMin (w a b : Nat) : Nat := map2 w (fun x y => if sgn w x ≤ sgn w y then x else y) a b
def opMax (w a b : Nat) : Nat := map2 w (fun x y => if sgn w x ≤ sgn w y then y else x) a b
def opMinu (w a b : Nat) : Nat := map2 w (fun x y => if x ≤ y then x else y) a b
def opMaxu (w a b : Nat) : Nat := map2 w (fun x y => if x ≤ y then y else x) a b
def opNeg (w b : Nat) : Nat := map1 w (fun y => 2 ^ w - y) b
def opAbs (w b : Nat) : Nat := map1 w (fun y => (sgn w y).natAbs) b
def opAnd (a b : Nat) : Nat := a &&& b
def opOr (a b : Nat) : Nat := a ||| b
def opXor (a b : Nat) : Nat := a ^^^ b
def opNot (b : Nat) : Nat := (2 ^ 256 - 1) ^^^ b
def opAndn (a b : Nat) : Nat := a &&& opNot b
def opShl (w a b : Nat) : Nat := map2 w (fun x y => x <<< (y % w)) a b
def opShr (w a b : Nat) : Nat := map2 w (fun x y => x >>> (y % w)) a b
def opSar (w a b : Nat) : Nat := map2 w (fun x y => ofSgn w (sgn w x / (2 ^ (y % w) : Nat))) a b

/-- A signed integer lies outside the range of width `w`. -/
def outside (w : Nat) (i : Int) : Bool := decide (i < -(2 ^ (w - 1) : Nat) ∨ ((2 ^ (w - 1) : Nat) : Int) ≤ i)

def opAddo (w a b : Nat) : Nat := map2 w (fun x y => truth w (outside w (sgn w x + sgn w y))) a b
def opSubo (w a b : Nat) : Nat := map2 w (fun x y => truth w (outside w (sgn w x - sgn w y))) a b
def opMulo (w a b : Nat) : Nat := map2 w (fun x y => truth w (outside w (sgn w x * sgn w y))) a b
def opAddou (w a b : Nat) : Nat := map2 w (fun x y => truth w (decide (2 ^ w ≤ x + y))) a b
def opSubou (w a b : Nat) : Nat := map2 w (fun x y => truth w (decide (x < y))) a b

/-- The lanes of half width in bytes 0 to 15. -/
def lowHalves (w b : Nat) : List Nat := (List.range (256 / w)).map fun i => bitsOf b (i * (w / 2)) (w / 2)

def opSwiden (w b : Nat) : Nat := ofLanes w ((lowHalves w b).map fun x => ofSgn w (sgn (w / 2) x))
def opUwiden (w b : Nat) : Nat := ofLanes w (lowHalves w b)
def opNarrow (w b : Nat) : Nat := ofLanes (w / 2) (lanesOf w b)

/-! ### Wide and decimal operations -/

def opAddq (a b : Nat) : Nat := opAdd 128 a b
def opSubq (a b : Nat) : Nat := opSub 128 a b
def opAddqo (a b : Nat) : Nat := opAddo 128 a b
def opSubqo (a b : Nat) : Nat := opSubo 128 a b
def opDscl (a b : Nat) : Nat := map2 64 (fun x y => if 19 ≤ y then 0 else x * 10 ^ y) a b
def opDsclo (a b : Nat) : Nat :=
  map2 64 (fun x y => truth 64 (if 19 ≤ y then decide (x ≠ 0) else outside 64 (sgn 64 x * (10 ^ y : Nat)))) a b

/-- R231: rounded to nearest, halves away from zero. -/
def opDdivr (a b : Nat) : Nat :=
  map2 64 (fun x y =>
    if 19 ≤ y then 0
    else
      let i := sgn 64 x
      let q : Int := ((2 * i.natAbs + 10 ^ y) / (2 * 10 ^ y) : Nat)
      ofSgn 64 (if i < 0 then -q else q)) a b

/-! ### Compares and masks -/

def opCmpeq (w a b : Nat) : Nat := map2 w (fun x y => truth w (x == y)) a b
def opCmpne (w a b : Nat) : Nat := map2 w (fun x y => truth w (x != y)) a b
def opCmplt (w a b : Nat) : Nat := map2 w (fun x y => truth w (decide (sgn w x < sgn w y))) a b
def opCmple (w a b : Nat) : Nat := map2 w (fun x y => truth w (decide (sgn w x ≤ sgn w y))) a b
def opCmpgt (w a b : Nat) : Nat := map2 w (fun x y => truth w (decide (sgn w y < sgn w x))) a b
def opCmpge (w a b : Nat) : Nat := map2 w (fun x y => truth w (decide (sgn w y ≤ sgn w x))) a b
def opCmpltu (w a b : Nat) : Nat := map2 w (fun x y => truth w (decide (x < y))) a b
def opCmpleu (w a b : Nat) : Nat := map2 w (fun x y => truth w (decide (x ≤ y))) a b
def opCmpgtu (w a b : Nat) : Nat := map2 w (fun x y => truth w (decide (y < x))) a b
def opCmpgeu (w a b : Nat) : Nat := map2 w (fun x y => truth w (decide (y ≤ x))) a b

def opBlend (w d a b : Nat) : Nat :=
  ofLanes w ((List.range (256 / w)).map fun i =>
    if bitsOf b (i * w) w ≠ 0 then bitsOf a (i * w) w else bitsOf d (i * w) w)

/-- The lanes of `a` whose lane of `b` is non-zero, in ascending order. -/
def picked (w a b : Nat) : List Nat :=
  ((List.zip (lanesOf w a) (lanesOf w b)).filter fun p => p.2 != 0).map (·.1)

def opCompress (w a b : Nat) : Nat := ofLanes w (picked w a b)

/-- The lanes of the list spread over the positions that the mask selects. -/
def spread : List Nat → List Nat → List Nat
  | _, [] => []
  | [], _ :: ms => 0 :: spread [] ms
  | x :: xs, m :: ms => if m ≠ 0 then x :: spread xs ms else 0 :: spread (x :: xs) ms

def opExpand (w a b : Nat) : Nat := ofLanes w (spread (lanesOf w a) (lanesOf w b))
def opMcount (w b : Nat) : Nat := ((lanesOf w b).filter (· != 0)).length
def opMexp (w a b : Nat) : Nat :=
  let k := lane0 w b % 256
  ofLanes w ((List.range (256 / w)).map fun i => truth w (bitAt a ((k + i) % 256)))
def opMpack (w b : Nat) : Nat := ofLanes 1 ((lanesOf w b).map fun x => b2n (x != 0))
def opMtail (w b : Nat) : Nat :=
  ofLanes w ((List.range (256 / w)).map fun i => truth w (decide (i < lane0 w b)))

/-! ### Float operations on vectors -/

def opFadd (w a b : Nat) : Nat × Nat := fmap2 w (fAdd w) a b
def opFsub (w a b : Nat) : Nat × Nat := fmap2 w (fSub w) a b
def opFmul (w a b : Nat) : Nat × Nat := fmap2 w (fMul w) a b
def opFdiv (w a b : Nat) : Nat × Nat := fmap2 w (fDiv w) a b
def opFsqrt (w b : Nat) : Nat × Nat := fmap1 w (fSqrt w) b
def opFmin (w a b : Nat) : Nat := map2 w (fMin w) a b
def opFmax (w a b : Nat) : Nat := map2 w (fMax w) a b
def opFneg (w b : Nat) : Nat := map1 w (fun y => y ^^^ 2 ^ (w - 1)) b
def opFabs (w b : Nat) : Nat := map1 w (fun y => fMag w y) b
def opFceq (w a b : Nat) : Nat := map2 w (fun x y => truth w (fKey w x == fKey w y)) a b
def opFclt (w a b : Nat) : Nat := map2 w (fun x y => truth w (decide (fKey w x < fKey w y))) a b
def opFcle (w a b : Nat) : Nat := map2 w (fun x y => truth w (decide (fKey w x ≤ fKey w y))) a b
def opFcanon (w b : Nat) : Nat := map1 w (fCanon w) b
def opFcvtf (w b : Nat) : Nat × Nat := fmap1 w (fOfInt w) b
def opFcvti (w b : Nat) : Nat × Nat := fmap1 w (fToInt w) b
def opFwiden (b : Nat) : Nat := ofLanes 64 ((lowHalves 64 b).map fWiden)
def opFnarrow (b : Nat) : Nat × Nat :=
  let rs := (lanesOf 64 b).map fNarrow
  (ofLanes 32 (rs.map (·.1)), rs.foldl (fun n r => n ||| r.2) 0)

/-! ### Hash, CRC and strings -/

/-- R236: KH64. -/
def kh64 (x seed : Nat) : Nat :=
  let h := (x ^^^ seed) % 2 ^ 64
  let h := (h ^^^ (h >>> 32)) * 0x9E3779B97F4A7C15 % 2 ^ 64
  let h := (h ^^^ (h >>> 29)) * 0xD6E8FEB86659FD93 % 2 ^ 64
  h ^^^ (h >>> 32)

def opHash (a b : Nat) : Nat := map2 64 kh64 a b
def opHashf (d a b : Nat) : Nat :=
  ofLanes 64 ((List.range 4).map fun i =>
    let x := bitsOf a (i * 64) 64
    let s := bitsOf b (i * 64) 64
    kh64 (bitsOf d (i * 64) 64 ^^^ kh64 x s) s)

/-- R237. -/
def opCrcb (a b : Nat) : Nat :=
  let n := min (bitsOf a 32 6) 32
  crc32cRaw (bitsOf a 0 32) ((le b 32).take n)

def opPfxcmp (a b : Nat) : Nat :=
  let xs := le a 32
  let ys := le b 32
  let same := ((List.zip xs ys).takeWhile fun p => p.1 == p.2).length
  let order := if same = 32 then 0
    else if (xs.getD same 0).toNat > (ys.getD same 0).toNat then 1 else 2 ^ 64 - 1
  same + 2 ^ 64 * order

def opBclass (a b : Nat) : Nat := map1 8 (fun v => truth 8 (bitAt b v)) a

/-! ### Folds (R241) -/

/-- One `SFOLD` of a value into an element. -/
def sfold (code w x v : Nat) : Nat :=
  match code with
  | 0 => (x + v) % 2 ^ w
  | 1 => if sgn w x ≤ sgn w v then x else v
  | 2 => if sgn w x ≤ sgn w v then v else x
  | 3 => min x v
  | 4 => max x v
  | 5 => x ||| v
  | 6 => x &&& v
  | 7 => if x = 0 then v else x
  | 8 => fMin w x v
  | 9 => fMax w x v
  | _ => x

end Sys2Proof.Machine
end

