-- ==== Sys2Proof/Machine/Operands.lean ====
section
/-! DEFINITION. Taper words: the operation table, the operand classes, the long and short operand modes with their
effective addresses and side effects, and the decoding of a word into one or two halves (R181 to R187, R221 to R229,
R258). -/
namespace Sys2Proof.Machine

/-- R221: operand classes. -/
inductive Cls where
  | none | v | x | d | dr | p | i | rg
  /-- The last source of a control word: a displacement (R258). -/
  | t
  /-- R203: `REPI` takes a wax operand or an immediate. -/
  | xi
deriving DecidableEq, Repr

/-- One row of the operation tables: widths permitted (by code), classes, extra cycles by width code. -/
structure OpRow where
  widths : List Nat
  d : Cls
  s1 : Cls
  s2 : Cls
  extra : List Nat
deriving DecidableEq, Repr

/-- Rows of the common shapes. -/
def row3 (extra : List Nat := [0, 0, 0, 0]) : OpRow := ⟨[0, 1, 2, 3], .d, .v, .v, extra⟩
def row2 (widths : List Nat := [0, 1, 2, 3]) (extra : List Nat := [0, 0, 0, 0]) : OpRow :=
  ⟨widths, .d, .none, .v, extra⟩
def rowC (widths : List Nat) (dst s1 s2 : Cls) : OpRow := ⟨widths, dst, s1, s2, [0, 0, 0, 0]⟩

/-- R227: the operation of a long opcode, by its group table; none where the opcode is undefined. -/
def opRow (op : Nat) : Option OpRow :=
  if op = 0x000 then some (rowC [0] .none .none .none)
  else if op = 0x001 then some row2
  else if op < 0x010 then none
  else if op < 0x020 then
    if op = 0x012 ∨ op = 0x013 ∨ op = 0x014 then some (row3 [0, 0, 0, 1])
    else if 0x015 ≤ op ∧ op ≤ 0x018 then some (row3 [3, 5, 9, 17])
    else if op = 0x01D ∨ op = 0x01E then some row2
    else if op = 0x01F then none
    else some row3
  else if op < 0x030 then
    if op = 0x024 then some row2
    else if op = 0x02A then some (row3 [0, 0, 0, 1])
    else if 0x02D ≤ op then some (row2 [1, 2, 3])
    else some row3
  else if op < 0x040 then none
  else if op ≤ 0x046 then
    some ⟨[3], .d, .v, .v, if op = 0x046 then [0, 0, 0, 17] else if 0x044 ≤ op then [0, 0, 0, 3] else [0, 0, 0, 0]⟩
  else if op < 0x050 then none
  else if op ≤ 0x059 then some row3
  else if op < 0x060 then none
  else if op ≤ 0x070 then
    let two := decide (op ≤ 0x063) || decide (0x065 ≤ op ∧ op ≤ 0x066) || decide (0x069 ≤ op ∧ op ≤ 0x06B)
    let extra := if op ≤ 0x062 ∨ op = 0x06D ∨ op = 0x06E ∨ op = 0x070 then [0, 0, 1, 1]
      else if op = 0x063 then [0, 0, 6, 12] else if op = 0x064 then [0, 0, 8, 16] else [0, 0, 0, 0]
    some ⟨if 0x06F ≤ op then [3] else [2, 3], .d, if two then .v else .none, .v, extra⟩
  else if op < 0x080 then none
  else if op = 0x080 then some (rowC [0, 1, 2, 3] .dr .v .v)
  else if op = 0x081 ∨ op = 0x082 then some (row3 [1, 1, 1, 1])
  else if op = 0x084 then some row3
  else if op = 0x083 ∨ op = 0x085 ∨ op = 0x086 then some row2
  else if op = 0x090 then some ⟨[3], .d, .v, .v, [0, 0, 0, 2]⟩
  else if op = 0x091 then some ⟨[3], .dr, .v, .v, [0, 0, 0, 4]⟩
  else if op = 0x092 then some ⟨[3], .d, .v, .v, [0, 0, 0, 1]⟩
  else if op = 0x093 then some (rowC [3] .d .v .v)
  else if op = 0x094 then some (rowC [0] .d .v .v)
  else if op = 0x0A0 ∨ op = 0x0A2 then some (rowC [0, 1, 2, 3] .x .v .i)
  else if op = 0x0A1 ∨ op = 0x0A3 then some (rowC [2, 3] .x .v .i)
  else if op = 0x0B0 then some (rowC [0, 1, 2, 3] .p .v .v)
  else if op = 0x0B1 then some (rowC [0] .p .none .none)
  else if op = 0x0B2 then some ⟨[3], .p, .x, .x, [0, 0, 0, 1]⟩
  else if op = 0x0B3 then some (rowC [3] .p .none .x)
  else if op = 0x0B4 then some (rowC [3] .none .x .x)
  else if op = 0x0B5 then some (rowC [0] .none .none .none)
  else if op = 0x0B6 then some (rowC [3] .x .none .i)
  else if op = 0x0C0 ∨ op = 0x0C1 then some (rowC [2] .rg .none .v)
  else if op = 0x0C2 then some (rowC [2] .x .none .rg)
  else if op = 0x0C3 ∨ op = 0x0C5 then some (rowC [2] .x .none .none)
  else if op = 0x0C4 then some (rowC [2] .none .none .i)
  else if op = 0x0E0 ∨ op = 0x0E8 ∨ op = 0x0E9 then some (rowC [0] .none .none .t)
  else if 0x0E1 ≤ op ∧ op ≤ 0x0E4 then some (rowC [0, 1, 2, 3] .none .x .t)
  else if 0x0E5 ≤ op ∧ op ≤ 0x0E7 then some (rowC [0] .rg .none .t)
  else if op = 0x0EA ∨ op = 0x0EB ∨ op = 0x0ED then some (rowC [0] .none .none .none)
  else if op = 0x0EC ∨ op = 0x0F0 then some (rowC [0] .none .none .i)
  else if op = 0x0F1 then some (rowC [2] .none .none .xi)
  else none

/-- R215, R218: a trap: 0 ILLEGAL, 1 ADDRESS, 2 DIVZERO, 3 BREAK; `ADDR`; in half B. -/
structure Trap where
  kind : Nat
  addr : Nat := 0
  halfB : Bool := false
deriving DecidableEq, Repr

/-- A post-increment: register, stride, ring bounds in circular mode. -/
structure Bump where
  reg : Nat
  by_ : Int
  ring : Option (Nat × Nat) := none
deriving DecidableEq, Repr

/-- Where an operand lies. -/
inductive Loc where
  | unused
  | wax (ea : Nat)
  | port (n : Nat)
  | imm (v : Int)
  | reg (r : Nat)
deriving DecidableEq, Repr

/-- An operand: its place and its side effect. -/
structure Opd where
  loc : Loc := .unused
  bump : Option Bump := none
deriving DecidableEq, Repr

/-- R175: the kernel's input ports, and its output ports. -/
def isInPort (n : Nat) : Bool := decide (n ≤ 0x011) || n == 0x041
def isOutPort (n : Nat) : Bool := decide (0x020 ≤ n ∧ n ≤ 0x031) || n == 0x040

/-- What a word's operands resolve against: the address registers before the word, the wax budget, the ports the kernel
binds, and the bound output ports whose pack buffer holds bytes. -/
structure Env where
  a : List Nat
  slots : Nat
  bound : List Nat
  packed : List Nat := []

/-- The value of an address register. -/
def areg (a : List Nat) (r : Nat) : Nat := a.getD r 0

/-- R185: an address register after a stride. -/
def Bump.apply (b : Bump) (a : List Nat) : List Nat :=
  let v : Int := areg a b.reg + b.by_
  let n := match b.ring with
    | some (lo, hi) => lo + ((v - lo) % ((hi : Int) - lo)).toNat
    | none => ofSgn 32 v
  a.set b.reg (n % 2 ^ 32)

/-- R187: a wax operand that meets its alignment and the wax budget, or the ADDRESS trap. -/
def waxOpd (slots bytes ea : Nat) (bump : Option Bump) : Except Trap Opd :=
  if ea % bytes = 0 ∧ ea + 31 < 32 * slots then .ok { loc := .wax ea, bump := bump }
  else .error { kind := 1, addr := ea }

/-- R221: the class permits a long mode. -/
def Cls.permits (c : Cls) (mode : Nat) : Bool :=
  match c with
  | .v => decide (mode ≤ 6)
  | .x | .dr => decide (mode ≤ 4)
  | .d => decide (mode ≤ 5)
  | .p => mode == 5
  | .i => mode == 6
  | .xi => decide (mode ≤ 4) || mode == 6
  | .rg => mode == 0
  | .none | .t => false

/-- R184, R185, R187, R208, R221, R247: a long descriptor of a class, with the registers as they stand before the word.
`bytes` is the element width in bytes; `dst` says that the operand is written. -/
def longOpd (v : Env) (bytes : Nat) (c : Cls) (dst : Bool) (desc : Nat) : Except Trap Opd :=
  let a := v.a
  let slots := v.slots
  let mode := desc / 2 ^ 14
  let f := desc % 2 ^ 14
  let r := f / 2 ^ 10
  let ill : Except Trap Opd := .error { kind := 0 }
  if c = .none then (if desc = 0 then .ok {} else ill)
  else if c = .t then .ok { loc := .imm (sgn 17 desc) }
  else if !c.permits mode then ill
  else if c = .rg then (if f < 16 then .ok { loc := .reg f } else ill)
  else match mode with
    | 0 => if f < 4096 then waxOpd slots bytes (32 * f) none else ill
    | 1 => waxOpd slots bytes (ofSgn 32 (areg a r + 32 * sgn 10 f)) none
    | 2 =>
      let sc := bitsOf f 4 2
      if sc = 3 ∨ f % 16 ≠ 0 then ill
      else
        let m := if sc = 0 then 1 else if sc = 1 then bytes else 32
        waxOpd slots bytes ((areg a r + areg a (bitsOf f 6 4) * m) % 2 ^ 32) none
    | 3 => waxOpd slots bytes (areg a r) (some { reg := r, by_ := sgn 10 f })
    | 4 =>
      let p := bitsOf f 8 2
      let lo := areg a (8 + 2 * p)
      let hi := areg a (9 + 2 * p)
      let x := areg a r
      if lo < hi ∧ lo ≤ x ∧ x < hi then waxOpd slots bytes x (some { reg := r, by_ := sgn 8 f, ring := some (lo, hi) })
      else .error { kind := 1, addr := x }
    | 5 =>
      if 512 ≤ f then ill
      else if !v.bound.contains f then ill
      else if dst then (if isOutPort f ∧ (c = .p ∨ !v.packed.contains f) then .ok { loc := .port f } else ill)
      else if isInPort f then .ok { loc := .port f } else ill
    | 6 => .ok { loc := .imm (sgn 14 f) }
    | _ => ill

/-- R186, R208: a short operand. -/
def shortOpd (v : Env) (bytes : Nat) (dst : Bool) (f : Nat) : Except Trap Opd :=
  let a := v.a
  let slots := v.slots
  let r := bitsOf f 5 4
  match f / 512 with
  | 0 => waxOpd slots bytes (32 * (f % 512)) none
  | 1 => waxOpd slots bytes (areg a r) (some { reg := r, by_ := 32 * sgn 5 f })
  | 2 => waxOpd slots bytes ((areg a r + 32 * (f % 32)) % 2 ^ 32) none
  | _ => if !dst && isInPort (f % 512) && v.bound.contains (f % 512) then .ok { loc := .port (f % 512) } else .error { kind := 0 }

/-- One operation of a word, its operands resolved. -/
structure Half where
  op : Nat
  wc : Nat
  row : OpRow
  d : Opd := {}
  s1 : Opd := {}
  s2 : Opd := {}
  long : Bool := true
  isB : Bool := false
deriving DecidableEq, Repr

/-- Element width in bits. -/
def Half.w (h : Half) : Nat := 8 * 2 ^ h.wc

/-- The immediate of a source, sign-extended (R224). -/
def Opd.immediate (o : Opd) : Int := match o.loc with | .imm v => v | _ => 0

/-- The port an operand names. -/
def Opd.portNo (o : Opd) : Option Nat := match o.loc with | .port n => some n | _ => none

/-- R215: of the failures of several operands, an ILLEGAL one comes before an ADDRESS one; otherwise the first. -/
def firstTrap (es : List (Except Trap Opd)) : Option Trap :=
  let ts := es.filterMap fun e => match e with | .error t => some t | .ok _ => none
  match ts.find? (·.kind == 0) with
  | some t => some t
  | none => ts.head?

/-- An operand that resolved. -/
def okOpd (e : Except Trap Opd) : Opd := match e with | .ok o => o | .error _ => {}

/-- R238, R241, R247, R255, R261: bits that an entry requires of its immediate, displacement or port. -/
def Half.formOk (h : Half) : Bool :=
  let i := h.s2.immediate
  let raw := ofSgn 14 i
  if h.op = 0x0A0 ∨ h.op = 0x0A1 ∨ h.op = 0x0A2 then raw < 8
  else if h.op = 0x0A3 then raw < 128 && bitsOf raw 3 4 ≤ 9
  else if h.op = 0x0B0 ∨ h.op = 0x0B1 then h.d.portNo != some 0x031 && h.d.portNo != some 0x040
  else if h.op = 0x0B2 ∨ h.op = 0x0B3 then h.d.portNo == some 0x040
  else if h.op = 0x0B6 then i == 0 || i == 1
  else if h.op = 0x0C4 then raw < 32
  else if h.op = 0x0E9 then i == 0
  else if h.op = 0x0EC then i == 0x0405
  else if h.op = 0x0F0 then decide (1 ≤ i ∧ i ≤ 256)
  else if h.op = 0x0F1 then (match h.s2.loc with | .imm v => decide (1 ≤ v) | _ => true)
  else true

/-- R181, R227, R229: a long word. -/
def decodeLong (v : Env) (word : Nat) : Except Trap Half :=
  let op := bitsOf word 53 10
  let wc := bitsOf word 51 2
  match opRow op with
  | none => .error { kind := 0 }
  | some row =>
    if !row.widths.contains wc then .error { kind := 0 }
    else
      let bytes := 2 ^ wc
      let d := longOpd v bytes row.d true (bitsOf word 34 17)
      let s1 := longOpd v bytes row.s1 false (bitsOf word 17 17)
      let s2 := longOpd v bytes row.s2 false (bitsOf word 0 17)
      let h : Half := { op := op, wc := wc, row := row, d := okOpd d, s1 := okOpd s1, s2 := okOpd s2 }
      match firstTrap [d, s1, s2] with
      | some t => if t.kind = 1 ∧ !h.formOk then .error { kind := 0 } else .error t
      | none => if h.formOk then .ok h else .error { kind := 0 }

/-- R182, R222, R228, R229: half A (`b` false) or half B of a paired word. -/
def decodeShort (v : Env) (word : Nat) (b : Bool) : Except Trap Half :=
  let bits := if b then bitsOf word 1 31 else bitsOf word 32 31
  let op := bitsOf bits 24 7
  let wc := bitsOf bits 22 2
  let ds := bitsOf bits 11 11
  let s2 := bitsOf bits 0 11
  let err (t : Trap) : Except Trap Half := .error { t with halfB := b }
  match opRow op with
  | none => err { kind := 0 }
  | some row =>
    if !row.widths.contains wc then err { kind := 0 }
    else if row.d = .none then
      (if ds = 0 ∧ s2 = 0 then .ok { op := op, wc := wc, row := row, long := false, isB := b } else err { kind := 0 })
    else
      let d := shortOpd v (2 ^ wc) true ds
      let y := shortOpd v (2 ^ wc) false s2
      match firstTrap [d, y] with
      | some t => err t
      | none =>
        .ok { op := op, wc := wc, row := row, d := okOpd d,
              s1 := if row.s1 = .none then {} else { loc := (okOpd d).loc }, s2 := okOpd y, long := false, isB := b }

/-- R181, R182: the halves of a word, or its first trap under R215. -/
def decodeWord (v : Env) (word : Nat) : Except Trap (List Half) :=
  if !bitAt word 63 then (decodeLong v word).map fun h => [h]
  else if bitAt word 0 then .error { kind := 0 }
  else
    match decodeShort v word false, decodeShort v word true with
    | .ok x, .ok y => .ok [x, y]
    | .error t, .ok _ => .error t
    | .ok _, .error t => .error t
    | .error t, .error u => .error (if u.kind < t.kind then u else t)

/-- The opcodes of a word's halves, whatever else it holds; a word with no defined opcode has none. -/
def wordOps (word : Nat) : List Nat :=
  if !bitAt word 63 then [bitsOf word 53 10] else [bitsOf word 56 7, bitsOf word 25 7]

/-- R204: a prefix may not stand before this word. -/
def noRepeat (word : Nat) : Bool :=
  !bitAt word 63 && decide (0x0E0 ≤ bitsOf word 53 10 ∧ bitsOf word 53 10 ≤ 0x0F1) && (opRow (bitsOf word 53 10)).isSome

end Sys2Proof.Machine
end

