-- ==== Sys2Proof/Machine/Taper.lean ====
section
/-! DEFINITION. The issue of one Taper word: reading its operands, what each operation does with them, the stalls and
traps that keep it from issuing, and the order in which its writes land (R176 to R204, R210 to R219, R230 to R260). -/
namespace Sys2Proof.Machine

/-! ### What an operation does -/

/-- What an operation does besides writing a vector, a register or a flag. -/
inductive Act where
  | none
  | emit (port : Nat) (bytes : List Byte)
  | flush (port : Nat)
  | ask (slots : List (List Byte))
  | load (l : FarLoad)
  | store (key : Nat) (bytes : List Byte)
  | fold (code w : Nat) (cells : List (Nat × Nat))
  | push (rec : Nat)
  | seal
  | pop (advance : Bool)
  | jump (target : Nat)
  | call (target link : Nat)
  | yield
  | ends
  | fails
  | hold
  | rep (kind n : Nat)
deriving DecidableEq, Repr

/-- The effect of one operation: a vector for `DST`, flags raised and cleared, an address register, an act. -/
structure Eff where
  out : Option Nat := none
  ff : Nat := 0
  clr : Nat := 0
  areg : Option (Nat × Nat) := none
  act : Act := .none
deriving DecidableEq, Repr

/-- Why a word does not issue: it traps, or it waits. -/
inductive Stop where
  | trap (t : Trap)
  | stall
deriving DecidableEq, Repr

/-- The vector operations, by opcode: the result and the flags raised. `d` is the old `DST` (R229 to R237). -/
def vecOp (op w a b d : Nat) : Option (Nat × Nat) :=
  match op with
  | 0x001 => some (b, 0)
  | 0x010 => some (opAdd w a b, 0)
  | 0x011 => some (opSub w a b, 0)
  | 0x012 => some (opMul w a b, 0)
  | 0x013 => some (opMulh w a b, 0)
  | 0x014 => some (opMulhu w a b, 0)
  | 0x015 => some (opDiv w a b, 0)
  | 0x016 => some (opDivu w a b, 0)
  | 0x017 => some (opRem w a b, 0)
  | 0x018 => some (opRemu w a b, 0)
  | 0x019 => some (opMin w a b, 0)
  | 0x01A => some (opMax w a b, 0)
  | 0x01B => some (opMinu w a b, 0)
  | 0x01C => some (opMaxu w a b, 0)
  | 0x01D => some (opNeg w b, 0)
  | 0x01E => some (opAbs w b, 0)
  | 0x020 => some (opAnd a b, 0)
  | 0x021 => some (opOr a b, 0)
  | 0x022 => some (opXor a b, 0)
  | 0x023 => some (opAndn a b, 0)
  | 0x024 => some (opNot b, 0)
  | 0x025 => some (opShl w a b, 0)
  | 0x026 => some (opShr w a b, 0)
  | 0x027 => some (opSar w a b, 0)
  | 0x028 => some (opAddo w a b, 0)
  | 0x029 => some (opSubo w a b, 0)
  | 0x02A => some (opMulo w a b, 0)
  | 0x02B => some (opAddou w a b, 0)
  | 0x02C => some (opSubou w a b, 0)
  | 0x02D => some (opSwiden w b, 0)
  | 0x02E => some (opUwiden w b, 0)
  | 0x02F => some (opNarrow w b, 0)
  | 0x040 => some (opAddq a b, 0)
  | 0x041 => some (opSubq a b, 0)
  | 0x042 => some (opAddqo a b, 0)
  | 0x043 => some (opSubqo a b, 0)
  | 0x044 => some (opDscl a b, 0)
  | 0x045 => some (opDsclo a b, 0)
  | 0x046 => some (opDdivr a b, 0)
  | 0x050 => some (opCmpeq w a b, 0)
  | 0x051 => some (opCmpne w a b, 0)
  | 0x052 => some (opCmplt w a b, 0)
  | 0x053 => some (opCmple w a b, 0)
  | 0x054 => some (opCmpgt w a b, 0)
  | 0x055 => some (opCmpge w a b, 0)
  | 0x056 => some (opCmpltu w a b, 0)
  | 0x057 => some (opCmpleu w a b, 0)
  | 0x058 => some (opCmpgtu w a b, 0)
  | 0x059 => some (opCmpgeu w a b, 0)
  | 0x060 => some (opFadd w a b)
  | 0x061 => some (opFsub w a b)
  | 0x062 => some (opFmul w a b)
  | 0x063 => some (opFdiv w a b)
  | 0x064 => some (opFsqrt w b)
  | 0x065 => some (opFmin w a b, 0)
  | 0x066 => some (opFmax w a b, 0)
  | 0x067 => some (opFneg w b, 0)
  | 0x068 => some (opFabs w b, 0)
  | 0x069 => some (opFceq w a b, 0)
  | 0x06A => some (opFclt w a b, 0)
  | 0x06B => some (opFcle w a b, 0)
  | 0x06C => some (opFcanon w b, 0)
  | 0x06D => some (opFcvtf w b)
  | 0x06E => some (opFcvti w b)
  | 0x06F => some (opFwiden b, 0)
  | 0x070 => some (opFnarrow b)
  | 0x080 => some (opBlend w d a b, 0)
  | 0x081 => some (opCompress w a b, 0)
  | 0x082 => some (opExpand w a b, 0)
  | 0x083 => some (opMcount w b, 0)
  | 0x084 => some (opMexp w a b, 0)
  | 0x085 => some (opMpack w b, 0)
  | 0x086 => some (opMtail w b, 0)
  | 0x090 => some (opHash a b, 0)
  | 0x091 => some (opHashf d a b, 0)
  | 0x092 => some (opCrcb a b, 0)
  | 0x093 => some (opPfxcmp a b, 0)
  | 0x094 => some (opBclass a b, 0)
  | _ => none

/-- R230: the operation divides and some lane of its divisor is 0. -/
def divByZero (op w b : Nat) : Bool := decide (0x015 ≤ op ∧ op ≤ 0x018) && (lanesOf w b).contains 0

/-- R239: an access of `n` bytes at offset `o` lies inside a window, for a write or a read. -/
def farInside (win : Nat × Nat × Nat) (write : Bool) (n o : Nat) : Bool :=
  (win.1 == 1 || (!write && win.1 == 2)) && decide (o % n = 0) && decide (o + n ≤ win.2.2)

/-- R238: where offset `o` of a window of a task on lantern `n` lies in the device's memories. -/
def farKey (n : Nat) (win : Nat × Nat × Nat) (o : Nat) : Nat :=
  if win.1 = 1 then lstoreKey n (win.2.1 + o) else win.2.1 + o

/-- R238 to R242: a far operation, with the values of `SRC1` and `DST`. -/
def farOp (n : Nat) (k : Wick) (h : Half) (a d : Nat) : Except Stop Eff :=
  let i := ofSgn 14 h.s2.immediate
  let win := k.wins.getD (i % 8) (0, 0, 0)
  let write := h.op == 0x0A2 || h.op == 0x0A3
  let wid := if h.op = 0x0A0 ∨ h.op = 0x0A2 then 32 else h.w / 8
  let offs := if h.op = 0x0A0 ∨ h.op = 0x0A2 then [bitsOf a 0 64]
    else if h.op = 0x0A1 then lanesOf h.w a else lanesOf h.w d
  match offs.find? fun o => !farInside win write wid o with
  | some o => .error (.trap { kind := 1, addr := o, halfB := h.isB })
  | none =>
    let keys := offs.map (farKey n win)
    if h.op = 0x0A2 then .ok { act := .store (keys.getD 0 0) (le d 32) }
    else if h.op = 0x0A3 then .ok { act := .fold (bitsOf i 3 4) h.w (List.zip keys (lanesOf h.w a)) }
    else
      let ea := match h.d.loc with | .wax e => e | _ => 0
      .ok { act := .load { ea := ea, addrs := keys, wid := wid, hbm := win.1 == 2, got := keys.map fun _ => none } }

/-- R249, R250: the request slot of a `SEARCH` (1) or `STEP` (2). -/
def askSlot (ctl op : Nat) : List Byte :=
  let c := le ctl 32
  slice c 0 9 ++ [0, BitVec.ofNat 8 op] ++ zeros 5 ++ slice c 16 8 ++ zeros 8

/-- R254 to R256, R407: the sort-ladder operations. Whether the wick's merge is to answer `SLPOP` is the ladder's. -/
def ladderOp (s : State) (n : Nat) (k : Wick) (h : Half) (a b : Nat) : Except Stop Eff :=
  let l := k.ladder.getD {}
  if h.op = 0x0B4 then
    let room := if k.openRun.isEmpty then decide (k.sealed.length < 2)
      else if k.openRun.length < 256 then true else k.sealed.isEmpty
    if !s.bit (R.LAN_SL_CTL n) F.LAN_SL_CTL_EN || k.closing || !room then .error .stall
    else .ok { act := .push (beNat (le a 32 ++ le b 32)) }
  else if h.op = 0x0B5 then .ok { act := .seal }
  else
    let none_ : Except Stop Eff := .error (.trap { kind := 1, halfB := h.isB })
    if l.mode = 2 ∨ l.mode = 3 then none_
    else match k.sealed with
    | r :: _ =>
      if !r.sorted then .error .stall
      else
        let bs := be (r.recs.headD 0) 64
        if h.s2.immediate = 0 then .ok { out := some (leNat (slice bs 0 32)), act := .pop false }
        else .ok { out := some (leNat (slice bs 32 32)), act := .pop true }
    | [] => if l.mode = 4 ∧ l.output = 1 ∧ !k.merged then .error .stall else none_

/-- R219, R453, R857: the task's stage emits rows, and `extra` more bytes do not end it on a row's end. -/
def partialRow (s : State) (k : Wick) : Bool :=
  let c := Tab.at s.ctxs k.ctx
  let img := s.imgOf (s.runOf k.ctx)
  let held := ((k.ports.find? (·.num == 0x030)).getD {}).pack.length
  Img.emitting img c.stage && (c.emit.length + held) % Img.rowLen img != 0

/-- R258: the target of a branch word, or the ADDRESS trap of R201. -/
def branchTo (k : Wick) (h : Half) : Except Stop Nat :=
  let t : Int := (k.pc : Int) + 8 * h.s2.immediate
  if 0 ≤ t ∧ k.codeBase ≤ t.toNat ∧ t.toNat < k.codeBase + k.codeLen ∧ t.toNat % 8 = 0 then .ok t.toNat
  else .error (.trap { kind := 1 })

/-- R199 to R204, R210, R212, R258 to R260: the control operations; `word2` is the word that follows in the code. -/
def controlOp (s : State) (pos : Nat) (k : Wick) (word2 : Nat) (h : Half) (a b : Nat) : Except Stop Eff :=
  let r := match h.d.loc with | .reg r => r | _ => 0
  let v := areg k.a r
  let go (c : Bool) (e : Eff) : Except Stop Eff :=
    if c then (branchTo k h).map fun t => { e with act := .jump t } else .ok e
  let lanes := lanesOf h.w a
  let ends : Except Stop Eff :=
    if partialRow s k then .error (.trap { kind := 0 }) else .ok { act := .ends }
  match h.op with
  | 0x0E0 => go true {}
  | 0x0E1 => go (lanes.any (· != 0)) {}
  | 0x0E2 => go (lanes.all (· != 0)) {}
  | 0x0E3 => go (lanes.all (· == 0)) {}
  | 0x0E4 => go (lanes.any (· == 0)) {}
  | 0x0E5 =>
    let v' := (v + 2 ^ 32 - 1) % 2 ^ 32
    go (v' != 0) { areg := some (r, v') }
  | 0x0E6 => go (v == 0) {}
  | 0x0E7 => go (v != 0) {}
  | 0x0E8 => (branchTo k h).map fun t => { act := .call t ((k.pc + 8) % 2 ^ 18) }
  | 0x0E9 =>
    if k.lr = 0x3FFFF then ends
    else if k.codeBase ≤ k.lr ∧ k.lr < k.codeBase + k.codeLen ∧ k.lr % 8 = 0 then .ok { act := .jump k.lr }
    else .error (.trap { kind := 1 })
  | 0x0EA => .ok { act := .yield }
  | 0x0EB => ends
  | 0x0EC => .ok { act := .fails }
  | 0x0ED =>
    if bitAt (s.fld (R.LAN_MON_CTL (pos / 17)) F.LAN_MON_CTL_BREAK_HOLD) (pos % 17) then .ok { act := .hold }
    else .error (.trap { kind := 3 })
  | 0x0F0 =>
    if noRepeat word2 then .error (.trap { kind := 0 }) else .ok { act := .rep 1 h.s2.immediate.toNat }
  | _ =>
    let n := match h.s2.loc with | .imm i => i.toNat | _ => bitsOf b 0 32
    if n = 0 ∨ 65536 < n ∨ noRepeat word2 then .error (.trap { kind := 0 }) else .ok { act := .rep 2 n }

/-- What one half does, with the values of its sources and old destination. -/
def halfEff (s : State) (pos : Nat) (k : Wick) (word2 : Nat) (h : Half) (a b d : Nat) : Except Stop Eff :=
  match vecOp h.op h.w a b d with
  | some (v, ff) =>
    if divByZero h.op h.w b then .error (.trap { kind := 2, halfB := h.isB })
    else .ok { out := some v, ff := ff }
  | none =>
    let r := match h.d.loc with | .reg r => r | _ => 0
    let p := h.d.portNo.getD 0
    let tab := bitsOf b 64 8
    match h.op with
    | 0x000 => .ok {}
    | 0x0A0 | 0x0A1 | 0x0A2 | 0x0A3 => farOp (pos / 17) k h a d
    | 0x0B0 => .ok { act := .emit p ((picked h.w a b).flatMap fun x => le x (h.w / 8)) }
    | 0x0B1 => .ok { act := .flush p }
    | 0x0B2 =>
      if k.chds.length ≤ tab then .error (.trap { kind := 1, addr := tab })
      else .ok { act := .ask [askSlot b 1, le a 32] }
    | 0x0B3 =>
      if k.chds.length ≤ tab then .error (.trap { kind := 1, addr := tab }) else .ok { act := .ask [askSlot b 2] }
    | 0x0B4 | 0x0B5 | 0x0B6 => ladderOp s (pos / 17) k h a b
    | 0x0C0 => .ok { areg := some (r, bitsOf b 0 32) }
    | 0x0C1 => .ok { areg := some (r, (areg k.a r + bitsOf b 0 32) % 2 ^ 32) }
    | 0x0C2 => .ok { out := some (match h.s2.loc with | .reg q => areg k.a q | _ => 0) }
    | 0x0C3 => .ok { out := some k.fflags }
    | 0x0C4 => .ok { clr := bitsOf (ofSgn 14 h.s2.immediate) 0 5 }
    | 0x0C5 => .ok { out := some k.repcnt }
    | _ => controlOp s pos k word2 h a b

/-! ### Reading operands -/

/-- The port of a wick under a number. -/
def Wick.port (k : Wick) (n : Nat) : Port := (k.ports.find? (·.num == n)).getD {}

/-- R176: the wax byte address of filled slot `i` of a port's ring, oldest first. -/
def Port.slotEa (p : Port) (i : Nat) : Nat := 32 * (p.base + (p.head + i) % p.len)

/-- The sources of a word in the order of R180, a destination that is also read last of its half. -/
def Half.sources (h : Half) : List Opd := [h.s1, h.s2]

/-- R177, R180: the slots the word takes: each source port with the number of slots of it taken before. -/
def takesOf (hs : List Half) : List (Nat × Nat) :=
  let ps := (hs.flatMap Half.sources).filterMap Opd.portNo
  (List.range ps.length).map fun i => (ps.getD i 0, ((ps.take i).filter (· == ps.getD i 0)).length)

/-- R177, R253: the partner of an input port has more to deliver. -/
def Wick.partnerMore (k : Wick) (n : Nat) : Bool :=
  if n = 0x041 then decide (0 < k.reqs) else match k.job with | some j => !j.spent | none => false

/-- R176, R177, R184: the value of a source as a number of 256 bits; `seen` counts slots of its port taken before. -/
def State.source (s : State) (pos w : Nat) (o : Opd) (seen : Nat) : Nat :=
  match o.loc with
  | .wax ea => leNat (s.peek (waxKey pos ea) 32)
  | .port n => leNat (s.peek (waxKey pos (((s.wick pos).port n).slotEa seen)) 32)
  | .imm i => ofLanes w (List.replicate (256 / w) (ofSgn w i))
  | _ => 0

/-- How many slots of the port of `o` the sources `before` take. -/
def seenIn (o : Opd) (before : List Opd) : Nat :=
  match o.portNo with | some n => (before.filterMap Opd.portNo).count n | none => 0

/-- R374: the fold-port slots the halves fill, checked in the order of R188: a control slot that breaks R374 traps its
half. -/
def foldGate (s : State) (folds : List Nat) : List Half → List (Except Stop Eff) → List Byte × Nat × Nat →
    List (Except Stop Eff)
  | h :: hs, e :: es, req =>
    match h.d.portNo, e with
    | some 0x031, .ok x =>
      (match x.out with
      | some v =>
        (match foldFill s folds req (le v 32) with
        | .ok req => e :: foldGate s folds hs es req
        | .error (kind, addr) => .error (.trap { kind := kind, addr := addr, halfB := h.isB }) :: foldGate s folds hs es req)
      | none => e :: foldGate s folds hs es req)
    | _, _ => e :: foldGate s folds hs es req
  | _, es, _ => es

/-- The results of the halves, each evaluated on the state before the word (R188). -/
def State.halfEffs (s : State) (pos word2 : Nat) : List Half → List Opd → List (Except Stop Eff)
  | [], _ => []
  | h :: hs, before =>
    let k := s.wick pos
    let a := s.source pos h.w h.s1 (seenIn h.s1 before)
    let b := s.source pos h.w h.s2 (seenIn h.s2 (before ++ [h.s1]))
    let d := match h.d.loc with | .wax ea => leNat (s.peek (waxKey pos ea) 32) | _ => 0
    halfEff s pos k word2 h a b d :: s.halfEffs pos word2 hs (before ++ [h.s1, h.s2])

/-- The effects of the halves of a word: their results, and the check of the control slots they fill. -/
def State.effects (s : State) (pos word2 : Nat) (hs : List Half) : List (Except Stop Eff) :=
  let k := s.wick pos
  foldGate s k.folds hs (s.halfEffs pos word2 hs []) (k.foldBuf, k.foldList, k.foldNeed)

/-- R215: of the halves' outcomes: the trap listed first, else a stall, else the effects. -/
def firstStop (es : List (Except Stop Eff)) : Except Stop (List Eff) :=
  let ts := es.filterMap fun e => match e with | .error (.trap t) => some t | _ => none
  match (List.range 4).findSome? fun i => ts.find? (·.kind == i) with
  | some t => .error (.trap t)
  | none =>
    if es.any fun e => match e with | .error .stall => true | _ => false then .error .stall
    else .ok (es.filterMap fun e => match e with | .ok x => some x | .error _ => none)

/-- R187, R191: wax operands of the word, each once. -/
def Half.waxEas (h : Half) : List Nat :=
  let ea (o : Opd) : List Nat := match o.loc with | .wax e => [e] | _ => []
  ea h.d ++ (if h.long then ea h.s1 else []) ++ ea h.s2

/-- R194: the word touches the destination of a pending far load whose shadow has passed. -/
def Wick.interlocked (k : Wick) (eas : List Nat) : Bool :=
  k.loads.any fun l => l.shadow == 0 && eas.any fun e => decide (e < l.ea + 32 ∧ l.ea < e + 32)

/-! ### Writing results -/

/-- A wick changed in place; its `RUNNING` and `HELD` bits stay. -/
def State.setWick (s : State) (pos : Nat) (f : Wick → Wick) : State := { s with wicks := Tab.upd s.wicks pos f }

/-- A port of a wick changed. -/
def Wick.setPort (k : Wick) (n : Nat) (f : Port → Port) : Wick :=
  { k with ports := k.ports.map fun p => if p.num = n then f p else p }

/-- R453, R464, R469: bytes reach the emit stager; a full stage fails the task. -/
def State.emitBytes (s : State) (pos : Nat) (bs : List Byte) : State :=
  let i := (s.wick pos).ctx
  let s := { s with ctxs := Tab.upd s.ctxs i fun c => { c with emit := c.emit ++ bs } }
  if s.stageFits i then s else s.failTask pos Status.spillFull

/-- R469: emitted bytes find no room while a result stall is in progress. -/
def State.emitStalls (s : State) (pos : Nat) (bs : List Byte) : Bool :=
  let i := (s.wick pos).ctx
  let t := { s with ctxs := Tab.upd s.ctxs i fun c => { c with emit := c.emit ++ bs } }
  !bs.isEmpty && s.resultWaits (Tab.at s.ctxs i).run && !t.stageFits i

/-- R372 to R375: a slot of port 0x031: the control slot of a request, or one that follows it; a whole request is
staged, and a full stage fails the task. -/
def State.foldSlot (s : State) (pos : Nat) (bs : List Byte) : State :=
  let k := s.wick pos
  let step := (foldFill s k.folds (k.foldBuf, k.foldList, k.foldNeed) bs).toOption.getD ([], 0, 0)
  let s := s.setWick pos fun k => { k with foldBuf := step.1, foldList := step.2.1, foldNeed := step.2.2 }
  if k.foldNeed = 0 ∨ step.2.2 ≠ 0 then s
  else
    let s := s.setWick pos fun k => { k with foldBuf := [] }
    let s := { s with ctxs := Tab.upd s.ctxs k.ctx fun c =>
        { c with folds := c.folds ++ [{ list := step.2.1, body := step.1 }] } }
    if s.stageFits k.ctx then s else s.failTask pos Status.spillFull

/-- R179, R245: the next slot of an output port is filled with `count` bytes. -/
def State.fillPort (s : State) (pos n : Nat) (bs : List Byte) (count : Nat) : State :=
  if n = 0x030 then s.emitBytes pos (bs.take count)
  else if n = 0x031 then s.foldSlot pos (padTo bs 32)
  else
    let p := (s.wick pos).port n
    (s.poke (waxKey pos (p.slotEa p.filled)) (padTo bs 32)).setWick pos fun k =>
      k.setPort n fun p => { p with filled := p.filled + 1, counts := p.counts ++ [count] }

/-- R179: `m` slots of an output port are not free. Ports 0x030 and 0x031 are emptied as they are filled. -/
def Wick.portFull (k : Wick) (n m : Nat) : Bool :=
  let p := k.port n
  n != 0x030 && n != 0x031 && decide (p.len < p.filled + m)

/-- R244: bytes appended to a pack buffer; each full 32 bytes fill a slot. -/
def State.packBytes (s : State) (pos n : Nat) (bs : List Byte) : State :=
  let all := ((s.wick pos).port n).pack ++ bs
  if all.length < 32 then s.setWick pos fun k => k.setPort n fun p => { p with pack := all }
  else (s.setWick pos fun k => k.setPort n fun p => { p with pack := all.drop 32 }).fillPort pos n (all.take 32) 32

/-- R246: a non-empty pack buffer fills one slot. -/
def State.flushPort (s : State) (pos n : Nat) : State :=
  let b := ((s.wick pos).port n).pack
  if b.isEmpty then s
  else (s.setWick pos fun k => k.setPort n fun p => { p with pack := [] }).fillPort pos n b b.length

/-- R254: the open run is sealed, when it holds a record. -/
def State.sealRun (s : State) (pos : Nat) : State :=
  let k := s.wick pos
  if k.openRun.isEmpty then s
  else { s.setWick pos fun k => { k with sealed := k.sealed ++ [{ no := s.sealCount, recs := k.openRun }], openRun := [] }
         with sealCount := s.sealCount + 1 }

/-- R255: the current record of the oldest sealed run is passed. -/
def Wick.popRecord (k : Wick) : Wick :=
  match k.sealed with
  | r :: rs => { k with sealed := if r.recs.length ≤ 1 then rs else { r with recs := r.recs.drop 1 } :: rs }
  | [] => k

/-- R242: the lanes of an `SFOLD` applied in ascending order. -/
def State.foldCells (s : State) (code w : Nat) (cells : List (Nat × Nat)) : State :=
  cells.foldl (fun s c => s.poke c.1 (le (sfold code w (leNat (s.peek c.1 (w / 8))) c.2) (w / 8))) s

/-- R179, R469: an output of the effects finds no room. -/
def State.outputStalls (s : State) (pos : Nat) (hs : List Half) (es : List Eff) : Bool :=
  let k := s.wick pos
  let outs (n : Nat) : List Nat :=
    (List.zip hs es).filterMap fun x => if x.1.d.portNo = some n then x.2.out else none
  let one (h : Half) (e : Eff) : Bool :=
    (match h.d.portNo, e.out with
      | some n, some _ =>
        k.portFull n (outs n).length || (n == 0x030 && s.emitStalls pos ((outs n).flatMap fun v => le v 32))
      | _, _ => false)
    || (match e.act with
      | .emit n bs =>
        decide (32 ≤ (k.port n).pack.length + bs.length) &&
          (k.portFull n 1 || (n == 0x030 && s.emitStalls pos (((k.port n).pack ++ bs).take 32)))
      | .flush n =>
        !(k.port n).pack.isEmpty && (k.portFull n 1 || (n == 0x030 && s.emitStalls pos (k.port n).pack))
      | .ask slots => k.portFull 0x040 slots.length
      | .ends => k.ports.any fun p =>
          !p.pack.isEmpty && (k.portFull p.num 1 || (p.num == 0x030 && s.emitStalls pos p.pack))
      | _ => false)
  (List.zipWith one hs es).any id

/-- R188, R190: one half's writes: its post-increments, then its result. -/
def State.commitHalf (s : State) (pos : Nat) (h : Half) (e : Eff) : State :=
  let bumps := [h.d.bump, h.s1.bump, h.s2.bump].filterMap id
  let s := s.setWick pos fun k => { k with a := bumps.foldl (fun a b => b.apply a) k.a }
  let s := s.setWick pos fun k =>
    { k with fflags := (k.fflags &&& (31 ^^^ e.clr)) ||| e.ff,
             a := match e.areg with | some (r, v) => k.a.set r v | none => k.a }
  let s := match e.out, h.d.loc with
    | some v, .wax ea => s.poke (waxKey pos ea) (le v 32)
    | some v, .port n => s.fillPort pos n (le v 32) 32
    | _, _ => s
  match e.act with
  | .emit n bs => s.packBytes pos n bs
  | .flush n => s.flushPort pos n
  | .ask slots =>
    (slots.foldl (fun s b => s.fillPort pos 0x040 b 32) s).setWick pos fun k => { k with reqs := k.reqs + 1 }
  | .load l => s.setWick pos fun k => { k with loads := k.loads ++ [l] }
  | .store a bs => s.poke a bs
  | .fold code w cells => s.foldCells code w cells
  | .push r =>
    let s := if 256 ≤ (s.wick pos).openRun.length then s.sealRun pos else s
    let n := pos / 17
    let fmt := s.fmtSlot n ((s.wick pos).ladder.getD {}).fmt
    let rec_ := beNat (sortRecord fmt (be r 64))
    (s.setWick pos fun k => { k with openRun := k.openRun ++ [rec_] }).bump (R.LAN_SL_PUSHES (pos / 17))
  | .seal => s.sealRun pos
  | .pop adv => if adv then s.setWick pos Wick.popRecord else s
  | .call _ link => s.setWick pos fun k => { k with lr := link }
  | _ => s

/-- R178: the slots the word took are freed. -/
def Wick.freeSlots (k : Wick) (ports : List Nat) : Wick :=
  ports.foldl (fun k n => k.setPort n fun p => { p with head := (p.head + 1) % p.len, filled := p.filled - 1 }) k

/-- R195, R196: data that has arrived is written once its shadow has passed and no earlier load overlaps it. -/
def State.landLoads (s : State) (pos : Nat) : State :=
  let step (st : State × List FarLoad) (l : FarLoad) : State × List FarLoad :=
    if l.arrived && l.shadow == 0 && !(st.2.any fun e => decide (e.ea < l.ea + 32 ∧ l.ea < e.ea + 32)) then
      (st.1.poke (waxKey pos l.ea) ((l.got.map fun g => g.getD []).flatten), st.2)
    else (st.1, st.2 ++ [l])
  let r := (s.wick pos).loads.foldl step (s, [])
  r.1.setWick pos fun k => { k with loads := r.2 }

/-- R192, R193: an issue slot passes for the loads issued before it. -/
def State.shadowSlot (s : State) (pos before : Nat) : State :=
  (s.setWick pos fun k =>
    { k with loads := (k.loads.take before).map (fun l => { l with shadow := l.shadow - 1 }) ++ k.loads.drop before }
  ).landLoads pos

/-! ### The word -/

/-- Where the `PC` goes after the word: nowhere when the word ends the task or holds the wick. -/
def nextPc (k : Wick) (acts : List Act) : Option Nat :=
  let act := acts.getD 0 .none
  match act with
  | .jump t => some t
  | .call t _ => some t
  | .ends | .fails | .hold => none
  | .rep _ _ => some (k.pc + 8)
  | _ => if k.repKind ≠ 0 ∧ 1 < k.repLeft then some k.pc else some (k.pc + 8)

/-- R202, R203, R212: repeats and interruption points once a word has issued. -/
def Wick.afterWord (k : Wick) (act : Act) (pc : Nat) : Wick :=
  match act with
  | .rep kind n => { k with pc := pc, repKind := kind, repLeft := n, repMid := false, stalled := false, atPoint := false }
  | _ =>
    if k.repKind ≠ 0 ∧ 1 < k.repLeft then
      { k with pc := pc, repLeft := k.repLeft - 1, repMid := true, stalled := false, atPoint := k.repKind == 2,
               repcnt := if k.repKind = 2 then k.repLeft - 1 else k.repcnt }
    else
      { k with pc := pc, repKind := 0, repLeft := 0, repMid := false, repcnt := 0, stalled := false,
               atPoint := act == .yield }

/-- R191: the cycles of a word. -/
def wordCycles (hs : List Half) (acts : List Act) : Nat :=
  let cross := ((hs.flatMap Half.waxEas).filter fun e => e % 32 != 0).length
  let extra := (hs.map fun h => h.row.extra.getD h.wc 0).foldl max 0
  let taken := acts.any fun a => match a with | .jump _ | .call _ _ => true | _ => false
  1 + cross + extra + (if taken then 2 else 0)

/-- A word that has met no trap and no stall: its writes, its cycles, its end or the next `PC`. -/
def State.commitWord (s : State) (pos : Nat) (hs : List Half) (es : List Eff) (pc : Option Nat) : State :=
  let acts := es.map (·.act)
  let act := acts.getD 0 .none
  let before := (s.wick pos).loads.length
  let took := (takesOf hs).map (·.1)
  let s := s.charge pos (wordCycles hs acts)
  let s := (List.zip hs es).foldl (fun s x => s.commitHalf pos x.1 x.2) s
  if (s.wick pos).st ≠ 1 then s
  else
    let s := s.setWick pos fun k => k.freeSlots took
    let s := match act with | .rep _ _ => s | _ => s.shadowSlot pos before
    match act with
    | .ends =>
      let s := (s.wick pos).ports.foldl (fun s p => s.flushPort pos p.num) s
      let mode := ((s.wick pos).ladder.getD {}).mode
      let s := if mode = 2 ∨ mode = 3 then s.sealRun pos else s
      if (s.wick pos).st = 1 then s.endTask pos else s
    | .fails => s.failTask pos Status.aggOverflow
    | .hold => s.putWick pos { s.wick pos with st := 2, stalled := false, atPoint := false }
    | _ => match pc with
      | some t => s.setWick pos fun k => k.afterWord act t
      | none => s

/-- R177, R253: what the input ports of a word let it do: go on, wait, or trap ADDRESS. -/
def portsReady (k : Wick) (hs : List Half) : Except Stop Unit :=
  let short := (takesOf hs).filter fun t => decide ((k.port t.1).filled ≤ t.2)
  if short.any fun t => !k.partnerMore t.1 then
    .error (.trap { kind := 1, halfB := match hs with
      | [x, _] => !(takesOf [x]).any fun t => decide ((k.port t.1).filled ≤ t.2) && !k.partnerMore t.1
      | _ => false })
  else if short.isEmpty then .ok () else .error .stall

/-- R181 to R204, R215: what the word at the `PC` does: a trap, a stall, or halves with their effects and the next
`PC`. -/
def State.planWord (s : State) (pos word word2 : Nat) : Except Stop (List Half × List Eff × Option Nat) :=
  let k := s.wick pos
  let env : Env := { a := k.a, slots := k.waxSlots, bound := k.ports.map (·.num),
                     packed := (k.ports.filter fun p => !p.pack.isEmpty).map (·.num) }
  match decodeWord env word with
  | .error t => .error (.trap t)
  | .ok hs =>
    let portEas := (takesOf hs).map fun t => (k.port t.1).slotEa t.2
    match portsReady k hs with
    | .error (.trap t) => .error (.trap t)
    | ready =>
      if k.interlocked (hs.flatMap Half.waxEas ++ portEas) then .error .stall
      else match ready with
      | .error e => .error e
      | .ok _ =>
        match firstStop (s.effects pos word2 hs) with
        | .error e => .error e
        | .ok es =>
          let pc := nextPc k (es.map (·.act))
          let inside := match pc with
            | some t => decide (k.codeBase ≤ t ∧ t < k.codeBase + k.codeLen)
            | none => true
          if !inside then .error (.trap { kind := 1 })
          else if s.outputStalls pos hs es then .error .stall
          else .ok (hs, es, pc)

/-- The word at a code-store address of a lantern. -/
def State.codeWord (s : State) (n a : Nat) : Nat := leNat (s.peek (codeKey n a) 8)

/-- The word at the `PC` issues, traps or waits. -/
def State.issueWord (s : State) (pos : Nat) : State :=
  let k := s.wick pos
  let word := s.codeWord (pos / 17) k.pc
  match s.planWord pos word (s.codeWord (pos / 17) (k.pc + 8)) with
  | .error (.trap t) => s.trapAt pos word t.kind t.addr t.halfB
  | .error .stall => s.setWick pos fun k => { k with stalled := true }
  | .ok (hs, es, pc) => s.commitWord pos hs es pc

/-- R202, R211: the watchdog lets the next word issue after `stall` cycles. -/
def Wick.inBudget (k : Wick) (stall : Nat) : Bool :=
  decide (k.cycles + stall < k.budget) || (k.repKind == 1 && k.repMid)

/-- The word at the `PC` of a running wick has an opcode, or has no defined opcode at all. -/
def wordIs (op word : Nat) : Bool :=
  (wordOps word).contains op || (wordOps word).all fun o => (opRow o).isNone

/-- The wick at `pos` is to issue a word of opcode `op`. -/
def State.wordDue (s : State) (pos op : Nat) : Bool :=
  let k := s.wick pos
  s.live && k.st == 1 && !k.stalled && k.inBudget 0 && wordIs op (s.codeWord (pos / 17) k.pc)

/-- R219: what the SECDED of the code store finds in the word fetched: 0 nothing, 1 a corrected error, 2 an error beyond
correction, with which the fetching task fails. -/
def State.codeFault (s : State) (pos code : Nat) : State :=
  let n := pos / 17
  if code = 1 then
    { s with ras := { s.ras with ce := s.ras.ce ++ [(2, n, 0, s.now)] } }.raise (R.LAN_MON_ERR n) F.LAN_MON_ERR_CODE_CE
  else if code = 2 then (s.raise (R.LAN_MON_ERR n) F.LAN_MON_ERR_CODE_UE).failTask pos Status.uncorrectable
  else s

/-- One row of the Taper reference: the word at the `PC` of wick `pos`, when it is a word of opcode `op`; `code` is what
its fetch finds (R219). -/
def taperRow (op pos code : Nat) (s : State) : Host.Outcome State Fault Refusal :=
  .next (whenDue (s.wordDue pos op && decide (code < 3)) s
    (if code = 2 then s.codeFault pos code else (s.codeFault pos code).issueWord pos))

/-- R177, R179, R191: a stalled word has waited `stall` cycles and tries again. -/
def stalledIssue (pos stall : Nat) (s : State) : State := (s.charge pos stall).issueWord pos

/-- STALLED_WORD_ISSUE (R177, R179, R194, R256): the stalled word issues once what it waits for is there. -/
def execStalledWordIssue (w stall : Nat) (s : State) : Host.Outcome State Fault Refusal :=
  let k := s.wick w
  .next (whenDue (s.live && k.st == 1 && k.stalled && k.inBudget stall) s (stalledIssue w stall s))

/-- R211, R215: the budget is reached, and the wick traps WATCHDOG. -/
def watchdog (pos stall : Nat) (s : State) : State :=
  let s := s.charge pos stall
  s.trapAt pos (s.codeWord (pos / 17) (s.wick pos).pc) 4 0 false

/-- WATCHDOG (R211): before a word issues, the cycle count has reached the budget; a stalled word may have waited
`stall` more cycles. -/
def execWatchdog (w stall : Nat) (s : State) : Host.Outcome State Fault Refusal :=
  let k := s.wick w
  .next (whenDue (s.live && k.st == 1 && (k.stalled || stall == 0) && !k.inBudget stall) s (watchdog w stall s))

/-! ### Far loads -/

/-- R243: the accesses of a load: those on HBM windows have been sampled through the Sconce, the others are sampled
now; `none` when one waits for the Sconce. -/
def State.sampleLoad (s : State) (l : FarLoad) : Option (List (List Byte)) :=
  let gets := (List.zip l.addrs l.got).map fun x =>
    match x.2 with
    | some b => some b
    | none => if l.hbm then none else some (s.peek x.1 l.wid)
  if gets.any Option.isNone then none else some (gets.filterMap id)

/-- R195, R196: the data of far load `n` of a wick arrives; it is written when its shadow has passed. -/
def farArrive (pos n : Nat) (l : FarLoad) (gets : List (List Byte)) (s : State) : State :=
  (s.setWick pos fun k =>
    { k with loads := k.loads.set n { l with got := gets.map some, arrived := true } }).landLoads pos

/-- FAR_LOAD_DATA (R195, R196, R243). -/
def execFarLoadData (w n : Nat) (s : State) : Host.Outcome State Fault Refusal :=
  match (s.wick w).loads[n]? with
  | some l =>
    if !s.live || l.arrived then .next s
    else match s.sampleLoad l with
      | some gets => .next (farArrive w n l gets s)
      | none => .next s
  | none => .next s

end Sys2Proof.Machine
end

