-- ==== Sys2Proof/Machine/Chandelier.lean ====
section
/-! DEFINITION. Chandeliers: tables and leases, loading, searching, stepping, scrubbing and spare rows (R262 to R315;
06_chandelier.md). -/
namespace Sys2Proof.Machine

/-! ### The array and its shadow -/

/-- A Chandelier. -/
def State.chd (s : State) (c : Nat) : Chd := Tab.at s.chds c

/-- A Chandelier changed. -/
def State.setChd (s : State) (c : Nat) (f : Chd → Chd) : State := { s with chds := Tab.edit s.chds c f }

/-- R262, R310: the row that stands for row `r` of bank `b`: its spare, once it is remapped. -/
def Chd.row (h : Chd) (b r : Nat) : CRow :=
  match Tab.get h.remap (2048 * b + r) with
  | some sp => Tab.at h.spares (64 * b + sp)
  | none => Tab.at h.rows (2048 * b + r)

/-- A row changed, in place or in its spare. -/
def Chd.setRow (h : Chd) (b r : Nat) (v : CRow) : Chd :=
  match Tab.get h.remap (2048 * b + r) with
  | some sp => { h with spares := Tab.put h.spares (64 * b + sp) v }
  | none => { h with rows := Tab.put h.rows (2048 * b + r) v }

/-- The side RAM of entry `e` of bank `b`. -/
def Chd.sideOf (h : Chd) (b e : Nat) : CSide := Tab.at h.side (2048 * b + e)

/-- R264: units per entry of a width code. -/
def chdUnits (width : Nat) : Nat := if width = 0 then 1 else if width = 1 then 2 else 4

/-- R264: units per entry of bank `b`. -/
def State.bankUnits (s : State) (c b : Nat) : Nat := chdUnits (s.fld (R.CHD_BANK c b) F.CHD_BANK_WIDTH)

/-- R297: the device address of a row's shadow record. -/
def State.shadowAt (s : State) (c b r : Nat) : Nat :=
  s.fld (R.CHD_SHADOW c) F.CHD_SHADOW_BASE + (b * 2048 + r) * 16

/-- R297: a shadow record. -/
def shadowRecord (unit tag : Nat) (valid first : Bool) (value : Nat) : List Byte :=
  le unit 8 ++ le (tag % 16 + 16 * b2n valid + 32 * b2n first) 1 ++ zeros 3 ++ le (if first then value else 0) 4

/-- R284, R297: an entry written in the array and in the shadow; `key` is its key bytes. -/
def State.writeEntry (s : State) (c b n e : Nat) (valid : Bool) (tag value : Nat) (key : List Byte) : State :=
  let s := (List.range n).foldl (fun s u =>
    let unit := fieldAt key (8 * u) 8
    (s.setChd c fun h => h.setRow b (n * e + u) { data := unit, wrote := unit }).poke (s.shadowAt c b (n * e + u))
      (shadowRecord unit tag valid (u == 0) value)) s
  s.setChd c fun h => { h with side := Tab.put h.side (2048 * b + e) { valid := valid, tag := tag % 16, value := value } }

/-- R271, R284: every entry of a bank made invalid, in the array and in the shadow; all rows hold zero. -/
def State.clearBank (s : State) (c b : Nat) : State :=
  let out {α : Type} (t : Tab α) (n : Nat) : Tab α := t.filter fun e => e.1 / n != b
  (s.setChd c fun h => { h with rows := out h.rows 2048, spares := out h.spares 64, side := out h.side 2048,
                                handles := h.handles.filter fun x => x.2.bank != b }).wipe (s.shadowAt c b 0) 32768

/-- R268: the banks of table `t`, by table-bank number. -/
def State.tableBank (s : State) (c t j : Nat) : Option Nat :=
  (List.range 32).find? fun b =>
    s.bit (R.CHD_BANK c b) F.CHD_BANK_LEASED && s.fld (R.CHD_BANK c b) F.CHD_BANK_TABLE == t
      && s.fld (R.CHD_BANK c b) F.CHD_BANK_TBANK == j

/-- The banks of table `t`. -/
def State.tableBanks (s : State) (c t : Nat) : List Nat :=
  (List.range 32).filter fun b =>
    s.bit (R.CHD_BANK c b) F.CHD_BANK_LEASED && s.fld (R.CHD_BANK c b) F.CHD_BANK_TABLE == t

/-- R292: the handles of a table are dropped. -/
def Chd.dropTable (h : Chd) (t : Nat) : Chd := { h with handles := h.handles.filter fun x => x.2.table != t }

/-- R278, R286: the bank a hash selects in table `t`. -/
def State.hashBank (s : State) (c t hash : Nat) : Option Nat :=
  s.tableBank c t (bitsOf hash 55 5 % 2 ^ s.fld (R.CHD_TABLE c t) F.CHD_TABLE_BANKS_LOG2)

/-! ### Mismatches (R301 to R304, R310 to R312) -/

/-- The runs whose pipeline holds a table on bank `b`. -/
def State.bankRuns (s : State) (c b : Nat) : List Nat :=
  let t := s.fld (R.CHD_BANK c b) F.CHD_BANK_TABLE
  let p := s.fld (R.CHD_TABLE c t) F.CHD_TABLE_PIPELINE
  if s.bit (R.CHD_BANK c b) F.CHD_BANK_LEASED then
    (s.runs.filter fun e => e.2.pipe == p && e.2.st != 3 && e.2.st != 0).map (·.1)
  else []

/-- R310, R312: row `r` of bank `b` is remapped to a free spare row, or the bank goes out of service. -/
def State.remapRow (s : State) (c b r : Nat) (by_ : JEntry := { action := 0x0F }) : State :=
  let used := s.fld (R.CHD_BSPARE c b) F.CHD_BSPARE_USED
  if 64 ≤ used then
    let s := (s.setFld (R.CHD_BANK c b) F.CHD_BANK_OUT_OF_SERVICE 1).raise (R.CHD_ERR c) F.CHD_ERR_EXHAUSTED
    (s.bankRuns c b).foldl (fun s k => s.failRun k Status.repairExhausted) (s.noSpare 3 (32 * c + b))
  else
    let unit := leNat (s.hbmRead (s.shadowAt c b r) 8)
    let s := s.setChd c fun h =>
      { h with remap := Tab.put h.remap (2048 * b + r) used,
               spares := Tab.put h.spares (64 * b + used) { data := unit, wrote := unit } }
    let s := (s.setFld (R.CHD_BSPARE c b) F.CHD_BSPARE_USED (used + 1)).bump (R.CHD_REMAPS c)
    s.repairMade 3 (32 * c + b) r r used by_

/-- R303 step 1: row `r` of bank `b` and the side RAM of its entry are rewritten from the shadow. -/
def State.rewriteRow (s : State) (c b r : Nat) : State :=
  let n := s.bankUnits c b
  let e := r / n
  let unit := leNat (s.hbmRead (s.shadowAt c b r) 8)
  let first := s.hbmRead (s.shadowAt c b (n * e)) 16
  let m := fieldAt first 8 1
  let x : CSide := { valid := bitAt m 4, tag := m % 16, value := fieldAt first 12 4 }
  s.setChd c fun h =>
    let h := h.setRow b r { data := unit, wrote := unit }
    { h with side := Tab.put h.side (2048 * b + e) x }

/-- R303 step 3: the tasks that have searched bank `b` and have not committed or passed are re-run. -/
def State.rerunSearchers (s : State) (c b : Nat) : State :=
  let hit := s.ctxs.filter fun e => e.2.begun && e.2.banks.any fun x => x.1 == 32 * c + b
  hit.foldl (fun s e =>
    let x := Tab.at s.ctxs e.1
    if x.epoch = e.2.epoch ∧ x.begun then s.migrate e.1 x.slot else s) s

/-- R303, R304, R310: a mismatch on row `r` of bank `b`. -/
def State.mismatch (s : State) (c b r : Nat) : State :=
  let s := (s.raise (R.CHD_ERR c) F.CHD_ERR_MISMATCH).bump (R.CHD_MISMATCHES c)
  let a := s.shadowAt c b r
  if s.poisoned a 16 then
    let s := (s.noteUE a 5).raise (R.CHD_ERR c) F.CHD_ERR_SHADOW_UE
    (s.bankRuns c b).foldl (fun s k => s.failRun k Status.uncorrectable) s
  else
    let again := (s.chd c).suspect.contains (2048 * b + r)
    let s := s.rewriteRow c b r
    let s := if again then s.remapRow c b r
      else
        (s.setChd c fun h => { h with suspect := (2048 * b + r) :: h.suspect }).setFld (R.CHD_BSPARE c b)
          F.CHD_BSPARE_SUSPECTS (s.fld (R.CHD_BSPARE c b) F.CHD_BSPARE_SUSPECTS + 1)
    let s := s.setChd c fun h => { h with handles := h.handles.filter fun x => x.2.bank != b }
    s.rerunSearchers c b

/-- Upsets of bank `b` that have happened since the last event: row, flipped data bits, flipped side-RAM bits ([3:0]
tag, [4] valid, [36:5] value tag, [37] parity) of the row's entry. -/
def State.upsetRows (s : State) (c b : Nat) (ups : List (Nat × Nat × Nat)) : State :=
  let n := s.bankUnits c b
  ups.foldl (fun s u =>
    if u.1 < 2048 then
      s.setChd c fun h =>
        let v := h.row b u.1
        let h := h.setRow b u.1 { v with data := (v.data ^^^ u.2.1) % 2 ^ 64 }
        let x := h.sideOf b (u.1 / n)
        let m := u.2.2 % 2 ^ 38
        let odd := ((List.range 38).filter fun i => bitAt m i).length % 2 == 1
        let y : CSide := { valid := x.valid != bitAt m 4, tag := x.tag ^^^ m % 16, value := x.value ^^^ bitsOf m 5 32,
                           good := x.good != odd }
        { h with side := Tab.put h.side (2048 * b + u.1 / n) y }
    else s) s

/-! ### Searching and stepping (R286 to R293, R300, R301) -/

/-- R286: entry `e` of bank `b`, of `n` units, matches a tag and key. -/
def Chd.matches (h : Chd) (b n tag : Nat) (key : Nat) (e : Nat) : Bool :=
  let x := h.sideOf b e
  x.valid && x.tag == tag && (List.range n).all fun u => (h.row b (n * e + u)).data == bitsOf key (64 * u) 64

/-- R300: the read-back of an entry finds no error. -/
def Chd.verifies (h : Chd) (b n e : Nat) : Bool :=
  (h.sideOf b e).good && (List.range n).all fun u => (h.row b (n * e + u)).data == (h.row b (n * e + u)).wrote

/-- R287, R288, R293: of the matching entries from `start` on: those whose verification failed before the answer, and
the entry answered with whether a higher one matches. -/
def Chd.find (h : Chd) (b n tag key start : Nat) : List Nat × Option (Nat × Bool) :=
  let ms := (List.range (2048 / n)).filter fun e => decide (start ≤ e) && h.matches b n tag key e
  let bad := ms.takeWhile fun e => !h.verifies b n e
  match ms.drop bad.length with
  | e :: r => (bad, some (e, !r.isEmpty))
  | [] => (bad, none)

/-- R252: a response slot. -/
def response (result op index value handle : Nat) (cookie : List Byte) : List Byte :=
  le result 1 ++ le op 1 ++ zeros 2 ++ le index 4 ++ le value 4 ++ zeros 4 ++ le handle 8 ++ padTo cookie 8

/-- R291: a handle. -/
def handleWord (c slot seq : Nat) : Nat := slot + seq * 65536 + c * 2 ^ 48

/-- R290: the least recently used of some handles. -/
def oldestHandle (hs : Tab CHandle) : Option Nat :=
  (hs.foldl (fun (best : Option (Nat × Nat)) (e : Nat × CHandle) =>
    match best with
    | some b => if e.2.used < b.2 then some (e.1, e.2.used) else some b
    | none => some (e.1, e.2.used)) none).map (·.1)

/-- R289, R290: a handle allocated for a task: its slot and `SEQ`. -/
def Chd.allocate (h : Chd) (x : CHandle) : Nat × Nat × Chd :=
  let mine := h.handles.filter fun e => e.2.task == x.task
  let free := (List.range 4352).find? fun i => (Tab.get h.handles i).isNone
  let slot := if 4 ≤ mine.length then (oldestHandle mine).getD 0
    else match free with | some i => i | none => (oldestHandle h.handles).getD 0
  let seq := (Tab.at h.seqs slot) % 2 ^ 32
  (slot, seq, { h with handles := Tab.put h.handles slot { x with seq := seq, used := h.clock },
                       seqs := Tab.put h.seqs slot (seq + 1), clock := h.clock + 1 })

/-- R252: the response to the front request of wick `pos` is delivered and the request's slots are freed. -/
def State.respond (s : State) (pos slots : Nat) (bs : List Byte) : State :=
  let s := s.fillPort pos 0x041 bs 32
  s.setWick pos fun k => { (k.freeSlots (List.replicate slots 0x040)) with reqs := k.reqs - 1 }

/-- R305: the task of wick `pos` has made a request to bank `b`. -/
def State.noteBank (s : State) (pos c b : Nat) : State :=
  let v := s.fld (R.CHD_BSCRUB c b) F.CHD_BSCRUB_STARTED
  s.setCtx (s.wick pos).ctx fun x =>
    { x with banks := (x.banks.filter fun y => y.1 != 32 * c + b) ++ [(32 * c + b, v)] }

/-- R301: failed verifications of entries of bank `b`. -/
def State.readbackFails (s : State) (c b n : Nat) (bad : List Nat) : State :=
  bad.foldl (fun s e =>
    let s := (s.raise (R.CHD_ERR c) F.CHD_ERR_READBACK).bump (R.CHD_READBACK_FAILS c)
    (List.range n).foldl (fun s u => s.mismatch c b (n * e + u)) s) s

/-- R273: Chandelier `c` serves a request of the task of wick `pos` for table `t`. -/
def State.leaseHolds (s : State) (pos c t : Nat) : Bool :=
  let x := Tab.at s.ctxs (s.wick pos).ctx
  let f := s.fld (R.CHD_TABLE c t)
  f F.CHD_TABLE_VALID == 1 && f F.CHD_TABLE_INSTANCE == x.inst && f F.CHD_TABLE_GENERATION == x.gen
    && f F.CHD_TABLE_PIPELINE == x.pipe

/-- R274: the lease test fails. -/
def State.leaseViolation (s : State) (pos c op slots : Nat) (cookie : List Byte) : State :=
  ((s.raise (R.CHD_ERR c) F.CHD_ERR_LEASE_VIOL).bump (R.CHD_LEASE_VIOLS c)).respond pos slots
    (response 0 op 0 0 0 cookie)

/-- R269: the answer that returns entry `e` of bank `b`. -/
def State.hitSlot (s : State) (c b n e op handle : Nat) (cookie : List Byte) : List Byte :=
  let index := s.fld (R.CHD_BANK c b) F.CHD_BANK_TBANK * (2048 / n) + e
  response (if handle = 0 then 1 else 3) op index ((s.chd c).sideOf b e).value handle cookie

/-- A request served is counted (R602 and the Chandelier's counters). -/
def State.countRequest (s : State) (pos counter : Nat) : State :=
  (s.bump counter).tallyAdd (Tab.at s.ctxs (s.wick pos).ctx).inst fun x => { x with searches := x.searches + 1 }

/-- R287: a `SEARCH` is served. -/
def chdSearch (pos c t : Nat) (req key : List Byte) (ups : List (Nat × Nat × Nat)) (s : State) : State :=
  let s := s.countRequest pos (R.CHD_SEARCHES c)
  let cookie := slice req 16 8
  let hash := fieldAt req 0 8
  if !s.leaseHolds pos c t then s.leaseViolation pos c 1 2 cookie
  else match s.hashBank c t hash with
  | none => s.respond pos 2 (response 0 1 0 0 0 cookie)
  | some b =>
    let s := (s.upsetRows c b ups).noteBank pos c b
    let n := s.bankUnits c b
    let tag := bitsOf hash 60 4
    let r := (s.chd c).find b n tag (leNat key) 0
    match r.2 with
    | none => (s.respond pos 2 (response 0 1 0 0 0 cookie)).readbackFails c b n r.1
    | some (e, more) =>
      let s := s.bump (R.CHD_HITS c)
      if more then
        let a := (s.chd c).allocate { task := (s.wick pos).ctx, table := t, bank := b, key := leNat key, tag := tag, last := e }
        let s := (s.setChd c fun _ => a.2.2).bump (R.CHD_MULTIS c)
        let slot := response 3 1 (s.fld (R.CHD_BANK c b) F.CHD_BANK_TBANK * (2048 / n) + e)
          ((s.chd c).sideOf b e).value (handleWord c a.1 a.2.1) cookie
        (s.respond pos 2 slot).readbackFails c b n r.1
      else (s.respond pos 2 (s.hitSlot c b n e 1 0 cookie)).readbackFails c b n r.1

/-- R292: the handle slot that a `STEP`'s handle names validly. -/
def State.goodHandle (s : State) (pos c t h : Nat) : Option (Nat × CHandle) :=
  match Tab.get (s.chd c).handles (bitsOf h 0 13) with
  | some x =>
    if x.seq = bitsOf h 16 32 ∧ x.task = (s.wick pos).ctx ∧ bitsOf h 48 2 = c ∧ x.table = t then
      some (bitsOf h 0 13, x)
    else none
  | none => none

/-- R288: a `STEP` is served. -/
def chdStep (pos c t : Nat) (req : List Byte) (ups : List (Nat × Nat × Nat)) (s : State) : State :=
  let s := s.countRequest pos (R.CHD_STEPS c)
  let cookie := slice req 16 8
  let hw := fieldAt req 0 8
  if !s.leaseHolds pos c t then s.leaseViolation pos c 2 1 cookie
  else match s.goodHandle pos c t hw with
  | none => (s.bump (R.CHD_BADHANDLES c)).respond pos 1 (response 0x80 2 0 0 0 cookie)
  | some (i, x) =>
    let b := x.bank
    let s := (s.upsetRows c b ups).noteBank pos c b
    let n := s.bankUnits c b
    let r := (s.chd c).find b n x.tag x.key (x.last + 1)
    let drop (s : State) : State := s.setChd c fun h => { h with handles := Tab.del h.handles i }
    match r.2 with
    | none => ((drop s).respond pos 1 (response 0 2 0 0 0 cookie)).readbackFails c b n r.1
    | some (e, more) =>
      let s := s.bump (R.CHD_HITS c)
      if more then
        let slot := response 3 2 (s.fld (R.CHD_BANK c b) F.CHD_BANK_TBANK * (2048 / n) + e)
          ((s.chd c).sideOf b e).value (hw % 2 ^ 50) cookie
        let s := s.setChd c fun h =>
          { h with handles := Tab.put h.handles i { x with last := e, used := h.clock }, clock := h.clock + 1 }
        ((s.bump (R.CHD_MULTIS c)).respond pos 1 slot).readbackFails c b n r.1
      else ((drop s).respond pos 1 (s.hitSlot c b n e 2 0 cookie)).readbackFails c b n r.1

/-- The front request of wick `pos`, when a Chandelier may serve it: Chandelier, table, request slot, key slot. A
request for a table that is loading waits (R283), as does one whose wick has no free response slot. -/
def State.frontRequest (s : State) (pos op : Nat) : Option (Nat × Nat × List Byte × List Byte) :=
  let k := s.wick pos
  let p := k.port 0x040
  let req := s.peek (waxKey pos (p.slotEa 0)) 32
  let need := if op = 1 then 2 else 1
  match k.chds[fieldAt req 8 1]? with
  | none => none
  | some ct =>
    let c := ct / 32
    let t := ct % 32
    if s.live && k.st == 1 && decide (need ≤ p.filled) && fieldAt req 10 1 == op && !k.portFull 0x041 1
        && s.bit (R.CHD_CTL c) F.CHD_CTL_EN && !s.bit (R.CHD_TABLE c t) F.CHD_TABLE_LOADING then
      some (c, t, req, s.peek (waxKey pos (p.slotEa 1)) 32)
    else none

/-- CHD_SEARCH_SERVE (R252, R273, R274, R283, R286, R287, R289, R290, R293, R296, R300 to R305, R310, R312): the front
request of wick `w`, with the upsets of its bank that have happened. -/
def execChdSearchServe (w : Nat) (ups : List (Nat × Nat × Nat)) (s : State) : Host.Outcome State Fault Refusal :=
  match s.frontRequest w 1 with
  | some (c, t, req, key) => .next (chdSearch w c t req key ups s)
  | none => .next s

/-- CHD_STEP_SERVE (R252, R273, R274, R283, R288 to R290, R292, R293, R296, R300 to R305, R310). -/
def execChdStepServe (w : Nat) (ups : List (Nat × Nat × Nat)) (s : State) : Host.Outcome State Fault Refusal :=
  match s.frontRequest w 2 with
  | some (c, t, req, _) => .next (chdStep w c t req ups s)
  | none => .next s

/-! ### Loading (R276 to R284) -/

/-- R281: the run a table serves. -/
def State.tableRun (s : State) (c t : Nat) : Nat :=
  let p := s.fld (R.CHD_TABLE c t) F.CHD_TABLE_PIPELINE
  ((s.runs.find? fun e => e.2.pipe == p && e.2.active).map (·.1)).getD 0

/-- R284: `CLEAR` of table `t`. -/
def State.clearTable (s : State) (c t : Nat) : State :=
  ((s.tableBanks c t).foldl (fun s b => s.clearBank c b) s).setChd c fun h => h.dropTable t

/-- R277, R314: `GO` with the count and table of `CHDc_LOAD_CTL`. One table loads at a time. -/
def State.startLoad (s : State) (c : Nat) : State :=
  let n := s.fld (R.CHD_LOAD_CTL c) F.CHD_LOAD_CTL_COUNT
  let t := s.fld (R.CHD_LOAD_CTL c) F.CHD_LOAD_CTL_TABLE
  if n = 0 ∨ 65536 < n then s.raise (R.CHD_ERR c) F.CHD_ERR_BADCFG
  else if (s.chd c).load.isSome then s
  else
    let a := s.fld (R.CHD_LOAD_ADDR c) F.CHD_LOAD_ADDR_ADDR
    let run := s.tableRun c t
    let s := s.setChd c fun h => { (h.dropTable t) with load := some (t, a, n, 0, run) }
    (s.setFld (R.CHD_STAT c) F.CHD_STAT_LOADING 1).setFld (R.CHD_TABLE c t) F.CHD_TABLE_LOADING 1

/-- A write of `CHDc_LOAD_CTL`: the fields are stored, then `CLEAR` and `GO` take effect. -/
def loadCtlWrite (c val : Nat) (s : State) : State :=
  let s := s.wr (R.CHD_LOAD_CTL c) (val % 2 ^ 22)
  let s := if bitAt val 23 then s.clearTable c (bitsOf val 17 5) else s
  if bitAt val 22 then s.startLoad c else s

/-- GO (R277, R314): a write of `CHDc_LOAD_CTL` with `GO` 1. -/
def execChdGo (who : Who) (c val : Nat) (s : State) : Host.Outcome State Fault Refusal :=
  .next (whenDue (s.live && decide (c < 4) && bitAt val 22) s
    (s.journalCsr (loadCtlWrite c val s) who (R.CHD_LOAD_CTL c)))

/-- CLEAR (R271, R284): a write of `CHDc_LOAD_CTL` with `CLEAR` 1. -/
def execChdClear (who : Who) (c val : Nat) (s : State) : Host.Outcome State Fault Refusal :=
  .next (whenDue (s.live && decide (c < 4) && bitAt val 23) s
    (s.journalCsr (loadCtlWrite c val s) who (R.CHD_LOAD_CTL c)))

/-- The load of Chandelier `c` ends. -/
def State.endLoad (s : State) (c t : Nat) : State :=
  ((s.setChd c fun h => { h with load := none }).setFld (R.CHD_STAT c) F.CHD_STAT_LOADING 0).setFld
    (R.CHD_TABLE c t) F.CHD_TABLE_LOADING 0

/-- R280, R281: the load stops at record `i` for a cause. -/
def State.stopLoad (s : State) (c t i run cause : Nat) : State :=
  let s := (s.endLoad c t).wr (R.CHD_LOAD_STAT c) (cause + i * 256)
  (s.raise (R.CHD_ERR c) F.CHD_ERR_LOAD_FAIL).failRun run
    (if cause = 3 then Status.uncorrectable else Status.tableLoadFailed)

/-- R278: an `INSERT` record. -/
def State.loadInsert (s : State) (c t i run : Nat) (rec_ : List Byte) : State :=
  match s.hashBank c t (fieldAt rec_ 0 8) with
  | none => s.stopLoad c t i run 1
  | some b =>
    let n := s.bankUnits c b
    match (List.range (2048 / n)).find? fun e => !((s.chd c).sideOf b e).valid with
    | none => s.stopLoad c t i run 1
    | some e => s.writeEntry c b n e true (bitsOf (fieldAt rec_ 0 8) 60 4) (fieldAt rec_ 8 4) (slice rec_ 32 (8 * n))

/-- R279: a `DELETE` record. -/
def State.loadDelete (s : State) (c t : Nat) (rec_ : List Byte) : State :=
  match s.hashBank c t (fieldAt rec_ 0 8) with
  | none => s.bump (R.CHD_DELETE_MISSES c)
  | some b =>
    let n := s.bankUnits c b
    let tag := bitsOf (fieldAt rec_ 0 8) 60 4
    let key := leNat (slice rec_ 32 (8 * n))
    match (List.range (2048 / n)).find? fun e =>
        (s.chd c).matches b n tag key e && ((s.chd c).sideOf b e).value == fieldAt rec_ 8 4 with
    | none => s.bump (R.CHD_DELETE_MISSES c)
    | some e => s.writeEntry c b n e false tag (fieldAt rec_ 8 4) (slice rec_ 32 (8 * n))

/-- R277, R280: the next record of a load is applied, or stops it. -/
def loadRecord (c t a n i run : Nat) (s : State) : State :=
  let at_ := a + 64 * i
  if s.poisoned at_ 64 then (s.noteUE at_ 5).stopLoad c t i run 3
  else
    let rec_ := s.hbmRead at_ 64
    let s := s.tallyAdd (s.fld (R.CHD_TABLE c t) F.CHD_TABLE_INSTANCE) fun x => { x with hbmRead := x.hbmRead + 64 }
    let op := fieldAt rec_ 12 1
    let s := if op = 1 then s.loadInsert c t i run rec_
      else if op = 2 then s.loadDelete c t rec_
      else s.stopLoad c t i run 2
    if (s.chd c).load.isNone then s
    else if n ≤ i + 1 then s.endLoad c t
    else s.setChd c fun h => { h with load := some (t, a, n, i + 1, run) }

/-- The next record of Chandelier `c`'s load is an `INSERT`, a `DELETE`, or one that stops the load under either row. -/
def State.loadDue (s : State) (c op : Nat) : Option (Nat × Nat × Nat × Nat × Nat) :=
  match (s.chd c).load with
  | some (t, a, n, i, run) =>
    let x := fieldAt (s.hbmRead (a + 64 * i) 64) 12 1
    if s.live && decide (c < 4) && (s.poisoned (a + 64 * i) 64 || x == op || (x != 1 && x != 2)) then
      some (t, a, n, i, run) else none
  | none => none

/-- INSERT (R278, R280, R281, R283, R284, R313). -/
def execChdInsert (c : Nat) (s : State) : Host.Outcome State Fault Refusal :=
  match s.loadDue c 1 with
  | some (t, a, n, i, run) => .next (loadRecord c t a n i run s)
  | none => .next s

/-- DELETE (R279 to R281, R283, R284). -/
def execChdDelete (c : Nat) (s : State) : Host.Outcome State Fault Refusal :=
  match s.loadDue c 2 with
  | some (t, a, n, i, run) => .next (loadRecord c t a n i run s)
  | none => .next s

/-! ### The scrubber (R297 to R305) -/

/-- R298: row `r` of bank `b` agrees with its shadow record. -/
def State.rowAgrees (s : State) (c b r : Nat) : Bool :=
  let n := s.bankUnits c b
  let h := s.chd c
  let v := h.row b r
  let x := h.sideOf b (r / n)
  let sh := s.hbmRead (s.shadowAt c b r) 16
  let m := fieldAt sh 8 1
  v.data == v.wrote && x.good && v.data == fieldAt sh 0 8 && x.tag == m % 16 && x.valid == bitAt m 4
    && (r % n != 0 || x.value == fieldAt sh 12 4)

/-- The row shows an error of its own: its check bits or its entry's parity. -/
def State.rowErrs (s : State) (c b r : Nat) : Bool :=
  let v := (s.chd c).row b r
  v.data != v.wrote || !((s.chd c).sideOf b (r / s.bankUnits c b)).good

/-- R298, R299: the scrubber compares its next row; a visit starts with row 0. -/
def scrubRow (c : Nat) (ups : List (Nat × Nat × Nat)) (s : State) : State :=
  let b := s.fld (R.CHD_STAT c) F.CHD_STAT_SCRUB_BANK
  let r := s.fld (R.CHD_STAT c) F.CHD_STAT_SCRUB_ROW
  let s := if (s.chd c).visiting then s
    else (s.setChd c fun h => { h with visiting := true }).setFld (R.CHD_BSCRUB c b) F.CHD_BSCRUB_STARTED
      (s.fld (R.CHD_BSCRUB c b) F.CHD_BSCRUB_STARTED + 1)
  let s := (s.upsetRows c b ups).setFld (R.CHD_STAT c) F.CHD_STAT_SCRUB_ROW (r + 1)
  if s.poisoned (s.shadowAt c b r) 16 then
    if s.rowErrs c b r then s.mismatch c b r else s.noteUE (s.shadowAt c b r) 5
  else if s.rowAgrees c b r then s else s.mismatch c b r

/-- SCRUB_ROW (R298, R299, R302 to R304, R310, R312): with the upsets of the visited bank that have happened. -/
def execScrubRow (c : Nat) (ups : List (Nat × Nat × Nat)) (s : State) : Host.Outcome State Fault Refusal :=
  .next (whenDue (s.live && decide (c < 4) && s.bit (R.CHD_CTL c) F.CHD_CTL_SCRUB_EN
      && !((s.chd c).visiting && s.fld (R.CHD_STAT c) F.CHD_STAT_SCRUB_ROW == 0)) s (scrubRow c ups s))

/-- R298, R299: the visit of a bank ends, and the next bank follows. -/
def visitEnd (c : Nat) (s : State) : State :=
  let b := s.fld (R.CHD_STAT c) F.CHD_STAT_SCRUB_BANK
  let s := s.setChd c fun h => { h with visiting := false }
  let s := s.setFld (R.CHD_BSCRUB c b) F.CHD_BSCRUB_DONE (s.fld (R.CHD_BSCRUB c b) F.CHD_BSCRUB_DONE + 1)
  let s := s.setFld (R.CHD_STAT c) F.CHD_STAT_SCRUB_BANK ((b + 1) % 32)
  if b = 31 then s.setFld (R.CHD_SCRUB c) F.CHD_SCRUB_PASSES (s.fld (R.CHD_SCRUB c) F.CHD_SCRUB_PASSES + 1) else s

/-- SCRUB_VISIT_END (R299, R305, R309). -/
def execScrubVisitEnd (c : Nat) (s : State) : Host.Outcome State Fault Refusal :=
  .next (whenDue (s.live && decide (c < 4) && s.bit (R.CHD_CTL c) F.CHD_CTL_SCRUB_EN && (s.chd c).visiting
      && s.fld (R.CHD_STAT c) F.CHD_STAT_SCRUB_ROW == 0) s (visitEnd c s))

/-! ### Registers (R314, R315) -/

/-- R315: a write of `CHDc_BANKb`. -/
def bankWrite (c b val : Nat) (s : State) : State :=
  let off := R.CHD_BANK c b
  let old := s.rd off
  let held := fun t => s.bit (R.CHD_TABLE c t) F.CHD_TABLE_VALID
  let bad (s : State) : State := s.raise (R.CHD_ERR c) F.CHD_ERR_BADCFG
  if held (bitsOf old 3 5) || held (bitsOf val 3 5) then bad s
  else
    let width := if bitsOf val 1 2 = 3 then bitsOf old 1 2 else bitsOf val 1 2
    let s := s.wr off (putBits (val % 2 ^ 13) 1 2 width + putBits 0 13 1 (bitsOf old 13 1))
    if bitsOf val 1 2 = 3 then bad s else s

/-- BANK_WRITE (R268, R314, R315). -/
def execBankWrite (who : Who) (c b val : Nat) (s : State) : Host.Outcome State Fault Refusal :=
  .next (whenDue (s.live && decide (c < 4 ∧ b < 32)) s (s.journalCsr (bankWrite c b val s) who (R.CHD_BANK c b)))

end Sys2Proof.Machine
end

