-- ==== Sys2Proof/Machine/Crypto.lean ====
section
/-! DEFINITION. SHA-256, HMAC, AES-256-GCM, LM-OTS, LMS and HSS as Sealwax computes them (R731, R733, R751, R755, R756,
R764; FIPS 180-4, RFC 2104, FIPS 197, SP 800-38D, RFC 8554). -/
namespace Sys2Proof.Machine

/-! ### SHA-256 -/

/-- A 32-bit word rotated right. -/
def rotr32 (x n : Nat) : Nat := (x >>> n) ||| ((x <<< (32 - n)) % 2 ^ 32)

/-- FIPS 180-4: the round constants. -/
def shaK : List Nat :=
  [0x428a2f98, 0x71374491, 0xb5c0fbcf, 0xe9b5dba5, 0x3956c25b, 0x59f111f1, 0x923f82a4, 0xab1c5ed5,
   0xd807aa98, 0x12835b01, 0x243185be, 0x550c7dc3, 0x72be5d74, 0x80deb1fe, 0x9bdc06a7, 0xc19bf174] ++
  [0xe49b69c1, 0xefbe4786, 0x0fc19dc6, 0x240ca1cc, 0x2de92c6f, 0x4a7484aa, 0x5cb0a9dc, 0x76f988da,
   0x983e5152, 0xa831c66d, 0xb00327c8, 0xbf597fc7, 0xc6e00bf3, 0xd5a79147, 0x06ca6351, 0x14292967] ++
  [0x27b70a85, 0x2e1b2138, 0x4d2c6dfc, 0x53380d13, 0x650a7354, 0x766a0abb, 0x81c2c92e, 0x92722c85,
   0xa2bfe8a1, 0xa81a664b, 0xc24b8b70, 0xc76c51a3, 0xd192e819, 0xd6990624, 0xf40e3585, 0x106aa070] ++
  [0x19a4c116, 0x1e376c08, 0x2748774c, 0x34b0bcb5, 0x391c0cb3, 0x4ed8aa4a, 0x5b9cca4f, 0x682e6ff3,
   0x748f82ee, 0x78a5636f, 0x84c87814, 0x8cc70208, 0x90befffa, 0xa4506ceb, 0xbef9a3f7, 0xc67178f2]

/-- FIPS 180-4: the first hash words. -/
def shaInit : List Nat :=
  [0x6a09e667, 0xbb67ae85, 0x3c6ef372, 0xa54ff53a, 0x510e527f, 0x9b05688c, 0x1f83d9ab, 0x5be0cd19]

/-- The message schedule, newest word first, extended by `n` words. -/
def shaExtend : Nat → List Nat → List Nat
  | 0, w => w
  | n + 1, w =>
    let x := w.getD 14 0
    let y := w.getD 1 0
    let s0 := rotr32 x 7 ^^^ rotr32 x 18 ^^^ (x >>> 3)
    let s1 := rotr32 y 17 ^^^ rotr32 y 19 ^^^ (y >>> 10)
    shaExtend n ((s1 + w.getD 6 0 + s0 + w.getD 15 0) % 2 ^ 32 :: w)

/-- One round of the compression function, with its constant and schedule word. -/
def shaRound (h : List Nat) (kw : Nat × Nat) : List Nat :=
  match h with
  | [a, b, c, d, e, f, g, i] =>
    let s1 := rotr32 e 6 ^^^ rotr32 e 11 ^^^ rotr32 e 25
    let ch := (e &&& f) ^^^ ((2 ^ 32 - 1 - e) &&& g)
    let t1 := i + s1 + ch + kw.1 + kw.2
    let s0 := rotr32 a 2 ^^^ rotr32 a 13 ^^^ rotr32 a 22
    let maj := (a &&& b) ^^^ (a &&& c) ^^^ (b &&& c)
    [(t1 + s0 + maj) % 2 ^ 32, a, b, c, (d + t1) % 2 ^ 32, e, f, g]
  | _ => h

/-- R731: the hash words after one 64-byte block. -/
def shaBlock (h : List Nat) (blk : List Byte) : List Nat :=
  let w0 := (List.range 16).map fun i => beNat (slice blk (4 * i) 4)
  let w := (shaExtend 48 w0.reverse).reverse
  let r := (shaK.zip w).foldl shaRound h
  h.zipWith (fun a b => (a + b) % 2 ^ 32) r

/-- The hash words after every whole block of `bs`. -/
def shaBlocks (h : List Nat) (bs : List Byte) : List Nat :=
  (List.range (bs.length / 64)).foldl (fun h i => shaBlock h (slice bs (64 * i) 64)) h

/-- FIPS 180-4: padding after `total` bytes of message. -/
def shaPad (total : Nat) : List Byte :=
  0x80 :: zeros ((119 - total % 64) % 64) ++ be (8 * total) 8

/-- The digest that ends a message: hash words, the bytes not yet absorbed, the message's bytes in all. -/
def shaFinish (h : List Nat) (rest : List Byte) (total : Nat) : List Byte :=
  (shaBlocks h (rest ++ shaPad total)).flatMap fun w => be w 4

/-- SHA-256. -/
def sha256 (bs : List Byte) : List Byte := shaFinish shaInit bs bs.length

/-- RFC 2104: the key block XORed with a pad byte. -/
def hmacPad (key : List Byte) (pad : Byte) : List Byte := (padTo key 64).map (· ^^^ pad)

/-- R731: HMAC-SHA-256 with a key of at most 64 bytes. -/
def hmac (key msg : List Byte) : List Byte :=
  sha256 (hmacPad key 0x5C ++ sha256 (hmacPad key 0x36 ++ msg))

/-- R733: KDF(s, label, x); the label's ASCII bytes as a big-endian number of `n` bytes. -/
def kdf (s : List Byte) (label n : Nat) (x : List Byte) : List Byte := hmac s (be label n ++ x)

/-! ### AES-256-GCM -/

/-- FIPS 197: multiplication by x. -/
def xtime (a : Nat) : Nat := if 128 ≤ a then ((2 * a) % 256) ^^^ 0x1B else 2 * a

/-- FIPS 197: multiplication in GF(2^8). -/
def gmul (a b : Nat) : Nat :=
  ((List.range 8).foldl (fun (st : Nat × Nat) i => (if bitAt b i then st.1 ^^^ st.2 else st.1, xtime st.2)) (0, a)).1

/-- The inverse in GF(2^8), 0 for 0: the 254th power. -/
def ginv (a : Nat) : Nat :=
  ((List.range 7).foldl (fun (st : Nat × Nat) _ => let sq := gmul st.2 st.2; (gmul st.1 sq, sq)) (1, a)).1

/-- A byte rotated left. -/
def rotl8 (x n : Nat) : Nat := ((x <<< n) % 256) ||| (x >>> (8 - n))

/-- FIPS 197: the S-box. -/
def sbox (a : Nat) : Nat :=
  let b := ginv a
  b ^^^ rotl8 b 1 ^^^ rotl8 b 2 ^^^ rotl8 b 3 ^^^ rotl8 b 4 ^^^ 0x63

/-- The key schedule, newest word of 4 bytes first, extended by `n` words from word `i`. -/
def aesExtend : Nat → Nat → List (List Nat) → List (List Nat)
  | 0, _, w => w
  | n + 1, i, w =>
    let t := w.headD []
    let rc := (List.range (i / 8 - 1)).foldl (fun x _ => xtime x) 1
    let t := if i % 8 = 0 then
        match (t.drop 1 ++ t.take 1).map sbox with
        | x :: r => (x ^^^ rc) :: r
        | [] => []
      else if i % 8 = 4 then t.map sbox else t
    aesExtend n (i + 1) ((w.getD 7 []).zipWith (· ^^^ ·) t :: w)

/-- FIPS 197: the 15 round keys of AES-256. -/
def aesKeys (key : List Byte) : List (List Nat) :=
  let w0 := (List.range 8).map fun i => (slice key (4 * i) 4).map (·.toNat)
  let w := (aesExtend 52 8 w0.reverse).reverse
  (List.range 15).map fun r => ((w.drop (4 * r)).take 4).flatten

/-- FIPS 197: `ShiftRows` of a state held column by column. -/
def shiftRows (st : List Nat) : List Nat := (List.range 16).map fun i => st.getD ((i + 4 * (i % 4)) % 16) 0

/-- FIPS 197: `MixColumns`. -/
def mixColumns (st : List Nat) : List Nat :=
  (List.range 16).map fun i =>
    let c := st.drop (i / 4 * 4)
    let a (k : Nat) : Nat := c.getD ((i + k) % 4) 0
    gmul (a 0) 2 ^^^ gmul (a 1) 3 ^^^ a 2 ^^^ a 3

/-- FIPS 197: one block enciphered under a key schedule. -/
def aesBlock (ks : List (List Nat)) (blk : List Byte) : List Byte :=
  let add (st : List Nat) (r : Nat) : List Nat := st.zipWith (· ^^^ ·) (ks.getD r [])
  let st := add (blk.map (·.toNat)) 0
  let st := (List.range 13).foldl (fun st r => add (mixColumns (shiftRows (st.map sbox))) (r + 1)) st
  (add (shiftRows (st.map sbox)) 14).map (BitVec.ofNat 8)

/-- SP 800-38D: multiplication in GF(2^128). -/
def gf128 (x y : Nat) : Nat :=
  ((List.range 128).foldl (fun (st : Nat × Nat) i =>
    (if bitAt x (127 - i) then st.1 ^^^ st.2 else st.1,
     if st.2 % 2 = 1 then (st.2 / 2) ^^^ (0xE1 <<< 120) else st.2 / 2)) (0, y)).1

/-- SP 800-38D: GHASH of whole blocks. -/
def ghash (h : Nat) (bs : List Byte) : Nat :=
  (List.range (bs.length / 16)).foldl (fun y i => gf128 (y ^^^ beNat (slice bs (16 * i) 16)) h) 0

/-- SP 800-38D: counter mode from counter 2 on. -/
def gcmStream (ks : List (List Nat)) (iv bs : List Byte) : List Byte :=
  (List.range (ceilDiv bs.length 16)).flatMap fun i =>
    (slice bs (16 * i) 16).zipWith (· ^^^ ·) (aesBlock ks (iv ++ be (i + 2) 4))

/-- SP 800-38D: the tag over additional data and ciphertext. -/
def gcmTag (ks : List (List Nat)) (iv aad ct : List Byte) : List Byte :=
  let h := beNat (aesBlock ks (zeros 16))
  let fill (b : List Byte) : List Byte := padTo b (roundUp b.length 16)
  let s := ghash h (fill aad ++ fill ct ++ be (8 * aad.length) 8 ++ be (8 * ct.length) 8)
  be (s ^^^ beNat (aesBlock ks (iv ++ be 1 4))) 16

/-! ### LMS and HSS (RFC 8554) -/

/-- The sixteen-valued digits of a hash and its checksum (w = 4): 67 of them. -/
def otsDigits (q : List Byte) : List Nat :=
  let ds := q.flatMap fun b => [b.toNat / 16, b.toNat % 16]
  let sum := ds.foldl (fun a d => a + (15 - d)) 0
  ds ++ [sum / 256 % 16, sum / 16 % 16, sum % 16]

/-- Algorithm 4b's chain: the value of chain `i` taken from step `frm` up to step `to`. -/
def otsChain (idq : List Byte) (i frm dest : Nat) (x : List Byte) : List Byte :=
  (List.range (dest - frm)).foldl (fun x k => sha256 (idq ++ be i 2 ++ be (frm + k) 1 ++ x)) x

/-- The hash that an LM-OTS signature signs. -/
def otsHash (idq c msg : List Byte) : List Byte := sha256 (idq ++ be 0x8181 2 ++ c ++ msg)

/-- Algorithm 4b: the candidate public key of an LM-OTS signature. -/
def otsCandidate (idq sig msg : List Byte) : List Byte :=
  let ds := otsDigits (otsHash idq (slice sig 4 32) msg)
  let z := (List.range 67).flatMap fun i => otsChain idq i (ds.getD i 0) 15 (slice sig (36 + 32 * i) 32)
  sha256 (idq ++ be 0x8080 2 ++ z)

/-- R755: the height of an LMS type that the device accepts. -/
def lmsHeight (ty : Nat) : Option Nat := if ty = 7 then some 15 else if ty = 6 then some 10 else none

/-- Algorithm 6a: the candidate root reached from a leaf along a path. -/
def lmsClimb (i : List Byte) : List (List Byte) → Nat → List Byte → List Byte
  | [], _, x => x
  | p :: ps, node, x =>
    let pre := i ++ be (node / 2) 4 ++ be 0x8383 2
    lmsClimb i ps (node / 2) (sha256 (if node % 2 = 1 then pre ++ p ++ x else pre ++ x ++ p))

/-- Algorithm 6a under R755: the LMS signature, of exactly its own length, verifies under the public key. -/
def lmsVerify (pub sig msg : List Byte) : Bool :=
  match lmsHeight (beNat (slice pub 0 4)) with
  | none => false
  | some h =>
    let i := slice pub 8 16
    let q := beNat (slice sig 0 4)
    let idq := i ++ be q 4
    let leaf := sha256 (i ++ be (2 ^ h + q) 4 ++ be 0x8282 2 ++ otsCandidate idq (slice sig 4 2180) msg)
    let path := (List.range h).map fun k => slice sig (2188 + 32 * k) 32
    pub.length == 56 && sig.length == 2188 + 32 * h && decide (q < 2 ^ h)
      && beNat (slice pub 4 4) == 3 && beNat (slice sig 4 4) == 3 && slice sig 2184 4 == slice pub 0 4
      && lmsClimb i path (2 ^ h + q) leaf == slice pub 24 32

/-- RFC 8554 section 6.3 under R755: `HSS_VERIFY`. -/
def hssVerify (pub sig msg : List Byte) : Bool :=
  let l := beNat (slice pub 0 4)
  let top := slice pub 4 56
  if pub.length ≠ 60 ∨ beNat (slice sig 0 4) + 1 ≠ l then false
  else if l = 1 then lmsVerify top (sig.drop 4) msg
  else if l = 2 then
    match lmsHeight (beNat (slice top 0 4)) with
    | none => false
    | some h =>
      let n := 2188 + 32 * h
      let next := slice sig (4 + n) 56
      lmsVerify top (slice sig 4 n) next && lmsVerify next (sig.drop (4 + n + 56)) msg
  else false

/-- RFC 8554 Appendix A (PRESUMED): the start of chain `k` of leaf `q`, from the tree's SEED. -/
def otsSecret (idq seed : List Byte) (k : Nat) : List Byte := sha256 (idq ++ be k 2 ++ [0xFF] ++ seed)

/-- The leaf node of leaf `q` of a tree of height `h`. -/
def lmsLeaf (i seed : List Byte) (h q : Nat) : List Byte :=
  let idq := i ++ be q 4
  let ys := (List.range 67).flatMap fun k => otsChain idq k 0 15 (otsSecret idq seed k)
  sha256 (i ++ be (2 ^ h + q) 4 ++ be 0x8282 2 ++ sha256 (idq ++ be 0x8080 2 ++ ys))

/-- The node numbered `r`, `up` levels above the leaves of a tree of height `h`. -/
def lmsNode (i seed : List Byte) (h : Nat) : Nat → Nat → List Byte
  | 0, r => lmsLeaf i seed h (r - 2 ^ h)
  | up + 1, r => sha256 (i ++ be r 4 ++ be 0x8383 2 ++ lmsNode i seed h up (2 * r) ++ lmsNode i seed h up (2 * r + 1))

/-- R756: the LMS public key of a tree. -/
def lmsPublic (i seed : List Byte) (h : Nat) : List Byte :=
  be (if h = 15 then 7 else 6) 4 ++ be 3 4 ++ i ++ lmsNode i seed h h 1

/-- R764: the LMS signature of a message at leaf `q`, with randomiser `c`. -/
def lmsSign (i seed c : List Byte) (h q : Nat) (msg : List Byte) : List Byte :=
  let idq := i ++ be q 4
  let ds := otsDigits (otsHash idq c msg)
  let ys := (List.range 67).flatMap fun k => otsChain idq k 0 (ds.getD k 0) (otsSecret idq seed k)
  let path := (List.range h).flatMap fun k => lmsNode i seed h k ((2 ^ h + q) / 2 ^ k ^^^ 1)
  be q 4 ++ be 3 4 ++ c ++ ys ++ be (if h = 15 then 7 else 6) 4 ++ path

/-! ### Signature blocks and images (R757 to R760) -/

/-- R757: an entry: role, public key, signature. -/
structure SigEntry where
  role : Nat := 0
  pub : List Byte := []
  sig : List Byte := []
deriving DecidableEq, Repr, Inhabited

/-- R757: `n` entries from an offset of a block, with where they end; none when one is malformed. -/
def sigEntries (blk : List Byte) : Nat → Nat → Option (List SigEntry × Nat)
  | 0, o => some ([], o)
  | n + 1, o =>
    let len := fieldAt blk (o + 4) 4
    let role := fieldAt blk o 1
    if blk.length < o + 68 + len ∨ (role ≠ 1 ∧ role ≠ 2) ∨ fieldAt blk (o + 1) 3 ≠ 0 then none
    else match sigEntries blk n (o + 68 + len) with
    | none => none
    | some (es, fin) => some ({ role := role, pub := slice blk (o + 8) 60, sig := slice blk (o + 68) len } :: es, fin)

/-- R757: the entries of a well-formed signature block. -/
def sigBlock (blk : List Byte) : Option (List SigEntry) :=
  let n := fieldAt blk 4 1
  if fieldAt blk 0 4 ≠ 0x47534B50 ∨ (n ≠ 1 ∧ n ≠ 2) ∨ fieldAt blk 5 3 ≠ 0 then none
  else match sigEntries blk n 8 with
  | some (es, fin) => if fin = blk.length ∧ (n = 1 ∨ (es.map (·.role)).eraseDups.length = 2) then some es else none
  | none => none

/-- R761: `OWNER_SET`, `PIPE_SIG_REQ` and `LOAD_SEED_SET`. -/
def State.ownerSet (s : State) : Bool := bitAt s.ras.policy 0
def State.pipeSigReq (s : State) : Bool := bitAt s.ras.policy 1
def State.loadSeedSet (s : State) : Bool := bitAt s.ras.policy 2

/-- R759, R760: the owner's entry verifies over a message. -/
def State.ownerSigned (s : State) (es : List SigEntry) (msg : List Byte) : Bool :=
  match es.find? (·.role == 2) with
  | some e => sha256 e.pub == s.ras.ownerHash && hssVerify e.pub e.sig msg
  | none => false

/-- R759: `VERIFY_FW`. -/
def State.verifyFw (s : State) (img : List Byte) : Bool :=
  let body := fieldAt img 16 4
  let len := fieldAt img 20 4
  let msg := img.take body
  if img.length < 64 ∨ fieldAt img 0 4 ≠ 0x57464B50 ∨ fieldAt img 4 1 ≠ 1 ∨ crc32c (img.take 60) ≠ fieldAt img 60 4
      ∨ body % 64 ≠ 0 ∨ body < 4096 ∨ len ≠ img.length ∨ 16777216 < len ∨ len < body then false
  else match sigBlock (img.drop body) with
  | none => false
  | some es =>
    match es.find? (·.role == 1) with
    | none => false
    | some k => k.pub == (List.range 60).map Config.knauxKeyByte && hssVerify k.pub k.sig msg && (!s.ownerSet || s.ownerSigned es msg)

/-- R760: the signature of a pipeline image with `SIGNED` set verifies. -/
def State.verifyPipe (s : State) (body : Nat) (img : List Byte) : Bool :=
  match sigBlock (img.drop body) with
  | some [e] => decide (e.role = 2) && s.ownerSet && s.ownerSigned [e] (img.take body)
  | _ => false

end Sys2Proof.Machine
end

