-- ==== Sys2Proof/Machine/FoldOps.lean ====
section
/-! DEFINITION. Fold tables: where an entry lies, and what an input does to a cell, a replica pair and a finished cell
(R357 to R371). -/
namespace Sys2Proof.Machine

/-- A fold table's registers, read out. -/
structure FoldTab where
  t : Nat
  valid : Bool
  finished : Bool
  keyed : Bool
  keyLen : Nat
  cells : Nat
  repl : Nat
  share : Nat
  inst : Nat
  gen : Nat
  base : Nat
  /-- Op, variant and precision of each cell. -/
  ops : List (Nat × Nat × Nat)

/-- The fold table `t`. -/
def State.foldTab (s : State) (t : Nat) : FoldTab :=
  let f := s.fld (R.FOLD_TBL_CFG t)
  let c := s.rd (R.FOLD_TBL_CELLS t)
  let p := s.rd (R.FOLD_TBL_PREC t)
  { t := t, valid := f F.FOLD_TBL_CFG_VALID != 0, finished := f F.FOLD_TBL_CFG_FINISHED != 0,
    keyed := f F.FOLD_TBL_CFG_MODE == 1, keyLen := 8 * f F.FOLD_TBL_CFG_KEY_LEN, cells := f F.FOLD_TBL_CFG_CELLS,
    repl := f F.FOLD_TBL_CFG_REPL_LOG2, share := f F.FOLD_TBL_CFG_SHARE_LOG2, inst := f F.FOLD_TBL_CFG_INSTANCE,
    gen := f F.FOLD_TBL_CFG_GENERATION, base := s.fld (R.FOLD_TBL_BASE t) F.FOLD_TBL_BASE_OFFSET,
    ops := (List.range (f F.FOLD_TBL_CFG_CELLS)).map fun j =>
      (bitsOf c (8 * j) 4, bitsOf c (8 * j + 4) 3, bitsOf p (6 * j) 6) }

/-- R363: the size of a cell. -/
def cellSize (op : Nat) : Nat := if op = 1 then 32 else if op = 7 then 24 else if op = 8 then 320 else 16

/-- R359: the offset of each cell of an entry, from `at`, and where the last one ends. -/
def cellOffsets : List (Nat × Nat × Nat) → Nat → List Nat × Nat
  | [], o => ([], o)
  | (op, _, _) :: r, o =>
    let b := roundUp o (if op = 8 then 64 else 16)
    let rest := cellOffsets r (b + cellSize op)
    (b :: rest.1, rest.2)

/-- R359: cell offsets within an entry. -/
def FoldTab.offsets (x : FoldTab) : List Nat := (cellOffsets x.ops (if x.keyed then 64 else 0)).1

/-- R359: the entry size. -/
def FoldTab.entry (x : FoldTab) : Nat := roundUp (cellOffsets x.ops (if x.keyed then 64 else 0)).2 64

/-- R357, R358: the channel-local offset of the entry at a position of a share. -/
def FoldTab.local_ (x : FoldTab) (pos : Nat) : Nat := x.base + pos * x.entry

/-- R358: bytes from a channel-local offset on; 64-byte lines never cross a channel boundary. -/
def State.chanRead (s : State) (ch l lines : Nat) : List Byte :=
  (List.range lines).flatMap fun i => s.hbmRead (chanAddr ch (l + 64 * i)) 64

/-- The cell's `FLAGS` byte lies here. -/
def flagsOff (op : Nat) : Nat := if op = 1 then 24 else if op = 7 then 23 else if op = 8 then 280 else 15

/-- R363: where the cell's `N` lies, and its bytes. -/
def nField (op : Nat) : Nat × Nat :=
  if op = 1 then (16, 8) else if op = 7 then (16, 7) else if op = 8 then (272, 8) else (8, 7)

/-- R365: the lesser of two values precedes under the cell's order. -/
def precedes (order a b : Nat) : Bool :=
  if order = 0 then decide (sgn 64 a < sgn 64 b) else if order = 1 then decide (a < b) else decide (fKey 64 a < fKey 64 b)

/-- R365: `VALUE` of a `MIN` (2) or `MAX` (3) cell after value `v`. -/
def pick (op order x v : Nat) : Nat :=
  if op = 2 then (if precedes order v x then v else x) else (if precedes order x v then v else x)

/-- R367, R368: the 2,176-bit `ACC` of an `ADDX` cell as the two's complement number, with an integer added. -/
def addxAcc (acc : Nat) (d : Int) : Nat := ofSgn 2176 ((acc : Int) + d)

/-- R365, R366, R368: a cell after one input, `w` its value words; none when the input would carry a field over. -/
def applyInput (op var : Nat) (c : List Byte) (w : List Nat) : Option (List Byte) :=
  let v := w.getD 0 0
  let nf := nField op
  let n := fieldAt c nf.1 nf.2 + 1
  let put (o k x : Nat) (c : List Byte) : List Byte := patch c o (le x k)
  let full := decide (2 ^ (8 * nf.2) ≤ n)
  if op = 4 then
    (let x := fieldAt c 0 8 + v
     if 2 ^ 64 ≤ x then none else some (put 0 8 x c))
  else if full then none
  else
    let c' := put nf.1 nf.2 n c
    if op = 1 then
      let acc := sgn 128 (fieldAt c 0 16) + (if bitAt var 0 then (v : Int) else sgn 64 v)
      if outside 128 acc then none else some (put 0 16 (ofSgn 128 acc) c')
    else if op = 2 ∨ op = 3 then
      let v := if var = 2 then fCanon 64 v else v
      some (put 0 8 (if n = 1 then v else pick op var (fieldAt c 0 8) v) c')
    else if op = 5 then some (put 0 8 (if n = 1 then v else fieldAt c 0 8 ||| v) c')
    else if op = 6 then some (put 0 8 (if n = 1 then v else fieldAt c 0 8 &&& v) c')
    else if op = 7 then
      let x := w.getD 1 0
      let o := fieldAt c 0 8
      some (if n = 1 ∨ v < o ∨ (v = o ∧ x < fieldAt c 8 8) then put 8 8 x (put 0 8 v c') else c')
    else
      let fl := fieldAt c 280 1
      if fIsNaN 64 v then some (put 280 1 (fl ||| 1) c')
      else if fIsInf 64 v then some (put 280 1 (fl ||| (if fNeg 64 v then 4 else 2)) c')
      else
        let b := bitsOf v 52 11
        let f := bitsOf v 0 52
        let m : Int := if b = 0 then (f : Int) else (((f + 2 ^ 52) <<< (b - 1) : Nat) : Int)
        some (put 0 272 (addxAcc (fieldAt c 0 272) (if fNeg 64 v then -m else m)) c')

/-- R385: replica cell `d` merged into `c`; none when a field would be carried over. -/
def mergeCells (op var : Nat) (c d : List Byte) : Option (List Byte) :=
  let nf := nField op
  let n := fieldAt c nf.1 nf.2 + fieldAt d nf.1 nf.2
  let put (o k x : Nat) (c : List Byte) : List Byte := patch c o (le x k)
  if op = 4 then
    (let x := fieldAt c 0 8 + fieldAt d 0 8
     if 2 ^ 64 ≤ x then none else some (put 0 8 x c))
  else if 2 ^ (8 * nf.2) ≤ n then none
  else if fieldAt d nf.1 nf.2 = 0 then some c
  else if fieldAt c nf.1 nf.2 = 0 then some d
  else
    let c' := put nf.1 nf.2 n c
    let x := fieldAt c 0 8
    let v := fieldAt d 0 8
    if op = 1 then
      let acc := sgn 128 (fieldAt c 0 16) + sgn 128 (fieldAt d 0 16)
      if outside 128 acc then none else some (put 0 16 (ofSgn 128 acc) c')
    else if op = 2 ∨ op = 3 then some (put 0 8 (pick op var x v) c')
    else if op = 5 then some (put 0 8 (x ||| v) c')
    else if op = 6 then some (put 0 8 (x &&& v) c')
    else if op = 7 then
      let y := fieldAt d 8 8
      some (if v < x ∨ (v = x ∧ y < fieldAt c 8 8) then put 8 8 y (put 0 8 v c') else c')
    else
      some (put 280 1 (fieldAt c 280 1 ||| fieldAt d 280 1 % 8)
        (put 0 272 ((fieldAt c 0 272 + fieldAt d 0 272) % 2 ^ 2176) c'))

/-- R369: `round_to_binary64`: the result and `INEXACT`. -/
def roundBinary64 (neg : Bool) (m f : Nat) (sticky : Bool) : Nat × Bool :=
  if m = 0 then (0, sticky)
  else
    let sh := max (Nat.log2 m - 52) f
    let r := roundOff m sh sticky
    let inexact := decide (0 < sh) && r.2
    let bits := ((sh - f) <<< 52) + r.1
    let spent := decide (0x7FF0000000000000 ≤ bits)
    ((if spent then 0x7FF0000000000000 else bits) + (if neg then 2 ^ 63 else 0), inexact || spent)

/-- R369, R370: a finished `ADDX` cell. -/
def finishAddx (var : Nat) (c : List Byte) : List Byte :=
  let n := fieldAt c 272 8
  let fl := fieldAt c 280 1
  let acc := sgn 2176 (fieldAt c 0 272)
  let r : Nat × Nat :=
    if n = 0 then (0, 16)
    else if bitAt fl 0 || (bitAt fl 1 && bitAt fl 2) then (0x7FF8000000000000, 0)
    else if bitAt fl 1 then (0x7FF0000000000000, 0)
    else if bitAt fl 2 then (0xFFF0000000000000, 0)
    else
      let m := acc.natAbs
      let x := if bitAt var 0 then roundBinary64 (decide (acc < 0)) (m * 2 ^ 64 / n) 64 (m * 2 ^ 64 % n != 0)
        else roundBinary64 (decide (acc < 0)) m 0 false
      (x.1, if x.2 then 32 else 0)
  patch (patch c 288 (le r.1 8)) 280 (le (fl ||| r.2 ||| 8) 1)

/-- R371: the finished sum lies in the range of the variant. -/
def addInRange (var prec : Nat) (v : Int) : Bool :=
  let uns := bitAt var 0
  let wide := bitAt var 1
  let dec := bitAt var 2
  if dec then decide (v.natAbs < 10 ^ prec)
  else if wide then true
  else if uns then decide (0 ≤ v ∧ v < (2 ^ 64 : Nat))
  else !outside 64 v

/-- R369, R371, R385: a finished cell; none when an `ADD64` sum overflows. -/
def finishCell (op var prec : Nat) (c : List Byte) : Option (List Byte) :=
  let fo := flagsOff op
  let n := fieldAt c (nField op).1 (nField op).2
  let flag (c : List Byte) (x : Nat) : List Byte := patch c fo (le (fieldAt c fo 1 ||| x) 1)
  if op = 8 then some (finishAddx var c)
  else if op = 1 then
    if n = 0 then some (flag (patch c 0 (zeros 16)) 24)
    else
      let v := sgn 128 (fieldAt c 0 16)
      if addInRange var prec v then
        some (flag (if bitAt var 1 then c else patch c 8 (zeros 8)) 8)
      else none
  else if op = 4 then some (flag c 8)
  else some (flag c (if n = 0 then 24 else 8))

end Sys2Proof.Machine
end

