-- ==== Sys2Proof/Machine/Fold.lean ====
section
/-! DEFINITION. Fold units: applying requests, draining lines, finishing tables, the table registers (R357 to R392;
08_fold_units.md). -/
namespace Sys2Proof.Machine

/-! ### Units and queues -/

/-- R388: the unit that serves channel 16s + u, as 17s + unit; none when the channel serves no request (R390). -/
def State.unitOf (s : State) (ch : Nat) : Option Nat :=
  let st := ch / 16
  let u := ch % 16
  if s.bit (R.FOLD_SPARE st) F.FOLD_SPARE_ACTIVE && s.fld (R.FOLD_SPARE st) F.FOLD_SPARE_TARGET == u then some (17 * st + 16)
  else if bitAt (s.fld (R.FOLD_SPARE st) F.FOLD_SPARE_FAILED) u then none else some (17 * st + u)

/-- The unit of a channel waits to be replaced (R384, R388). -/
def State.unitFailing (s : State) (ch : Nat) : Bool :=
  s.ras.repairing.any fun r => r.1 == 4 && r.2.1 == 17 * (ch / 16) + ch % 16

/-- A line written into the write queue of a channel: a queued line of the same address takes the new data. -/
def queueLine (q : List (Nat × List Byte)) (a : Nat) (bs : List Byte) : List (Nat × List Byte) :=
  if q.any (·.1 == a) then q.map fun e => if e.1 = a then (a, bs) else e else q ++ [(a, bs)]

/-- Lines that differ between the old and new bytes of an entry, with their device addresses. -/
def changedLines (ch l : Nat) (old new : List Byte) : List (Nat × List Byte) :=
  (List.range ((new.length + 63) / 64)).filterMap fun i =>
    if slice old (64 * i) 64 = slice new (64 * i) 64 then none else some (chanAddr ch (l + 64 * i), slice new (64 * i) 64)

/-- R382: oldest line of a channel's write queue to HBM. -/
def State.drainLine (s : State) (ch : Nat) : State :=
  match Tab.at s.foldQ ch with
  | (a, bs) :: r => { s.poke a bs with foldQ := if r.isEmpty then Tab.del s.foldQ ch else Tab.put s.foldQ ch r }
  | [] => s

/-- Every line of every write queue to HBM. -/
def State.drainAll (s : State) : State :=
  { (s.foldQ.foldl (fun s q => q.2.foldl (fun s l => s.poke l.1 l.2) s) s) with foldQ := [] }

/-- FOLD_LINE_DRAIN (R382): the oldest line of the queue that serves channel `ch`. -/
def execFoldLineDrain (ch : Nat) (s : State) : Host.Outcome State Fault Refusal :=
  .next (whenDue s.live s (s.drainLine ch))

/-! ### Applying a request -/

/-- R357: share and first position of a request. -/
def foldPlace (x : FoldTab) (m : FoldMsg) : Nat × Nat :=
  let h := fieldAt m.body 0 8
  if x.keyed then (bitsOf h 6 7, bitsOf h 13 x.share)
  else
    let i := h * 2 ^ x.repl + m.slot % 2 ^ x.repl
    (i % 128, i / 128)

/-- R372: the key of a request. -/
def foldKey (x : FoldTab) (m : FoldMsg) : List Byte :=
  slice m.body 16 16 ++ (if 16 < x.keyLen then slice m.body 32 16 else zeros 16)

/-- R372: the value words. -/
def foldWords (x : FoldTab) (m : FoldMsg) : List Nat :=
  let o := if x.keyed ∧ 16 < x.keyLen then 64 else 32
  (List.range (fieldAt m.body 11 1)).map fun i => fieldAt m.body (o + 8 * i) 8

/-- R373: words handed to cells in order: cell and its value words. -/
def dealWords (x : FoldTab) : List Nat → List Nat → List (Nat × List Nat)
  | [], _ => []
  | j :: js, ws =>
    let k := cellWords (x.ops.getD j (0, 0, 0)).1
    (j, ws.take k) :: dealWords x js (ws.drop k)

/-- R373: the inputs of a request, as cell and value words. -/
def foldInputs (x : FoldTab) (m : FoldMsg) : List (Nat × List Nat) :=
  let cell := fieldAt m.body 10 1
  let ws := foldWords x m
  if fieldAt m.body 9 1 = 0 then dealWords x ((List.range 8).filter fun j => bitAt cell j) ws
  else
    let k := cellWords (x.ops.getD cell (0, 0, 0)).1
    dealWords x (List.replicate (ws.length / k) cell) ws

/-- R360: the probe: the position that matches or that is claimed, with how many entries were read; none when the share
is full. -/
def State.foldProbe (s : State) (x : FoldTab) (ch : Nat) (hk : List Byte) (p0 : Nat) : Nat → Option (Nat × Nat)
  | 0 => none
  | fuel + 1 =>
    let i := 2 ^ x.share - (fuel + 1)
    let p := (p0 + i) % 2 ^ x.share
    let e := s.chanRead ch (x.local_ p) 1
    if fieldAt e 40 1 = 0 then some (p, i + 1)
    else if e.take (8 + x.keyLen) = hk.take (8 + x.keyLen) then some (p, i + 1)
    else s.foldProbe x ch hk p0 fuel

/-- R365: the inputs applied in turn to the bytes of an entry: the bytes, and the first cell that failed. -/
def applyAll (x : FoldTab) : List (Nat × List Nat) → List Byte → List Byte × Option Nat
  | [], e => (e, none)
  | (j, w) :: r, e =>
    let op := x.ops.getD j (0, 0, 0)
    let o := x.offsets.getD j 0
    match applyInput op.1 op.2.1 (slice e o (cellSize op.1)) w with
    | some c => applyAll x r (patch e o c)
    | none => (e, some j)

/-- R387: the first failing cell is recorded. -/
def State.foldBad (s : State) (x : FoldTab) (share pos cell cause : Nat) : State :=
  let s := s.wr R.FOLD_LASTBAD (share + pos * 2 ^ 8 + cell * 2 ^ 32 + x.t * 2 ^ 36 + cause * 2 ^ 42)
  let s := s.wr R.FOLD_LASTSRC (x.inst + x.gen * 2 ^ 16)
  s.raise R.FOLD_ERR (if cause = 1 then F.FOLD_ERR_TABLE_FULL else if cause = 2 then F.FOLD_ERR_UE else F.FOLD_ERR_OVERFLOW)

/-- R376, R377: a request is acknowledged. -/
def State.foldAck (s : State) (m : FoldMsg) : State :=
  let s := s.setCtx m.ctx fun c => if c.run = m.run then { c with foldOut := c.foldOut - 1 } else c
  let c := Tab.at s.ctxs m.ctx
  let s := if (Tab.at s.runs m.run).failing ∧ c.foldOut = 0 ∧ c.run = m.run then s.freeCtx m.ctx else s
  s.settleRun m.run

/-- R360, R365, R377: the request applied to its entry; lines go to the write queue. -/
def foldUpdate (x : FoldTab) (m : FoldMsg) (ch pos probes : Nat) (s : State) : State :=
  let lines := x.entry / 64
  let l := x.local_ pos
  let old := s.chanRead ch l lines
  let hk := le (fieldAt m.body 0 8) 8 ++ foldKey x m
  let start := if x.keyed ∧ fieldAt old 40 1 = 0 then patch (patch old 0 hk) 40 [1] else old
  let ins := foldInputs x m
  let r := applyAll x ins start
  let q := Tab.at s.foldQ ch
  let new := changedLines ch l old r.1
  let fwd := ((List.range lines).filter fun i => q.any (·.1 == chanAddr ch (l + 64 * i))).length
  let u := (s.unitOf ch).getD 0
  let n := match r.2 with | none => ins.length | some _ => 0
  let s := { s with foldQ := Tab.put s.foldQ ch (new.foldl (fun q (e : Nat × List Byte) => queueLine q e.1 e.2) q) }
  let s := (s.bump (R.FOLD_U_UPDATES u) n).bump (R.FOLD_U_FORWARDS u) fwd
  let s := s.bump (R.FOLD_U_MISSES u) (lines - fwd + (probes - 1))
  let s := s.tallyAdd m.inst fun c =>
    { c with foldOps := c.foldOps + n, hbmRead := c.hbmRead + 64 * (lines - fwd + (probes - 1)),
             hbmWritten := c.hbmWritten + 64 * new.length }
  match r.2 with
  | some j => ((s.foldBad x ch pos j 3).foldAck m).failRun m.run Status.aggOverflow
  | none => s.foldAck m

/-- R378 to R380: a request reaches its unit: dropped, full, uncorrectable, or applied. -/
def foldApply (x : FoldTab) (m : FoldMsg) (s : State) : State :=
  let place := foldPlace x m
  let ch := place.1
  let u := (s.unitOf ch).getD 0
  let stale (s : State) : State :=
    let s := s.bump (R.FOLD_U_STALE u)
    let s := if m.gen ≠ s.genOf m.inst then
        { s with insts := Tab.upd s.insts m.inst fun i => { i with stale := i.stale + 1 } } else s
    s.foldAck m
  if !x.valid then stale s
  else if m.inst ≠ x.inst then ((s.bump (R.FOLD_U_FOREIGN u)).raise R.FOLD_ERR F.FOLD_ERR_FOREIGN).foldAck m
  else if m.gen ≠ x.gen then stale s
  else if x.finished then stale (s.raise R.FOLD_ERR F.FOLD_ERR_LATE)
  else
    let hk := le (fieldAt m.body 0 8) 8 ++ foldKey x m
    let at_ := if x.keyed then s.foldProbe x ch hk place.2 (2 ^ x.share) else some (place.2, 1)
    match at_ with
    | none => ((s.foldBad x ch place.2 0 1).foldAck m).failRun m.run Status.foldTableFull
    | some (pos, probes) =>
      let bad := (List.range (x.entry / 64)).find? fun i => s.poisoned (chanAddr ch (x.local_ pos + 64 * i)) 64
      match bad with
      | some i =>
        let s := s.noteUE (chanAddr ch (x.local_ pos + 64 * i)) 3
        ((s.foldBad x ch pos 0 2).foldAck m).failRun m.run Status.uncorrectable
      | none => foldUpdate x m ch pos probes s

/-- R376: an earlier message of the same task to the same channel still waits. -/
def State.foldBefore (s : State) (i : Nat) (m : FoldMsg) : Bool :=
  (s.foldMsgs.take i).any fun e =>
    e.ctx == m.ctx && e.run == m.run && (foldPlace (s.foldTab e.table) e).1 == (foldPlace (s.foldTab m.table) m).1

/-- R384: the two copies of an update disagree `upset` times, and the unit is to be replaced when it is twice. -/
def State.foldUpset (s : State) (u ch upset : Nat) : State :=
  let s := s.bump (R.FOLD_U_DPATH u) upset
  if upset < 2 then s
  else
    let s := s.raise R.FOLD_ERR F.FOLD_ERR_DPATH
    { s with ras := { s.ras with repairing := s.ras.repairing ++ [(4, 17 * (ch / 16) + ch % 16, 0, none)] } }

/-- FOLD_REQUEST_APPLY (R360, R365, R377 to R384): released request `i` reaches the unit that serves its share; the
two copies of the update disagree `upset` times, 0 to 2. -/
def execFoldRequestApply (i upset : Nat) (s : State) : Host.Outcome State Fault Refusal :=
  match s.foldMsgs[i]? with
  | none => .next s
  | some m =>
    let x := s.foldTab m.table
    let ch := (foldPlace x m).1
    match s.unitOf ch with
    | none => .next s
    | some u =>
      let room := decide ((Tab.at s.foldQ ch).length + x.entry / 64 ≤ 64)
      if !s.live || !s.bit R.FOLD_CTL F.FOLD_CTL_EN || s.foldBefore i m || s.unitFailing ch || !room || 2 < upset then .next s
      else
        let s := s.foldUpset u ch upset
        if upset = 2 then .next s
        else .next (foldApply x m { s with foldMsgs := s.foldMsgs.eraseIdx i })

/-! ### FINISH -/

/-- R385, R387: one entry finished: its new bytes, and the first cell that failed with its cause. -/
def finishEntry (x : FoldTab) (reps : List (List Byte)) (e : List Byte) : List Byte × Option (Nat × Nat) :=
  (List.range x.cells).foldl (fun (st : List Byte × Option (Nat × Nat)) j =>
    let op := x.ops.getD j (0, 0, 0)
    let o := x.offsets.getD j 0
    let c0 := slice st.1 o (cellSize op.1)
    let merged := reps.foldl (fun (c : Option (List Byte)) d =>
      match c with | some c => mergeCells op.1 op.2.1 c (slice d o (cellSize op.1)) | none => none) (some c0)
    match merged with
    | none => (st.1, st.2.or (some (j, 3)))
    | some c =>
      match finishCell op.1 op.2.1 op.2.2 c with
      | some f => (patch st.1 o f, st.2)
      | none => (patch st.1 o c, st.2.or (some (j, 0)))) (e, none)

/-- R357: the entries that hold results, as share and position, with their replicas. -/
def FoldTab.results (x : FoldTab) : List ((Nat × Nat) × List (Nat × Nat)) :=
  if x.keyed then (List.range 128).flatMap fun c => (List.range (2 ^ x.share)).map fun p => ((c, p), [])
  else
    (List.range (128 * 2 ^ x.share / 2 ^ x.repl)).map fun g =>
      let at_ := fun k => ((g * 2 ^ x.repl + k) % 128, (g * 2 ^ x.repl + k) / 128)
      (at_ 0, (List.range (2 ^ x.repl - 1)).map fun k => at_ (k + 1))

/-- R385 to R387: the entries of a table finished in turn; the first failure is recorded and kept. -/
def finishStep (x : FoldTab) (st : State × Option Nat) (e : (Nat × Nat) × List (Nat × Nat)) : State × Option Nat :=
  let s := st.1
  let (c, p) := e.1
  let lines := x.entry / 64
  let touched := (e.1 :: e.2).flatMap fun q => (List.range lines).map fun i => (q, chanAddr q.1 (x.local_ q.2 + 64 * i))
  match touched.find? fun a => s.poisoned a.2 64 with
  | some a =>
    (if st.2.isSome then s.noteUE a.2 3 else (s.noteUE a.2 3).foldBad x a.1.1 a.1.2 0 2, st.2.or (some Status.uncorrectable))
  | none =>
    let old := s.chanRead c (x.local_ p) lines
    if x.keyed ∧ fieldAt old 40 1 = 0 then st
    else
      let r := finishEntry x (e.2.map fun q => s.chanRead q.1 (x.local_ q.2) lines) old
      let s := (changedLines c (x.local_ p) old r.1).foldl (fun s l => s.poke l.1 l.2) s
      match r.2 with
      | some (j, cause) => (if st.2.isSome then s else s.foldBad x c p j cause, st.2.or (some Status.aggOverflow))
      | none => (s, st.2)

/-- R385 to R387: `FINISH` of table `t` for a run. -/
def foldFinish (key t : Nat) (s : State) : State :=
  let x := s.foldTab t
  let s := s.drainAll
  let r := x.results.foldl (finishStep x) (s, none)
  let s := r.1.setFld (R.FOLD_TBL_CFG t) F.FOLD_TBL_CFG_FINISHED 1
  match r.2 with
  | some status => s.failRun key status
  | none => s

/-- R443: every task of stage `j` of a run has committed, and every fold request of them is acknowledged. -/
def State.stageTasksDone (s : State) (key j : Nat) : Bool :=
  let st := (Tab.at s.runs key).stages.getD j {}
  st.st == 1 && st.committed == st.total && (s.ctxsOf key fun c => c.stage == j && (c.foldOut != 0 || c.st != .committed)).isEmpty

/-- R385: stage `j` folds into fold-plan `p`. -/
def foldsInto (img : List Byte) (j p : Nat) : Bool := (Img.list img j 208 8).contains p

/-- R385: the table of fold-plan `p` may be finished: the last stage that folds into it is at its barrier. -/
def State.finishDue (s : State) (key p : Nat) : Bool :=
  let r := Tab.at s.runs key
  let img := s.imgOf r
  let js := (List.range (Img.stages img)).filter fun j => foldsInto img j p
  js.any fun j => s.stageTasksDone key j && js.all fun i => i == j || (r.stages.getD i {}).st == 2

/-- FINISH (R385 to R387): fold plan `p` of the pipeline of run `key`. -/
def execFoldFinish (key p : Nat) (s : State) : Host.Outcome State Fault Refusal :=
  match Tab.get s.runs key, (Tab.at s.pipes (Tab.at s.runs key).pipe).foldTabs.find? (·.1 == p) with
  | some r, some (_, t) =>
    .next (whenDue (s.live && r.active && !(s.foldTab t).finished && s.finishDue key p) s
      (foldFinish key t s))
  | _, _ => .next s

/-! ### Table registers -/

/-- R363: a cell byte holds a reserved op code or a variant not defined for it. -/
def cellReserved (b : Nat) : Bool :=
  let op := b % 16
  let v := bitsOf b 4 3
  if op = 0 then false
  else if op = 1 then bitAt v 0 && bitAt v 2
  else if op = 2 ∨ op = 3 then decide (3 ≤ v)
  else if op ≤ 7 then v != 0
  else if op = 8 then decide (2 ≤ v)
  else true

/-- A cell below `CELLS` holds op code 0. -/
def cellsMissing (cells n : Nat) : Bool := (List.range n).any fun j => bitsOf cells (8 * j) 4 == 0

/-- R17: the fields of `FOLD_TBLt_CFG` as a write leaves them, each reserved value keeping the old one, and whether one
was reserved. -/
def cfgFields (old val : Nat) : Nat × Bool :=
  let keep (v : Nat) (f : Nat × Nat) (bad : Bool) : Nat := if bad then putBits v f.1 f.2 (bitsOf old f.1 f.2) else v
  let mode := decide (2 ≤ bitsOf val 2 2)
  let key := decide (5 ≤ bitsOf val 4 3)
  let cells := decide (bitsOf val 7 4 = 0 ∨ 8 < bitsOf val 7 4)
  let share := decide (24 < bitsOf val 14 5)
  let v := keep val (2, 2) mode
  let v := keep v (4, 3) key
  let v := keep v (7, 4) cells
  let v := keep v (14, 5) share
  (v, mode || key || cells || share)

/-- R392: a write of register `k` (0 CFG, 1 BASE, 2 CELLS, 3 PREC) of fold table `t`. -/
def foldTblWrite (t k val : Nat) (s : State) : State :=
  let off := R.FOLD_TBL_CFG t + 8 * k
  let old := s.rd off
  let bad (s : State) : State := s.raise R.FOLD_ERR F.FOLD_ERR_BADCFG
  let valid := s.bit (R.FOLD_TBL_CFG t) F.FOLD_TBL_CFG_VALID
  let rw := if k = 0 then 2 ^ 48 - 1 - 2 - 2 ^ 30 - 2 ^ 31 else if k = 1 then 2 ^ 36 - 1
    else if k = 2 then 0x7F7F7F7F7F7F7F7F else 2 ^ 48 - 1
  let val := val &&& rw
  if k = 0 then
    let setValid (s : State) (cfg v : Nat) : State :=
      if v = 1 ∧ cellsMissing (s.rd (R.FOLD_TBL_CELLS t)) (bitsOf cfg 7 4) then bad (s.wr off (putBits cfg 0 1 0))
      else s.wr off (putBits cfg 0 1 v)
    if putBits val 0 1 0 = putBits (old &&& rw) 0 1 0 then setValid s old (val % 2)
    else if valid then bad s
    else
      let r := cfgFields old val
      let cfg := (r.1 &&& rw) + (old &&& 2)
      setValid (if r.2 then bad s else s) cfg (val % 2)
  else if valid then (if val = old then s else bad s)
  else if k = 2 then
    let js := List.range 8
    let v := js.foldl (fun v j => if cellReserved (bitsOf val (8 * j) 8) then putBits v (8 * j) 8 (bitsOf old (8 * j) 8) else v) val
    let s := s.wr off v
    if js.any fun j => cellReserved (bitsOf val (8 * j) 8) then bad s else s
  else s.wr off val

/-- FOLD_TBL_CFG_WRITE (R17, R392): register `k` of fold table `t`. -/
def execFoldTblCfgWrite (who : Who) (t k val : Nat) (s : State) : Host.Outcome State Fault Refusal :=
  .next (whenDue (s.live && decide (t < 64 ∧ k < 4)) s (s.journalCsr (foldTblWrite t k val s) who (R.FOLD_TBL_CFG t + 8 * k)))

end Sys2Proof.Machine
end

