-- ==== Sys2Proof/Machine/Chunks.lean ====
section
/-! DEFINITION. Column chunks: the header and its checks, types, encodings and zone maps (R46 to R103;
02_column_chunks.md). -/
namespace Sys2Proof.Machine

/-! ### The header (R48) -/

/-- R48: a chunk header, read out. -/
structure Hd where
  magic : Nat
  version : Nat
  kind : Nat
  ty : Nat
  enc : Nat
  width : Nat
  arg : Nat
  prec : Nat
  flags : Nat
  rows : Nat
  len : Nat
  nulls : Nat
  zmin : List Byte
  zmax : List Byte
  dict : Nat
  valid : Nat
  crc : Nat
  hcrc : Nat

/-- R48: the fields of 64 header bytes. -/
def Hd.of (b : List Byte) : Hd :=
  { magic := fieldAt b 0 4, version := fieldAt b 4 1, kind := fieldAt b 5 1, ty := fieldAt b 6 1, enc := fieldAt b 7 1,
    width := fieldAt b 8 1, arg := fieldAt b 9 1, prec := fieldAt b 10 1, flags := fieldAt b 11 1, rows := fieldAt b 12 4,
    len := fieldAt b 16 4, nulls := fieldAt b 20 4, zmin := slice b 24 8, zmax := slice b 32 8, dict := fieldAt b 40 8,
    valid := fieldAt b 48 8, crc := fieldAt b 56 4, hcrc := fieldAt b 60 4 }

/-- R48: `ZONE_VALID` and `NULLABLE`. -/
def Hd.zoned (h : Hd) : Bool := bitAt h.flags 0
def Hd.nullable (h : Hd) : Bool := bitAt h.flags 1

/-- R52: the integer-class types. -/
def integerClass (ty : Nat) : Bool :=
  decide (0x02 ≤ ty ∧ ty ≤ 0x0A) || ty == 0x0E || ty == 0x0F

/-- R52: a type code is defined. -/
def typeDefined (ty : Nat) : Bool := decide (1 ≤ ty ∧ ty ≤ 0x11)

/-- R48, R52, R53: `TYPE_ARG` of a type is in range. -/
def argOk (ty arg prec : Nat) : Bool :=
  if ty = 0x0A ∨ ty = 0x0B then decide (arg ≤ prec) else if ty = 0x10 then decide (1 ≤ arg ∧ arg ≤ 64) else arg == 0

/-- R48, R52: `PRECISION` of a type is in range. -/
def precOk (ty prec : Nat) : Bool :=
  if ty = 0x0A then decide (1 ≤ prec ∧ prec ≤ 18) else if ty = 0x0B then decide (1 ≤ prec ∧ prec ≤ 38) else prec == 0

/-- R68 to R70: check 4. -/
def Hd.combo (h : Hd) : Bool :=
  if h.kind = 0 then
    typeDefined h.ty &&
      (if h.enc = 0 then true
       else if h.enc = 1 then h.ty == 1 || integerClass h.ty
       else if h.enc = 2 ∨ h.enc = 3 then integerClass h.ty
       else if h.enc = 4 then h.ty != 0x11
       else if h.enc = 5 then h.ty != 1
       else false)
  else if h.kind = 1 then h.ty == 1 && (h.enc == 0 || h.enc == 1 || h.enc == 4)
  else if h.kind = 2 then
    typeDefined h.ty && h.ty != 1 && (h.enc == 0 || ((h.enc == 1 || h.enc == 2) && integerClass h.ty))
  else false

/-- R68, R69: check 5, the width. -/
def Hd.widthOk (h : Hd) : Bool :=
  if h.enc = 0 ∨ h.enc = 4 then h.width == 0
  else if h.enc = 1 then
    if h.ty = 1 then h.width == 1 else decide (1 ≤ h.width ∧ h.width ≤ 8 * typeWidth h.ty h.arg)
  else if h.enc = 2 ∨ h.enc = 3 then decide (1 ≤ h.width ∧ h.width ≤ 64)
  else decide (1 ≤ h.width ∧ h.width ≤ 24)

/-- R50, R51, R93: check 6. -/
def Hd.flagsOk (h : Hd) : Bool :=
  decide (h.flags < 4) && (h.nullable || h.nulls == 0)
    && (h.kind == 0 || (h.nulls == 0 && !h.nullable && h.dict == 0 && h.valid == 0))
    && (h.kind != 1 || !h.zoned) && !(h.nulls == h.rows && h.zoned)
    && (h.enc == 5 || h.dict == 0) && (h.nullable || h.valid == 0)

/-- R71, R83: bytes of `k` packed values of width `w`. -/
def packedLen (k w : Nat) : Nat := ceilDiv (k * w) 8

/-- R83: the payload length where it follows from the header alone. -/
def Hd.derivedLen (h : Hd) : Option Nat :=
  if h.enc = 0 then
    if h.ty = 1 then some (ceilDiv h.rows 8) else if h.ty = 0x11 then none else some (h.rows * typeWidth h.ty h.arg)
  else if h.enc = 1 ∨ h.enc = 5 then some (packedLen h.rows h.width)
  else if h.enc = 2 then some (8 + packedLen h.rows h.width)
  else if h.enc = 3 then some (16 + packedLen (h.rows - 1) h.width)
  else none

/-- R48, R83: check 7. -/
def Hd.countsOk (h : Hd) : Bool :=
  decide (1 ≤ h.rows ∧ h.rows ≤ (if h.kind = 2 then 16777216 else 1048576)) && decide (1 ≤ h.len ∧ h.len ≤ 67108864)
    && decide (h.nulls ≤ h.rows) && (match h.derivedLen with | some n => h.len == n | none => true)

/-- R47, R98: check 8, for a chunk at an offset of a region of a size. -/
def Hd.spanOk (h : Hd) (off size : Nat) : Bool :=
  let refOk (r : Nat) : Bool := r % 64 == 0 && decide (r + 64 ≤ size)
  decide (off + 64 + roundUp h.len 64 ≤ size) && (h.enc != 5 || refOk h.dict) && (!h.nullable || refOk h.valid)

/-- R98: checks 1 to 8 of the chunk at an offset, in order; 0 when none fails. `b` holds its header bytes. -/
def headerCheck (b : List Byte) (off size : Nat) : Nat :=
  let h := Hd.of b
  if off % 64 ≠ 0 ∨ size < off + 64 then 1
  else if crc32c (b.take 60) ≠ h.hcrc then 2
  else if h.magic ≠ 0x48434B50 ∨ h.version ≠ 1 then 3
  else if !h.combo then 4
  else if !(h.widthOk && argOk h.ty h.arg h.prec && precOk h.ty h.prec) then 5
  else if !h.flagsOk then 6
  else if !h.countsOk then 7
  else if !h.spanOk off size then 8
  else 0

/-! ### Values (R52 to R60) -/

/-- A decoded value: a number (a float by its bit pattern), or a string with the region offset of its first byte. -/
inductive Val where
  | num (i : Int)
  | bytes (b : List Byte) (off : Nat)
deriving DecidableEq, Repr, Inhabited

/-- R60: byte strings in order, first byte first; a proper prefix comes first. -/
def bytesLt : List Byte → List Byte → Bool
  | _, [] => false
  | [], _ :: _ => true
  | a :: as, b :: bs => decide (a.toNat < b.toNat) || (a == b && bytesLt as bs)

/-- R54, R56, R60, R117: one value precedes another. -/
def valLt (ty : Nat) : Val → Val → Bool
  | .num a, .num b =>
    if ty = 0x0C then decide (fKey 32 a.toNat < fKey 32 b.toNat)
    else if ty = 0x0D then decide (fKey 64 a.toNat < fKey 64 b.toNat) else decide (a < b)
  | .bytes a _, .bytes b _ => bytesLt a b
  | _, _ => false

/-- R57, R60: two values are equal. -/
def valEq (ty : Nat) (a b : Val) : Bool := !valLt ty a b && !valLt ty b a

/-- R52: `w` little-endian bytes as a value of a type other than the string types. -/
def numVal (ty w n : Nat) : Val := .num (if typeSigned ty then sgn (8 * w) n else (n : Int))

/-- R92: the zone form of a value. -/
def zoneForm (ty : Nat) : Val → Val
  | .num i => if ty = 0x0C then .num (fWiden i.toNat) else if ty = 0x0B then .num (i.fdiv (2 ^ 64)) else .num i
  | .bytes b o => .bytes (padTo b 8) o

/-- R92: a bound as a value in zone form. -/
def zoneBound (ty : Nat) (b : List Byte) : Val :=
  if ty = 0x10 ∨ ty = 0x11 then .bytes b 0 else .num (if typeSigned ty then sgn 64 (leNat b) else (leNat b : Int))

/-- R92: zone forms compare as binary64 for floats. -/
def zoneTy (ty : Nat) : Nat := if ty = 0x0C then 0x0D else ty

/-- R126: the zone form is exact. -/
def zoneExact (ty : Nat) : Bool := ty != 0x0B && ty != 0x10 && ty != 0x11

/-! ### Payloads (R71 to R83) -/

/-- A chunk being read: its header, its region offset, and its payload. -/
structure Chunk where
  h : Hd
  off : Nat
  /-- Payload bytes from an offset on. -/
  read : Nat → Nat → List Byte

/-- A little-endian field of the payload. -/
def Chunk.num (c : Chunk) (o n : Nat) : Nat := leNat (c.read o n)

/-- R71: packed value `i` of width `w`, packed from payload byte `base`. -/
def Chunk.packed (c : Chunk) (base i w : Nat) : Nat :=
  bitsOf (c.num (base + i * w / 8) ((i * w % 8 + w + 7) / 8)) (i * w % 8) w

/-- R80: the element width of an RLE value. -/
def Hd.rleWidth (h : Hd) : Nat := typeWidth h.ty h.arg

/-- One PLAIN element at a payload offset. -/
def Chunk.elem (c : Chunk) (o : Nat) : Val :=
  let w := typeWidth c.h.ty c.h.arg
  if c.h.ty = 0x10 then .bytes (c.read o w) 0 else numVal c.h.ty w (c.num o w)

/-- R79: the run count, as far as the payload can hold it, and the run lengths. -/
def Chunk.runLens (c : Chunk) : List Nat :=
  (List.range (min (c.num 0 4) ((c.h.len - 8) / 4))).map fun r => c.num (8 + 4 * r) 4

/-- Running sums: where each run begins. -/
def runStarts : Nat → List Nat → List Nat
  | _, [] => []
  | n, l :: ls => n :: runStarts (n + l) ls

/-- R138: payload bytes that rows `f` to `last` − 1 need, as spans. -/
def Chunk.spans (c : Chunk) (f last : Nat) : List (Nat × Nat) :=
  let h := c.h
  let bits (base i j : Nat) : List (Nat × Nat) :=
    if i < j then [(base + i * h.width / 8, base + (j * h.width - 1) / 8 + 1)] else []
  if h.enc = 0 then
    if h.ty = 1 then [(f / 8, ceilDiv last 8)]
    else if h.ty = 0x11 then
      let st := roundUp (4 * (h.rows + 1)) 8
      (4 * f, 4 * (last + 1)) :: (if 4 * (last + 1) ≤ h.len then [(st + c.num (4 * f) 4, st + c.num (4 * last) 4)] else [])
    else [(f * typeWidth h.ty h.arg, last * typeWidth h.ty h.arg)]
  else if h.enc = 1 ∨ h.enc = 5 then bits 0 f last
  else if h.enc = 2 then (0, 8) :: bits 8 f last
  else if h.enc = 3 then (0, 16) :: bits 16 0 (last - 1)
  else
    let ls := c.runLens
    let base := 8 + roundUp (4 * ls.length) 8
    let meets := (List.zip (runStarts 0 ls) ls).zipIdx.filter fun x => decide (x.1.1 < last ∧ f < x.1.1 + x.1.2)
    (0, 8 + 4 * ls.length) :: meets.map fun x => (base + x.2 * h.rleWidth, base + (x.2 + 1) * h.rleWidth)

/-- R139: the payload blocks that hold a byte of the spans, each once, ascending. -/
def Chunk.blocks (c : Chunk) (f last : Nat) : List Nat :=
  let sp := (c.spans f last).map fun x => (x.1, min x.2 c.h.len)
  (List.range (ceilDiv c.h.len 4096)).filter fun b =>
    sp.any fun x => decide (x.1 < x.2 ∧ x.1 / 4096 ≤ b ∧ b ≤ (x.2 - 1) / 4096)

/-- R71, R73: bits beyond `nbits` in the last byte of a sequence are 1, in a block that is fetched. -/
def Chunk.dirtyPad (c : Chunk) (got : List Nat) (base nbits : Nat) : Bool :=
  nbits % 8 != 0 && got.contains ((base + nbits / 8) / 4096) && c.num (base + nbits / 8) 1 >>> (nbits % 8) != 0

/-- R74, R75, R83: rows of a PLAIN VARBYTES payload, and whether its structure breaks. -/
def Chunk.varRows (c : Chunk) (f last : Nat) (got : List Nat) : List Val × Bool :=
  let h := c.h
  let st := roundUp (4 * (h.rows + 1)) 8
  if h.len < 4 * (last + 1) then ((List.range (last - f)).map fun _ => .bytes [] (c.off + 64), true)
  else
    let off := fun i => c.num (4 * i) 4
    let rows := (List.range (last - f)).map (· + f)
    let steps := rows.any fun i => decide (off (i + 1) < off i ∨ off i + 65535 < off (i + 1) ∨ h.len < st + off (i + 1))
    let bad := steps || (got.contains 0 && off 0 != 0)
      || (got.contains (4 * h.rows / 4096) && st + off h.rows != h.len)
      || (decide (4 * (h.rows + 1) < st) && got.contains ((st - 1) / 4096)
          && c.num (4 * (h.rows + 1)) (st - 4 * (h.rows + 1)) != 0)
    (rows.map fun i =>
      if off (i + 1) < off i ∨ h.len < st + off (i + 1) then .bytes [] (c.off + 64 + min (st + off i) h.len)
      else .bytes (c.read (st + off i) (off (i + 1) - off i)) (c.off + 64 + st + off i), bad)

/-- R79 to R81, R83: rows of an RLE payload, and whether its structure breaks. -/
def Chunk.rleRows (c : Chunk) (f last : Nat) : List Val × Bool :=
  let h := c.h
  let rc := c.num 0 4
  let base := 8 + roundUp (4 * rc) 8
  let ls := c.runLens
  if rc < 1 ∨ h.rows < rc ∨ base + rc * h.rleWidth ≠ h.len ∨ ls.any (· == 0) ∨ ls.foldl (· + ·) 0 ≠ h.rows then
    (List.replicate (last - f) (.num 0), true)
  else
    let runs := (List.zip (runStarts 0 ls) ls).zipIdx
    (runs.flatMap fun x =>
      List.replicate (min (x.1.1 + x.1.2) last - max x.1.1 f) (c.elem (base + x.2 * h.rleWidth)),
     c.num 4 4 != 0 || c.num (8 + 4 * rc) (base - (8 + 4 * rc)) != 0)

/-- R78: values 0 to n − 1 of a DELTA payload, modulo 2^64, oldest first. -/
def Chunk.deltas (c : Chunk) (n : Nat) : List Nat :=
  ((List.range (n - 1)).foldl (fun (st : List Nat × Nat) i =>
    let v := (st.2 + c.num 8 8 + c.packed 16 i c.h.width) % 2 ^ 64
    (v :: st.1, v)) ([c.num 0 8], c.num 0 8)).1.reverse

/-- R71 to R82: the stored values of rows `f` to `last` − 1, and whether check 12 fails on what they fetch. -/
def Chunk.raw (c : Chunk) (f last : Nat) : List Val × Bool :=
  let h := c.h
  let got := c.blocks f last
  let rows := (List.range (last - f)).map (· + f)
  let wide := fun n => numVal h.ty 8 n
  if h.enc = 0 then
    if h.ty = 1 then (rows.map fun i => .num (bitsOf (c.num (i / 8) 1) (i % 8) 1), c.dirtyPad got 0 h.rows)
    else if h.ty = 0x11 then c.varRows f last got
    else (rows.map fun i => c.elem (i * typeWidth h.ty h.arg), false)
  else if h.enc = 1 ∨ h.enc = 5 then
    (rows.map fun i =>
      let n := c.packed 0 i h.width
      .num (if h.enc = 1 ∧ typeSigned h.ty then sgn h.width n else (n : Int)), c.dirtyPad got 0 (h.rows * h.width))
  else if h.enc = 2 then
    (rows.map fun i => wide ((c.num 0 8 + c.packed 8 i h.width) % 2 ^ 64), c.dirtyPad got 8 (h.rows * h.width))
  else if h.enc = 3 then
    (((c.deltas last).drop f).map wide, c.dirtyPad got 16 ((h.rows - 1) * h.width))
  else c.rleRows f last

/-- R52: a value lies in its type's range and decimal precision; an RLE BOOL value is 0 or 1. -/
def Hd.inRange (h : Hd) : Val → Bool
  | .num i =>
    if h.ty = 1 then i == 0 || i == 1
    else if h.ty = 0x0A ∨ h.ty = 0x0B then decide (i.natAbs < 10 ^ h.prec)
    else if integerClass h.ty then
      let w := 8 * typeWidth h.ty h.arg
      if typeSigned h.ty then decide (-(2 ^ (w - 1) : Int) ≤ i ∧ i < 2 ^ (w - 1)) else decide (0 ≤ i ∧ i < 2 ^ w)
    else true
  | .bytes _ _ => true

/-- R92: a value lies between the zone bounds. -/
def Hd.inZone (h : Hd) (v : Val) : Bool :=
  let x := zoneForm h.ty v
  !h.zoned || (!valLt (zoneTy h.ty) x (zoneBound h.ty h.zmin) && !valLt (zoneTy h.ty) (zoneBound h.ty h.zmax) x)

/-- R82, R98: the values of rows, null rows none, and the first of checks 12 to 14 that fails (0 for none). `valid` says
which rows are not null; `dict` holds the dictionary's row count and, when its entries are needed, its entries. -/
def Chunk.decode (c : Chunk) (f last : Nat) (valid : List Bool) (dict : Option (Nat × List Val)) :
    List (Option Val) × List (Option Val) × Nat :=
  let r := c.raw f last
  let rows := List.zip valid (r.1 ++ List.replicate (last - f) (.num 0))
  let isDict := c.h.enc == 5
  let ids := rows.map fun x => if x.1 then some x.2 else none
  let idOf (v : Val) : Nat := match v with | .num i => i.toNat | .bytes _ _ => 0
  let entries := match dict with | some d => d.2 | none => []
  let size := match dict with | some d => d.1 | none => 0
  let badId := isDict && rows.any fun x => x.1 && decide (size ≤ idOf x.2)
  let vals := if isDict then rows.map fun x => if x.1 then entries[idOf x.2]? else none else ids
  let badVal := (!isDict || !entries.isEmpty) && vals.any fun v =>
    match v with | some v => !(c.h.inRange v && c.h.inZone v) | none => false
  (vals, ids, if r.2 then 12 else if badId then 13 else if badVal then 14 else 0)

/-- R142: the 0 bits of a validity chunk, within its rows, that one payload block accounts for: the bits it holds, or the
rows of the runs whose value byte it holds. -/
def Chunk.zeroRows (c : Chunk) (block : Nat) : Nat :=
  let h := c.h
  if h.enc = 4 then
    let ls := c.runLens
    let base := 8 + roundUp (4 * ls.length) 8
    ((ls.zipIdx.filter fun x => decide ((base + x.2) / 4096 = block) && c.num (base + x.2) 1 == 0).map (·.1)).foldl (· + ·) 0
  else
    let n := min (h.rows - 32768 * block) 32768
    let bs := c.num (4096 * block) 4096
    n - ((List.range n).filter fun i => bitAt bs i).length

/-- R146: the CRC of a payload whose first part has one CRC and whose second part, of `n` bytes, another. -/
def crcJoin (a b n : Nat) : Nat := crc32cRaw a (zeros n) ^^^ b

end Sys2Proof.Machine
end

