-- ==== Sys2Proof/Machine/Recipe.lean ====
section
/-! DEFINITION. Decode recipes: their layout, their steps and constants, and when one is well-formed (R114 to R119). A
recipe is the list of its bytes. -/
namespace Sys2Proof.Machine

/-- R114: header fields, steps and pool. -/
def Rcp.steps (b : List Byte) : Nat := fieldAt b 5 1
def Rcp.delivery (b : List Byte) : Nat := fieldAt b 6 1
def Rcp.poolLen (b : List Byte) : Nat := fieldAt b 8 2
def Rcp.step (b : List Byte) (k : Nat) : List Byte := slice b (64 + 16 * k) 16
def Rcp.pool (b : List Byte) : List Byte := slice b (64 + 16 * Rcp.steps b) (Rcp.poolLen b)

/-- R115: the fields of step `k`. -/
def Rcp.op (b : List Byte) (k : Nat) : Nat := fieldAt (Rcp.step b k) 0 1
def Rcp.a (b : List Byte) (k : Nat) : Nat := fieldAt (Rcp.step b k) 1 1
def Rcp.b (b : List Byte) (k : Nat) : Nat := fieldAt (Rcp.step b k) 2 1
def Rcp.c (b : List Byte) (k : Nat) : Nat := fieldAt (Rcp.step b k) 3 1
def Rcp.arg32 (b : List Byte) (k : Nat) : Nat := fieldAt (Rcp.step b k) 4 4
def Rcp.arg64 (b : List Byte) (k : Nat) : Nat := fieldAt (Rcp.step b k) 8 8

/-- The steps with an opcode. -/
def Rcp.withOp (b : List Byte) (op : Nat) : List Nat := (List.range (Rcp.steps b)).filter fun k => Rcp.op b k == op

/-- The `COLUMN` step of a stream. -/
def Rcp.column (b : List Byte) (s : Nat) : Option Nat := (Rcp.withOp b 1).find? fun k => Rcp.a b k == s

/-- R116: the predicate form of a `PRED` step. -/
def Rcp.form (b : List Byte) (k : Nat) : Nat := Rcp.c b k % 16

/-- R116: how many constants a `PRED` step takes. -/
def Rcp.constCount (b : List Byte) (k : Nat) : Nat :=
  let f := Rcp.form b k
  if f = 7 then Rcp.arg64 b k % 128 else if f = 6 then 2 else if f ≤ 5 then 1 else 0

/-- R118: `n` constants of a type from a pool offset; none when one does not lie wholly within the pool. -/
def constants (ty arg : Nat) (pool : List Byte) : Nat → Nat → Option (List Val)
  | 0, _ => some []
  | n + 1, o =>
    let size := if ty = 0x11 then 2 + fieldAt pool o 2 else typeWidth ty arg
    if pool.length < o + size ∨ (ty = 0x11 ∧ (pool.length < o + 2 ∨ 64 < fieldAt pool o 2)) then none
    else
      let v := if ty = 0x11 then .bytes (slice pool (o + 2) (size - 2)) 0
        else if ty = 0x10 then .bytes (slice pool o size) 0 else numVal ty size (fieldAt pool o size)
      (constants ty arg pool n (o + roundUp size 8)).map (v :: ·)

/-- R118: the constants of `PRED` step `k`, of the type its stream declares. -/
def Rcp.consts (b : List Byte) (k : Nat) : Option (List Val) :=
  match Rcp.column b (Rcp.a b k) with
  | some j => constants (Rcp.arg32 b j % 256) (bitsOf (Rcp.arg32 b j) 8 8) (Rcp.pool b) (Rcp.constCount b k) (Rcp.arg32 b k)
  | none => none

/-- The first of the fields, by bit position, that is out of order. -/
def firstBad : List (Nat × Bool) → Option Nat
  | [] => none
  | (at_, ok) :: r =>
    match firstBad r with
    | some x => if !ok then some (min at_ x) else some x
    | none => if !ok then some at_ else none

/-- R116: a form is permitted for a type with an argument. -/
def formPermitted (form ty arg : Nat) : Bool :=
  if ty = 1 then !decide (2 ≤ form ∧ form ≤ 6)
  else if form = 7 then ty != 0x11 && !(ty == 0x10 && decide (16 < arg))
  else true

/-- The masks that the first `k` steps write. -/
def Rcp.written (b : List Byte) (k : Nat) : List Nat :=
  (List.range k).filterMap fun j =>
    if Rcp.op b j = 2 then some (Rcp.b b j)
    else if 3 ≤ Rcp.op b j ∧ Rcp.op b j ≤ 5 then some (Rcp.a b j) else none

/-- R115, R116, R119, R856: the checks of step `k`: each field's bit position in the recipe and whether it holds. -/
def Rcp.stepChecks (r : List Byte) (k : Nat) : List (Nat × Bool) :=
  let at_ := 8 * (64 + 16 * k)
  let op := Rcp.op r k
  let a := Rcp.a r k
  let b := Rcp.b r k
  let c := Rcp.c r k
  let arg := Rcp.arg32 r k
  let arg64 := Rcp.arg64 r k
  let before (o : Nat) : List Nat := (List.range k).filter fun j => Rcp.op r j == o
  let mask (m : Nat) : Bool := decide (m < 8) && (Rcp.written r k).contains m
  let noArgs := [(at_ + 32, arg == 0), (at_ + 64, arg64 == 0)]
  match op with
  | 0 => [(at_ + 8, a == 0), (at_ + 16, b == 0), (at_ + 24, c == 0)] ++ noArgs
  | 1 =>
    let ty := arg % 256
    [(at_ + 8, decide (a < 8) && !(before 1).any fun j => Rcp.a r j == a), (at_ + 16, decide (b < 64)),
     (at_ + 27, decide (c < 8)), (at_ + 26, !bitAt c 2 || bitAt c 0), (at_ + 32, typeDefined ty),
     (at_ + 40, !typeDefined ty || argOk ty (bitsOf arg 8 8) (bitsOf arg 16 8)),
     (at_ + 48, !typeDefined ty || precOk ty (bitsOf arg 16 8)), (at_ + 56, bitsOf arg 24 8 == 0), (at_ + 64, arg64 == 0)]
  | 2 =>
    let form := c % 16
    let col := (before 1).find? fun j => Rcp.a r j == a
    let judged := match col with
      | some j =>
        let ty := Rcp.arg32 r j % 256
        let ta := bitsOf (Rcp.arg32 r j) 8 8
        [(at_ + 24, formPermitted form ty ta),
         (at_ + 32, decide (9 < form) || (constants ty ta (Rcp.pool r) (Rcp.constCount r k) arg).isSome)]
      | none => []
    [(at_, (decide (8 ≤ a) || col.isSome) && decide ((before 2).length < 8)), (at_ + 8, decide (a < 8)),
     (at_ + 16, decide (b < 8)), (at_ + 24, decide (form < 10)), (at_ + 29, decide (c < 32)), (at_ + 32, arg % 8 == 0),
     (at_ + 64, if form = 7 then decide (1 ≤ arg64 % 128 ∧ arg64 % 128 ≤ 64) else arg64 % 128 == 0),
     (at_ + 71, !bitAt arg64 7), (at_ + 74, decide (arg64 < 1024)),
     (at_ + 28, !bitAt c 4 || !(Rcp.withOp r 6).isEmpty)] ++ judged
  | 3 | 4 => [(at_ + 8, decide (a < 8)), (at_ + 16, mask b), (at_ + 24, mask c)] ++ noArgs
  | 5 => [(at_ + 8, decide (a < 8)), (at_ + 16, mask b), (at_ + 24, c == 0)] ++ noArgs
  | 6 => [(at_, (before 6).isEmpty), (at_ + 8, mask a), (at_ + 16, b == 0), (at_ + 24, c == 0)] ++ noArgs
  | _ => [(at_, false)]

/-- R114, R119: the bytes a recipe needs. -/
def Rcp.size (r : List Byte) : Nat := 64 + 16 * min (Rcp.steps r) 32 + min (Rcp.poolLen r) 2048

/-- R119, R856: the bit position of the first field that keeps a recipe from being well-formed; `some none` when its
section is too short for it. -/
def Rcp.fault (sec : List Byte) : Option (Option Nat) :=
  if sec.length < 64 then some none
  else
    let need := Rcp.size sec
    let r := sec.take need
    let n := min (min (Rcp.steps r) 32) ((r.length - 64) / 16)
    let checks : List (Nat × Bool) :=
      [(0, fieldAt r 0 4 == 0x43524B50), (32, fieldAt r 4 1 == 1),
       (40, decide (1 ≤ Rcp.steps r ∧ Rcp.steps r ≤ 32) && !(Rcp.withOp r 1).isEmpty), (48, decide (Rcp.delivery r < 2)),
       (56, fieldAt r 7 1 == 0), (64, decide (Rcp.poolLen r ≤ 2048) && Rcp.poolLen r % 8 == 0), (80, fieldAt r 10 6 == 0),
       (160, fieldAt r 20 40 == 0),
       (480, decide (sec.length < need) || crc32c (r.take 60 ++ r.drop 64) == fieldAt r 60 4)]
      ++ (List.range n).flatMap (Rcp.stepChecks r)
    match firstBad checks with
    | some x => some (some x)
    | none => if sec.length < need then some none else none

/-! ### The window layout (R168) -/

/-- R168: a recipe as the 3,072 bytes of a window. -/
def Rcp.window (r : List Byte) : List Byte :=
  padTo (r.take 64 ++ padTo (slice r 64 (16 * Rcp.steps r)) 512 ++ padTo (Rcp.pool r) 2048) 3072

/-- R168: the recipe that the bytes of a window hold. -/
def Rcp.ofWindow (w : List Byte) : List Byte :=
  w.take 64 ++ slice w 64 (16 * min (Rcp.steps w) 32) ++ slice w 576 (min (Rcp.poolLen w) 2048)

/-- R169: a word at window byte `o` holds a reserved `OP`, form or `DELIVERY`. -/
def windowReserved (o val : Nat) : Bool :=
  if o = 0 then decide (2 ≤ bitsOf val 48 8)
  else if 64 ≤ o ∧ o < 576 ∧ o % 16 = 0 then decide (6 < bitsOf val 0 8) || (bitsOf val 0 8 == 2 && decide (9 < bitsOf val 24 4))
  else false

end Sys2Proof.Machine
end

