-- ==== Sys2Proof/Machine/Reservoir.lean ====
section
/-! DEFINITION. The Reservoir and the chunk ledger: binding recipes, checking and skipping, decoding, filtering and
delivering segments, verifying chunks (R98 to R171; 02_column_chunks.md, 03_reservoir.md). -/
namespace Sys2Proof.Machine

/-! ### Recipe slots (R111 to R113, R168) -/

/-- R168: the bytes of a recipe window. -/
def State.window (s : State) (n slot : Nat) : List Byte :=
  (List.range 384).flatMap fun j => le (s.rd (R.LAN_RSV_WIN n (384 * slot + j))) 8

/-- R168: the recipe that a slot holds. -/
def State.slotRecipe (s : State) (n slot : Nat) : List Byte := Rcp.ofWindow (s.window n slot)

/-- R112: a running task of lantern `n` is bound to a slot. -/
def State.slotBusy (s : State) (n slot : Nat) : Bool :=
  s.wicks.any fun e => e.1 / 17 == n && e.2.st != 0 && (match e.2.job with | some j => j.slot == some slot | none => false)

/-- `SLOT_VALID` of a slot. -/
def State.slotValid (s : State) (n slot : Nat) : Bool := bitAt (s.fld (R.LAN_RSV_STAT n) F.LAN_RSV_STAT_SLOT_VALID) slot

/-- Key of a recipe slot in `recSlots`. -/
def slotKey (n slot : Nat) : Nat := 16 * n + slot

/-- R430: the pipeline number and section of a task's recipe. -/
def State.recipeRef (s : State) (ctx : Nat) : Nat × Nat :=
  let c := Tab.at s.ctxs ctx
  (c.pipe, Img.st (s.imgOf (Tab.at s.runs c.run)) c.stage 6 2)

/-- The bytes of a task's recipe in the image's copy. -/
def State.recipeOf (s : State) (ctx : Nat) : List Byte :=
  let img := s.imgOf (s.runOf ctx)
  match Img.byId img 3 (s.recipeRef ctx).2 with
  | some x => let b := slice img x.off x.len; b.take (Rcp.size b)
  | none => []

/-- R111: a valid slot of lantern `n` holds a recipe: it was filled for it, or software filled it with the same bytes. -/
def State.holdsRecipe (s : State) (n ctx slot : Nat) : Bool :=
  s.slotValid n slot &&
    (match (Tab.at s.recSlots (slotKey n slot)).ref with
     | some r => r == s.recipeRef ctx
     | none => s.slotRecipe n slot == s.recipeOf ctx)

/-- R111: the least recently used idle slot of lantern `n`. -/
def State.idleSlot (s : State) (n : Nat) : Option Nat :=
  ((List.range 16).filter fun i => !s.slotBusy n i).foldl (fun best i =>
    match best with
    | some b => if (Tab.at s.recSlots (slotKey n i)).used < (Tab.at s.recSlots (slotKey n b)).used then some i else some b
    | none => some i) none

/-- The words of a recipe window written. -/
def State.fillWindow (s : State) (n slot : Nat) (w : List Byte) : State :=
  (List.range 384).foldl (fun s j => s.wr (R.LAN_RSV_WIN n (384 * slot + j)) (fieldAt w (8 * j) 8)) s

/-- The job of a wick changed. -/
def State.setJob (s : State) (pos : Nat) (f : Job → Job) : State :=
  s.setWick pos fun k => { k with job := k.job.map f }

/-! ### Ledger entries (R143 to R151) -/

/-- The ledger entry of a chunk of a run. -/
def State.ledgerFind (s : State) (run region off : Nat) : Option Nat :=
  (s.ledger.find? fun e => e.2.run == run && e.2.region == region && e.2.off == off).map (·.1)

/-- R150: an entry for a chunk, found or opened; none when the ledger is full. -/
def State.ledgerOpen (s : State) (run region off : Nat) : Option Nat × State :=
  match s.ledgerFind run region off with
  | some k => (some k, s)
  | none =>
    if 65536 ≤ s.ledger.length then (none, s)
    else
      let k := (s.ledger.map (·.1)).foldl max 0 + 1
      (some k, { s with ledger := Tab.put s.ledger k { run := run, region := region, off := off } })

/-- A ledger entry changed. -/
def State.setLedger (s : State) (k : Nat) (f : Ledger → Ledger) : State := { s with ledger := Tab.upd s.ledger k f }

/-- R149: the ledger marks a chunk FAILED, and every task of the run that read it fails. -/
def State.ledgerFail (s : State) (k check : Nat) : State :=
  let e := Tab.at s.ledger k
  let s := (s.setLedger k fun e => { e with st := 2, check := check }).bump R.DRL_LED_FAILED
  let hit := s.ctxs.filter fun c => c.2.run == e.run && c.2.chunks.contains k
    && (c.2.st == .running || c.2.st == .preempted || c.2.st == .ended)
  hit.foldl (fun s c =>
    match s.wickOf c.1 with
    | some pos =>
      if (s.wick pos).st = 3 then s.setCtx c.1 fun c => { c with failed := Status.chunkCorrupt, check := check, failOff := e.off }
      else s.corruptTask pos check e.off
    | none =>
      if c.2.failed ≠ 0 then s
      else
        let s := s.outcomeOf c.2.pos c.1 c.2.cycles 0 { status := Status.chunkCorrupt, addr := e.off, check := check }
        s.setCtx c.1 fun c => { c with st := .ended, failed := Status.chunkCorrupt, check := check, failOff := e.off }) s

/-- R143, R147: the entry of a chunk takes the tasks that are to report to it. -/
def Ledger.plan (e : Ledger) (tasks : List Nat) : Ledger :=
  { e with planned := e.planned ++ tasks.filter fun t => !e.planned.contains t }

/-- R143, R146: a validity or dictionary chunk is named by the data chunk of entry `d`: the tasks planned for the data
chunk are planned for it, and those that ended before the name was known have reported. -/
def State.ledgerLink (s : State) (k d : Nat) (nulls : Option Nat) : State :=
  let x := Tab.at s.ledger d
  let e := Tab.at s.ledger k
  let s := s.setLedger k fun e =>
    let e := match nulls with | some z => { e with nulls := if e.nulls.contains z then e.nulls else e.nulls ++ [z] } | none => e
    if e.by_.contains d then e
    else
      let e := e.plan x.planned
      { e with by_ := e.by_ ++ [d], who := e.who ++ x.who.filter fun t => !e.who.contains t }
  match nulls with
  | some z =>
    if e.st = 1 ∧ !e.blocks.isEmpty ∧ (e.blocks.map (·.2.2)).foldl (· + ·) 0 ≠ z then s.ledgerFail k 15 else s
  | none => s

/-- The payload length and block count of an entry's chunk. -/
def Ledger.len (e : Ledger) : Nat := (Hd.of e.hdr).len
def Ledger.blockCount (e : Ledger) : Nat := ceilDiv e.len 4096

/-- R146: the CRC of a payload put together from its blocks' CRCs. -/
def Ledger.crc (e : Ledger) : Nat :=
  (List.range e.blockCount).foldl (fun a b =>
    let c := ((e.blocks.find? (·.1 == b)).getD (0, 0, 0)).2.1
    crcJoin a c (min 4096 (e.len - 4096 * b))) 0

/-- R146, R147: an entry is settled when every block has been reported, or when every planned task has reported and none
fetched a byte. -/
def State.ledgerSettle (s : State) (k : Nat) : State :=
  let e := Tab.at s.ledger k
  if e.st ≠ 0 then s
  else if e.hdr ≠ [] ∧ !e.blocks.isEmpty ∧ e.blocks.length = e.blockCount then
    if e.crc ≠ (Hd.of e.hdr).crc then s.ledgerFail k 11
    else if (Hd.of e.hdr).kind = 1 ∧ e.nulls.any (· != (e.blocks.map (·.2.2)).foldl (· + ·) 0) then s.ledgerFail k 15
    else (s.setLedger k fun e => { e with st := 1 }).bump R.DRL_LED_VERIFIED
  else if e.blocks.isEmpty ∧ e.planned.all e.who.contains then s.setLedger k fun e => { e with st := 1 }
  else s

/-- R142 to R144: a report reaches its entry. -/
def State.ledgerTake (s : State) (r : Report) : State :=
  let s := s.setLedger r.entry fun e =>
    if r.last then
      { e with who := if e.who.contains r.task then e.who else e.who ++ [r.task], last := r.wick,
               lastInst := (Tab.at s.ctxs r.ctx).inst }
    else if e.blocks.any (·.1 == r.block) then e
    else { e with blocks := e.blocks ++ [(r.block, r.crc, r.zero)] }
  s.ledgerSettle r.entry

/-- LEDGER_REPORT (R98, R100 to R102, R109, R142 to R144, R146, R147, R149, R151): the oldest report on its way reaches
the ledger. -/
def execLedgerReport (s : State) : Host.Outcome State Fault Refusal :=
  match s.reports with
  | r :: rest => .next (whenDue s.live s ({ s with reports := rest }.ledgerTake r))
  | [] => .next s

/-! ### Chunks of a task -/

/-- A chunk at an offset of a region, read through the Reservoir. -/
def State.chunkAt (s : State) (region off : Nat) (hdr : List Byte) : Chunk :=
  let base := (Tab.at s.regions region).base + off + 64
  { h := Hd.of hdr, off := off, read := fun o n => s.hbmRead (base + o) n }

/-- Bytes read from HBM for an instance (R602). -/
def State.countRead (s : State) (inst n : Nat) : State := s.tallyAdd inst fun c => { c with hbmRead := c.hbmRead + n }

/-- R145: the missing blocks of an entry are fetched and reported by the Reservoir of the task that reported last. -/
def ledgerFill (k : Nat) (e : Ledger) (s : State) : State :=
  let c := s.chunkAt e.region e.off e.hdr
  let base := (Tab.at s.regions e.region).base + e.off + 64
  let missing := (List.range e.blockCount).filter fun b => !e.blocks.any (·.1 == b)
  let size := fun b => min 4096 (e.len - 4096 * b)
  match missing.find? fun b => s.poisoned (base + 4096 * b) (size b) with
  | some b => ((s.noteUE (base + 4096 * b) 1).setLedger k fun e => { e with st := 2 }).failRun e.run Status.uncorrectable
  | none =>
    let n := (missing.map size).foldl (· + ·) 0
    let s := ((s.countRead e.lastInst n).bump (R.LAN_RSV_BYTES_IN (e.last / 17)) n).bump R.DRL_LED_FILLS missing.length
    let got := missing.map fun b => (b, crc32c (c.read (4096 * b) (size b)), if c.h.kind = 1 then c.zeroRows b else 0)
    (s.setLedger k fun e => { e with blocks := e.blocks ++ got }).ledgerSettle k

/-- LEDGER_FILL (R145, R146, R149): entry `k`, when every planned task has reported and blocks are missing. -/
def execLedgerFill (k : Nat) (s : State) : Host.Outcome State Fault Refusal :=
  match Tab.get s.ledger k with
  | some e =>
    .next (whenDue (s.live && e.st == 0 && !e.blocks.isEmpty && e.planned.all e.who.contains
        && decide (e.blocks.length < e.blockCount)) s (ledgerFill k e s))
  | none => .next s

/-- Why a task's reading stops: a chunk fails a check, or memory fails. -/
inductive Bad where
  | corrupt (off check : Nat)
  | memory (addr : Nat)
deriving DecidableEq, Repr

/-- R154, R217: the task of wick `pos` fails on a check its Reservoir makes, or on a poisoned beat (R673). -/
def State.readFails (s : State) (pos : Nat) : Bad → State
  | .corrupt off check =>
    let n := pos / 17
    let c := Tab.at s.ctxs (s.wick pos).ctx
    let s := ((s.raise (R.LAN_RSV_ERR n) F.LAN_RSV_ERR_CORRUPT).bump (R.LAN_RSV_CORRUPTS n)).wr (R.LAN_RSV_LASTBAD n)
      (off % 2 ^ 48 + check * 2 ^ 48)
    (s.wr (R.LAN_RSV_LASTSRC n) (c.inst + c.gen * 65536)).corruptTask pos check off
  | .memory a => (s.noteUE a 1).failTask pos Status.uncorrectable

/-- R98 checks 1 to 8: the header at an offset of a region read and checked. -/
def State.readHeader (s : State) (pos inst region off : Nat) : State × Except Bad (List Byte) :=
  let r := Tab.at s.regions region
  if off % 64 ≠ 0 ∨ r.size < off + 64 then (s.bump (R.LAN_RSV_CHUNKS (pos / 17)), .error (.corrupt off 1))
  else if s.poisoned (r.base + off) 64 then (s, .error (.memory (r.base + off)))
  else
    let b := s.hbmRead (r.base + off) 64
    let s := (s.countRead inst 64).bump (R.LAN_RSV_CHUNKS (pos / 17))
    let check := headerCheck b off r.size
    if check = 0 then (s, .ok b) else (s, .error (.corrupt off check))

/-- R98 check 9, R102: a named chunk's header, and whether the relation to the data chunk holds. -/
def State.readNamed (s : State) (pos inst region off dataOff : Nat) (rel : Hd → Bool) : State × Except Bad (List Byte) :=
  match s.readHeader pos inst region off with
  | (s, .error b) => (s, .error b)
  | (s, .ok b) => if rel (Hd.of b) then (s, .ok b) else (s, .error (.corrupt dataOff 9))

/-- R143: the entry of a chunk is opened, its header noted, and the task reads it (R148). -/
def State.noteChunk (s : State) (ctx run region off : Nat) (hdr : List Byte) : Option Nat × State :=
  match s.ledgerOpen run region off with
  | (some k, s) =>
    (some k, (s.setLedger k fun e => { e with hdr := hdr }).setCtx ctx fun c =>
      { c with chunks := if c.chunks.contains k then c.chunks else c.chunks ++ [k] })
  | (none, s) => (none, s.bump R.DRL_LED_FULL)

/-- R109 step 2, R153: the data chunk of one `COLUMN` step and the chunks it names. `rows` is the row count of a column
already read. -/
def State.readColumn (s : State) (pos : Nat) (j : Job) (rcp : List Byte) (step off : Nat) (rows : Option Nat) :
    State × Except Bad JCol :=
  let ctx := (s.wick pos).ctx
  let c := Tab.at s.ctxs ctx
  match s.readHeader pos c.inst j.region off with
  | (s, .error b) => (s, .error b)
  | (s, .ok b) =>
    let h := Hd.of b
    let arg := Rcp.arg32 rcp step
    let flags := Rcp.c rcp step
    if h.ty + 256 * h.arg + 65536 * h.prec ≠ arg % 2 ^ 24 ∨ (bitAt flags 2 ∧ h.enc ≠ 5)
        ∨ h.rows ≠ rows.getD h.rows ∨ h.rows < j.first + j.count then
      (s, .error (.corrupt off 16))
    else
      let d := s.noteChunk ctx c.run j.region off b
      let named (s : State) (used : Bool) (ref : Nat) (rel : Hd → Bool) (nulls : Option Nat) :
          State × Except Bad (Option (Nat × List Byte)) :=
        if !used then (s, .ok none)
        else match s.readNamed pos c.inst j.region ref off rel with
          | (s, .error e) => (s, .error e)
          | (s, .ok b) =>
            let v := s.noteChunk ctx c.run j.region ref b
            (match v.1, d.1 with | some k, some d => v.2.ledgerLink k d nulls | _, _ => v.2, .ok (some (ref, b)))
      match named d.2 h.nullable h.valid (fun v => v.kind == 1 && v.rows == h.rows) (some h.nulls) with
      | (s, .error e) => (s, .error e)
      | (s, .ok v) =>
        match named s (h.enc == 5) h.dict (fun v => v.kind == 2 && v.ty == h.ty && v.arg == h.arg && v.prec == h.prec) none with
        | (s, .error e) => (s, .error e)
        | (s, .ok dict) =>
          (s, .ok { stream := Rcp.a rcp step, flags := flags, off := off, hdr := b, val := v, dict := dict })

/-- R109 step 2: every `COLUMN` step in recipe order. -/
def State.readColumns (s : State) (pos : Nat) (j : Job) (rcp : List Byte) (chunkOff : Nat → Nat) :
    List Nat → List JCol → State × Except Bad (List JCol)
  | [], cols => (s, .ok cols)
  | k :: ks, cols =>
    let rows := cols.head?.map fun c => (Hd.of c.hdr).rows
    match s.readColumn pos j rcp k (chunkOff (Rcp.b rcp k)) rows with
    | (s, .error b) => (s, .error b)
    | (s, .ok col) => s.readColumns pos j rcp chunkOff ks (cols ++ [col])

/-! ### Skipping (R125 to R127) -/

/-- R125, R126: the headers prove that a predicate yields no TRUE row. -/
def provesEmpty (form : Nat) (h : Hd) (cs : List Val) (arg64 : Nat) : Bool :=
  let ty := h.ty
  let zt := zoneTy ty
  let lt := valLt zt
  let lo := zoneBound ty h.zmin
  let hi := zoneBound ty h.zmax
  let z := fun i => zoneForm ty (cs.getD i (.num 0))
  let exact := zoneExact ty
  let le_ := fun a b => if exact then !lt b a else lt a b
  match form with
  | 0 => h.zoned && (lt (z 0) lo || lt hi (z 0))
  | 1 => h.zoned && exact && valEq zt lo (z 0) && valEq zt (z 0) hi
  | 2 => h.zoned && le_ (z 0) lo
  | 3 => h.zoned && lt (z 0) lo
  | 4 => h.zoned && le_ hi (z 0)
  | 5 => h.zoned && lt hi (z 0)
  | 6 =>
    let a := z 0
    let b := z 1
    let openLo := bitAt arg64 8
    let openHi := bitAt arg64 9
    h.zoned && (lt b lo || lt hi a || (openHi && le_ b lo) || (openLo && le_ hi a)
      || lt b a || (exact && (openLo || openHi) && valEq zt a b))
  | 7 => h.zoned && (List.range cs.length).all fun i => lt (z i) lo || lt hi (z i)
  | 8 => h.nulls == 0
  | _ => h.nulls == h.rows

/-- The column of a stream. -/
def Job.col (j : Job) (stream : Nat) : JCol := (j.cols.find? (·.stream == stream)).getD {}

/-- R125: some `PRED` with `ZSKIP` proves the morsel empty. -/
def Job.skips (j : Job) (rcp : List Byte) : Bool :=
  (Rcp.withOp rcp 2).any fun k =>
    bitAt (Rcp.c rcp k) 4 &&
      provesEmpty (Rcp.form rcp k) (Hd.of (j.col (Rcp.a rcp k)).hdr) ((Rcp.consts rcp k).getD []) (Rcp.arg64 rcp k)

/-- R162: a segment descriptor. -/
def Job.descriptor (j : Job) (first rows selected flags : Nat) : List Byte :=
  le first 4 ++ le rows 4 ++ le selected 4 ++ le flags 1 ++ zeros 3 ++ le j.rowBase 8 ++ zeros 8

/-! ### Delivery (R155 to R163) -/

/-- R158: pending slots are delivered while their ports have room. -/
def State.flushJob (s : State) (pos : Nat) : Nat → State
  | 0 => s
  | fuel + 1 =>
    let k := s.wick pos
    match k.job with
    | none => s
    | some j =>
      match j.pending with
      | [] => if j.done = j.count ∧ j.ready then s.setJob pos fun j => { j with spent := true } else s
      | (port, bs) :: rest =>
        if !(k.ports.any (·.num == port)) || k.portFull port 1 then s
        else ((s.fillPort pos port bs 32).setJob pos fun j => { j with pending := rest }).flushJob pos fuel

/-- R143: the task's last report to every chunk that waits for it, once its morsel is read. -/
def State.doneReading (s : State) (pos : Nat) : State :=
  match (s.wick pos).job with
  | some j => if j.done = j.count then s.closeReports pos else s
  | none => s

/-- R127: the morsel is skipped. -/
def State.skipMorsel (s : State) (pos : Nat) (j : Job) (rcp : List Byte) : State :=
  let desc := j.descriptor j.first j.count 0 (3 + 4 * Rcp.delivery rcp)
  let s := (s.bump (R.LAN_RSV_SKIPPED (pos / 17))).setJob pos fun _ =>
    { j with ready := true, done := j.count, pending := [(0x011, desc)] }
  (s.doneReading pos).flushJob pos 4

/-- R131: a `PRED` step that an id bitmap may serve. -/
def Job.wantsBitmap (j : Job) (rcp : List Byte) (k : Nat) : Bool :=
  decide (Rcp.form rcp k < 8) && (Hd.of (j.col (Rcp.a rcp k)).hdr).enc == 5

/-- R109 steps 2 to 4: the headers are checked, and the morsel is skipped or its bitmaps are to be prepared. -/
def State.prepare (s : State) (pos : Nat) (rcp : List Byte) : State :=
  let n := pos / 17
  let c := Tab.at s.ctxs (s.wick pos).ctx
  let run := Tab.at s.runs c.run
  let range := fieldAt c.morsel 0 8
  let region := (run.scans.getD (Img.st (s.imgOf run) c.stage 32 2) (0, 0)).1
  let j : Job := { ((s.wick pos).job.getD {}) with region := region, first := fieldAt c.morsel 8 4,
                                                    count := fieldAt c.morsel 12 4, rowBase := leNat (s.peek range 8) }
  let chunkOff := fun col => leNat (s.peek (range + 16 + 8 * col) 8)
  match s.readColumns pos j rcp chunkOff (Rcp.withOp rcp 1) [] with
  | (s, .error b) => (s.setJob pos fun _ => { j with reported := true }).readFails pos b
  | (s, .ok cols) =>
    let j := { j with cols := cols }
    if s.bit (R.LAN_RSV_CTL n) F.LAN_RSV_CTL_ZSKIP_EN && j.skips rcp then s.skipMorsel pos j rcp
    else
      let prep := if s.bit (R.LAN_RSV_CTL n) F.LAN_RSV_CTL_ENCPRED_EN then (Rcp.withOp rcp 2).filter (j.wantsBitmap rcp) else []
      s.setJob pos fun _ => { j with ready := true, prep := prep }

/-- R113: a recipe copied into a slot is faulty, through a memory fault. -/
def State.recipeFault (s : State) (pos slot : Nat) : State :=
  let c := Tab.at s.ctxs (s.wick pos).ctx
  let r := s.recipeRef (s.wick pos).ctx
  let s := s.raise (R.LAN_RSV_ERR (pos / 17)) F.LAN_RSV_ERR_RCP_FAULT
  (s.rasLog { kind := 8, detail := slot, addr := r.1 * 65536 + r.2, inst := c.inst, gen := c.gen, who := .reservoir }).failTask
    pos Status.uncorrectable

/-- R111: the task is bound to a slot that holds its recipe. -/
def State.bindSlot (s : State) (pos slot : Nat) : State :=
  let n := pos / 17
  let s := { s with recSlots := Tab.edit s.recSlots (slotKey n slot) fun x => { x with used := s.recClock + 1 },
                    recClock := s.recClock + 1 }
  let s := s.setJob pos fun j => { j with slot := some slot }
  match (s.wick pos).job with
  | some j => if j.ready then s else s.prepare pos (s.slotRecipe n slot)
  | none => s

/-- R111: the slot is filled from the firmware-region copy, and the task bound to it. -/
def State.fillSlot (s : State) (pos slot : Nat) (fault : Bool) : State :=
  let n := pos / 17
  let ctx := (s.wick pos).ctx
  if fault then (s.setBit (R.LAN_RSV_STAT n) F.LAN_RSV_STAT_SLOT_VALID slot false).recipeFault pos slot
  else
    let s := s.fillWindow n slot (Rcp.window (s.recipeOf ctx))
    let s := s.setBit (R.LAN_RSV_STAT n) F.LAN_RSV_STAT_SLOT_VALID slot true
    { s with recSlots := Tab.edit s.recSlots (slotKey n slot) fun x => { x with ref := some (s.recipeRef ctx) } }.bindSlot
      pos slot

/-- RECIPE_SLOT_FILL (R94, R95, R98 to R102, R107, R109 to R113, R125 to R127, R141, R153, R154, R217, R218): the task of
wick `w` binds its recipe; `fault` says that the copy read from the firmware region is faulty. -/
def execRecipeSlotFill (w : Nat) (fault : Bool) (s : State) : Host.Outcome State Fault Refusal :=
  let k := s.wick w
  let n := w / 17
  match k.job with
  | some j =>
    if !s.live || k.st != 1 || j.slot.isSome || !s.bit (R.LAN_RSV_CTL n) F.LAN_RSV_CTL_EN then .next s
    else match (List.range 16).find? fun i => s.holdsRecipe n k.ctx i with
    | some slot => .next (s.bindSlot w slot)
    | none =>
      match s.idleSlot n with
      | some slot => .next (s.fillSlot w slot fault)
      | none => .next s
  | none => .next s

/-! ### Fetching and decoding -/

/-- R139, R142: payload blocks of a chunk fetched for the task: counted once, their CRCs reported. -/
def State.fetchBlocks (s : State) (pos off : Nat) (hdr : List Byte) (blocks : List Nat) : State × Option Bad :=
  match (s.wick pos).job with
  | none => (s, none)
  | some j =>
    let ctx := (s.wick pos).ctx
    let c := Tab.at s.ctxs ctx
    let ch := s.chunkAt j.region off hdr
    let base := (Tab.at s.regions j.region).base + off + 64
    let size := fun b => min 4096 (ch.h.len - 4096 * b)
    match blocks.find? fun b => s.poisoned (base + 4096 * b) (size b) with
    | some b => (s, some (.memory (base + 4096 * b)))
    | none =>
      let new := blocks.filter fun b => !j.fetched.contains (off, b)
      let n := (new.map size).foldl (· + ·) 0
      let s := (s.countRead c.inst n).bump (R.LAN_RSV_BYTES_IN (pos / 17)) n
      let s := s.setJob pos fun j => { j with fetched := j.fetched ++ new.map fun b => (off, b) }
      match s.ledgerFind c.run j.region off with
      | none => (s, none)
      | some k =>
        let rep (b : Nat) : Report :=
          { entry := k, ctx := ctx, task := c.task, wick := pos, block := b, crc := crc32c (ch.read (4096 * b) (size b)),
            zero := if ch.h.kind = 1 then ch.zeroRows b else 0 }
        ({ s with reports := s.reports ++ new.map rep }, none)

/-- R150: a chunk without a ledger entry is read and verified whole by the task itself. -/
def State.selfVerify (s : State) (pos off : Nat) (hdr : List Byte) (nulls : Option Nat) : State × Option Bad :=
  match (s.wick pos).job with
  | none => (s, none)
  | some j =>
    let run := (Tab.at s.ctxs (s.wick pos).ctx).run
    if (s.ledgerFind run j.region off).isSome then (s, none)
    else
      let ch := s.chunkAt j.region off hdr
      let all := List.range (ceilDiv ch.h.len 4096)
      match s.fetchBlocks pos off hdr all with
      | (s, some b) => (s, some b)
      | (s, none) =>
        if crc32c (ch.read 0 ch.h.len) ≠ ch.h.crc then (s, some (.corrupt off 11))
        else match nulls with
          | some z => if (all.map ch.zeroRows).foldl (· + ·) 0 ≠ z then (s, some (.corrupt off 15)) else (s, none)
          | none => (s, none)

/-- R131, R136: the task needs the dictionary entries of a column: for a predicate, or to deliver values. -/
def needsEntries (rcp : List Byte) (c : JCol) : Bool :=
  c.dict.isSome && ((Rcp.withOp rcp 2).any (fun k => Rcp.a rcp k == c.stream && decide (Rcp.form rcp k < 8))
    || (bitAt c.flags 0 && !bitAt c.flags 2))

/-- R152: the entries of a dictionary chunk: blocks that the lantern has not checked in this run are fetched, and every
entry is checked. -/
def State.dictionary (s : State) (pos off : Nat) (hdr : List Byte) : State × Except Bad (List Val) :=
  match (s.wick pos).job with
  | none => (s, .ok [])
  | some j =>
    let run := (Tab.at s.ctxs (s.wick pos).ctx).run
    let ch := s.chunkAt j.region off hdr
    let key := (pos / 17, run, (Tab.at s.regions j.region).base + off)
    let r := if s.dictSeen.contains key then (s, none)
      else s.fetchBlocks pos off hdr (List.range (ceilDiv ch.h.len 4096))
    match r with
    | (s, some b) => (s, .error b)
    | (s, none) =>
      let s := if s.dictSeen.contains key then s else { s with dictSeen := s.dictSeen ++ [key] }
      match s.selfVerify pos off hdr none with
      | (s, some b) => (s, .error b)
      | (s, none) =>
        let d := ch.decode 0 ch.h.rows (List.replicate ch.h.rows true) none
        if d.2.2 ≠ 0 then (s, .error (.corrupt off d.2.2)) else (s, .ok (d.1.filterMap id))

/-- A decoded column of a segment: stream, its `COLUMN` flags and header, values, delivered values, validity. -/
structure Decoded where
  col : JCol
  vals : List (Option Val)
  out : List (Option Val)
  valid : List Bool

/-- R138 to R141, R86, R137: one column's rows `f` to `last` − 1. -/
def State.decodeColumn (s : State) (pos : Nat) (rcp : List Byte) (col : JCol) (f last : Nat) : State × Except Bad Decoded :=
  match (s.wick pos).job with
  | none => (s, .error (.corrupt 0 0))
  | some j =>
    let all := List.replicate (last - f) true
    let h := Hd.of col.hdr
    let validity : State × Except Bad (List Bool) :=
      match col.val with
      | none => (s, .ok all)
      | some (off, hdr) =>
        let ch := s.chunkAt j.region off hdr
        match s.fetchBlocks pos off hdr (ch.blocks f last) with
        | (s, some b) => (s, .error b)
        | (s, none) =>
          match s.selfVerify pos off hdr (some h.nulls) with
          | (s, some b) => (s, .error b)
          | (s, none) =>
            let d := ch.decode f last all none
            if d.2.2 ≠ 0 then (s, .error (.corrupt off d.2.2))
            else (s, .ok (d.1.map fun v => v == some (.num 1)))
    match validity with
    | (s, .error b) => (s, .error b)
    | (s, .ok valid) =>
      let dict : State × Except Bad (Option (Nat × List Val)) :=
        match col.dict with
        | none => (s, .ok none)
        | some (off, hdr) =>
          if needsEntries rcp col then
            match s.dictionary pos off hdr with
            | (s, .error b) => (s, .error b)
            | (s, .ok es) => (s, .ok (some ((Hd.of hdr).rows, es)))
          else (s, .ok (some ((Hd.of hdr).rows, [])))
      match dict with
      | (s, .error b) => (s, .error b)
      | (s, .ok dict) =>
        let ch := s.chunkAt j.region col.off col.hdr
        match s.fetchBlocks pos col.off col.hdr (ch.blocks f last) with
        | (s, some b) => (s, .error b)
        | (s, none) =>
          match s.selfVerify pos col.off col.hdr none with
          | (s, some b) => (s, .error b)
          | (s, none) =>
            let d := ch.decode f last valid dict
            if d.2.2 ≠ 0 then (s, .error (.corrupt col.off d.2.2))
            else (s, .ok { col := col, vals := d.1, out := if bitAt col.flags 2 then d.2.1 else d.1, valid := valid })

/-- Every column of a segment, in recipe order. -/
def State.decodeColumns (s : State) (pos : Nat) (rcp : List Byte) (f last : Nat) :
    List JCol → List Decoded → State × Except Bad (List Decoded)
  | [], ds => (s, .ok ds)
  | c :: cs, ds =>
    match s.decodeColumn pos rcp c f last with
    | (s, .error b) => (s, .error b)
    | (s, .ok d) => s.decodeColumns pos rcp f last cs (ds ++ [d])

/-! ### Predicates and masks (R61 to R64, R116, R117, R122 to R124) -/

/-- R116, R117: a predicate on a non-null value. -/
def predHolds (form ty arg64 : Nat) (cs : List Val) (x : Val) : Bool :=
  let c := cs.getD 0 (.num 0)
  match form with
  | 0 => valEq ty x c
  | 1 => !valEq ty x c
  | 2 => valLt ty x c
  | 3 => !valLt ty c x
  | 4 => valLt ty c x
  | 5 => !valLt ty x c
  | 6 =>
    let hi := cs.getD 1 (.num 0)
    (if bitAt arg64 8 then valLt ty c x else !valLt ty x c) && (if bitAt arg64 9 then valLt ty x hi else !valLt ty hi x)
  | 7 => cs.any (valEq ty x)
  | 8 => false
  | _ => true

/-- R61, R62: the result of a predicate for a row: 0 FALSE, 1 UNKNOWN, 2 TRUE. -/
def predRow (form ty arg64 : Nat) (cs : List Val) (valid : Bool) (x : Option Val) : Nat :=
  if form = 8 then (if valid then 0 else 2)
  else if form = 9 then (if valid then 2 else 0)
  else if !valid then 1
  else match x with
    | some v => if predHolds form ty arg64 cs v then 2 else 0
    | none => 1

/-- R63, R123, R124: the steps of a recipe on a segment: its masks M0 to M7, and the mask `SELECT` names. -/
def Rcp.masks (rcp : List Byte) (ds : List Decoded) (n : Nat) : List (List Nat) × Option (List Nat) :=
  (List.range (Rcp.steps rcp)).foldl (fun (st : List (List Nat) × Option (List Nat)) k =>
    let m := fun i => st.1.getD i (List.replicate n 0)
    let a := Rcp.a rcp k
    let b := Rcp.b rcp k
    match Rcp.op rcp k with
    | 2 =>
      match ds.find? fun d => d.col.stream == a with
      | some d =>
        let ty := (Hd.of d.col.hdr).ty
        let cs := (Rcp.consts rcp k).getD []
        (st.1.set b (List.zipWith (predRow (Rcp.form rcp k) ty (Rcp.arg64 rcp k) cs) d.valid d.vals), st.2)
      | none => st
    | 3 => (st.1.set a (List.zipWith min (m b) (m (Rcp.c rcp k))), st.2)
    | 4 => (st.1.set a (List.zipWith max (m b) (m (Rcp.c rcp k))), st.2)
    | 5 => (st.1.set a ((m b).map fun x => 2 - x), st.2)
    | 6 => (st.1, some (m a))
    | _ => st) (List.replicate 8 (List.replicate n 0), none)

/-! ### Segments (R108, R155 to R163) -/

/-- R160: the delivered width of a type; of ids under `DICT_IDS`. -/
def deliveredWidth (ty arg : Nat) (ids : Bool) : Nat :=
  if ids then 4
  else if ty = 0x10 then
    (if arg ≤ 1 then 1 else if arg ≤ 2 then 2 else if arg ≤ 4 then 4 else if arg ≤ 8 then 8 else if arg ≤ 16 then 16
     else if arg ≤ 32 then 32 else 64)
  else if ty = 0x11 then 16
  else typeWidth ty arg

/-- R160: a delivered element of a width. -/
def element (ty w : Nat) : Option Val → List Byte
  | none => zeros w
  | some (.num i) => le (ofSgn (8 * w) i) w
  | some (.bytes b off) => if ty = 0x11 then padTo b 8 ++ le off 6 ++ le b.length 2 else padTo b w

/-- R161: bits packed, row i at bit i. -/
def packBits (bs : List Bool) : List Byte :=
  (List.range (ceilDiv bs.length 8)).map fun i =>
    BitVec.ofNat 8 ((((bs.drop (8 * i)).take 8).zipIdx.map fun x => b2n x.1 <<< x.2).foldl (· + ·) 0)

/-- R156: bytes as whole 32-byte slots of a port. -/
def slotsOf (port : Nat) (bs : List Byte) : List (Nat × List Byte) :=
  (List.range (ceilDiv bs.length 32)).map fun i => (port, padTo (slice bs (32 * i) 32) 32)

/-- The elements of a list at some positions. -/
def pickRows {α : Type} (l : List α) (rows : List Nat) : List α := rows.filterMap fun i => l[i]?

/-- R155 to R163: the slots of a segment, its selected rows, and the bytes delivered at R160 widths. -/
def segmentSlots (j : Job) (rcp : List Byte) (ds : List Decoded) (f n : Nat) : List (Nat × List Byte) × List Nat × Nat :=
  let masks := (Rcp.masks rcp ds n).2
  let sel := (List.range n).filter fun i => match masks with | some m => m.getD i 0 == 2 | none => true
  let rows := if Rcp.delivery rcp = 0 then sel else List.range n
  let values (d : Decoded) : List Byte :=
    let h := Hd.of d.col.hdr
    if bitAt d.col.flags 0 then
      (pickRows d.out rows).flatMap (element (if bitAt d.col.flags 2 then 0x08 else h.ty) (deliveredWidth h.ty h.arg (bitAt d.col.flags 2)))
    else []
  let ordered := (List.range 8).filterMap fun st => ds.find? fun d => d.col.stream == st
  let data := ordered.flatMap fun d =>
    slotsOf d.col.stream (values d)
      ++ (if bitAt d.col.flags 1 then slotsOf (0x008 + d.col.stream) (packBits (pickRows d.valid rows)) else [])
  let mask := if Rcp.delivery rcp = 1 then slotsOf 0x010 (packBits ((List.range n).map fun i => sel.contains i)) else []
  let last := j.first + j.count ≤ f + n
  let desc := j.descriptor f n sel.length (b2n (decide last) + 4 * Rcp.delivery rcp)
  (data ++ mask ++ [(0x011, desc)], rows, (ordered.map fun d => (values d).length).foldl (· + ·) 0)

/-- R108, R109 step 5: the next segment is decoded and its slots wait for their ports. -/
def State.nextSegment (s : State) (pos : Nat) (j : Job) (rcp : List Byte) : State :=
  let f := j.first + j.done
  let n := min 1024 (j.count - j.done)
  match s.decodeColumns pos rcp f (f + n) j.cols [] with
  | (s, .error b) => (s.setJob pos fun j => { j with reported := true }).readFails pos b
  | (s, .ok ds) =>
    let seg := segmentSlots j rcp ds f n
    let c := Tab.at s.ctxs (s.wick pos).ctx
    let s := (s.bump (R.LAN_RSV_ROWS_OUT (pos / 17)) seg.2.1.length).tallyAdd c.inst fun x =>
      { x with decoded := x.decoded + seg.2.2 }
    (s.setJob pos fun j => { j with done := j.done + n, pending := seg.1 }).doneReading pos

/-- R157, R158: the next segment of the task is decoded when the last is delivered, and slots go out as far as their
ports have room. -/
def segmentDeliver (pos : Nat) (j : Job) (s : State) : State :=
  match j.slot with
  | none => s
  | some slot =>
    let s := if j.pending.isEmpty ∧ j.done < j.count then s.nextSegment pos j (s.slotRecipe (pos / 17) slot) else s
    s.flushJob pos 4096

/-- SEGMENT_DELIVER (R58, R61 to R64, R86, R98, R100 to R102, R104, R106, R108, R109, R117, R122 to R124, R128 to R130,
R134 to R141, R150, R152, R154 to R163, R217, R218, R380, R671 to R673): the Reservoir serves the task of wick `w`;
`faults` are what the SECDED finds in beats of the region it reads. Encoded and decoded evaluation yield the same masks
(R128), so the masks are taken on decoded values. `upset`: an upset was found in a recipe slot, the bitmap store or the
dictionary buffer, and what it hit was refilled (`LANnn_RSV_ERR.PARITY`). -/
def execSegmentDeliver (w : Nat) (faults : List (Nat × Nat × Nat)) (upset : Bool) (s : State) :
    Host.Outcome State Fault Refusal :=
  let found (s : State) : State := if upset then s.raise (R.LAN_RSV_ERR (w / 17)) F.LAN_RSV_ERR_PARITY else s
  match (s.wick w).job with
  | some j =>
    .next (whenDue (s.live && (s.wick w).st == 1 && j.ready && !j.spent && j.prep.isEmpty) s
      (segmentDeliver w j (found (s.beatFaults (Tab.at s.regions j.region).base (Tab.at s.regions j.region).size faults))))
  | none => .next s

/-! ### Id bitmaps (R131 to R133) -/

/-- R132: a running task of the bitmap's lantern uses it. -/
def State.bitmapInUse (s : State) (b : Bitmap) : Bool :=
  s.wicks.any fun e => e.1 / 17 == b.lantern && e.2.st != 0 && (Tab.at s.ctxs e.2.ctx).run == b.run
    && s.recipeRef e.2.ctx == (b.pipe, b.recipe)
    && (match e.2.job with
        | some j => j.cols.any fun c => match c.dict with
          | some (off, _) => (Tab.at s.regions j.region).base + off == b.dict
          | none => false
        | none => false)

/-- R132: bitmaps are evicted, least recently used first, until `need` bits fit in the store. -/
def State.makeRoom (s : State) (n need : Nat) : Nat → State
  | 0 => s
  | fuel + 1 =>
    let mine := s.bitmaps.filter (·.lantern == n)
    let used := (mine.map (·.size)).foldl (· + ·) 0
    if used + need ≤ 262144 then s
    else
      let old := (mine.filter fun b => !s.bitmapInUse b).foldl (fun (best : Option Bitmap) b =>
        match best with | some x => if b.used < x.used then some b else some x | none => some b) none
      match old with
      | some b => { s with bitmaps := s.bitmaps.erase b }.makeRoom n need fuel
      | none => s

/-- R131 to R133, R152: the bitmap of `PRED` step `k` is reused, built, or has no room. -/
def bitmapBuild (pos k : Nat) (j : Job) (s : State) : State :=
  let n := pos / 17
  let rcp := s.slotRecipe n (j.slot.getD 0)
  let ctx := (s.wick pos).ctx
  let run := (Tab.at s.ctxs ctx).run
  let col := j.col (Rcp.a rcp k)
  match col.dict with
  | none => s.setJob pos fun j => { j with prep := j.prep.drop 1 }
  | some (off, hdr) =>
    match s.dictionary pos off hdr with
    | (s, .error b) => (s.setJob pos fun j => { j with reported := true }).readFails pos b
    | (s, .ok es) =>
      let s := s.setJob pos fun j => { j with prep := j.prep.drop 1 }
      let ref := s.recipeRef ctx
      let at_ := (Tab.at s.regions j.region).base + off
      let same (b : Bitmap) : Bool :=
        b.lantern == n && b.run == run && b.dict == at_ && b.pipe == ref.1 && b.recipe == ref.2 && b.step == k
      let s := { s with recClock := s.recClock + 1 }
      if s.bitmaps.any same then
        { s with bitmaps := s.bitmaps.map fun b => if same b then { b with used := s.recClock } else b }.bump
          (R.LAN_RSV_BMP_HITS n)
      else
        let size := (Hd.of hdr).rows
        let s := s.makeRoom n size 262144
        if 262144 < ((s.bitmaps.filter (·.lantern == n)).map (·.size)).foldl (· + ·) 0 + size then s
        else
          let cs := (Rcp.consts rcp k).getD []
          let bits := leNat (packBits (es.map (predHolds (Rcp.form rcp k) (Hd.of hdr).ty (Rcp.arg64 rcp k) cs)))
          let b : Bitmap := { lantern := n, run := run, dict := at_, pipe := ref.1, recipe := ref.2, step := k,
                              size := size, bits := bits, used := s.recClock }
          { s with bitmaps := s.bitmaps ++ [b] }.bump (R.LAN_RSV_BMP_BUILDS n)

/-- ID_BITMAP_BUILD (R131 to R133, R152): the next bitmap that the task of wick `w` needs. -/
def execIdBitmapBuild (w : Nat) (s : State) : Host.Outcome State Fault Refusal :=
  match (s.wick w).job with
  | some j =>
    match j.prep with
    | k :: _ => .next (whenDue (s.live && (s.wick w).st == 1 && j.ready && j.slot.isSome) s (bitmapBuild w k j s))
    | [] => .next s
  | none => .next s

/-! ### Registers (R166 to R170) -/

/-- `LANnn_RSV_RCPINV` (R430): `SLOT_VALID` bits cleared at once. -/
def rcpinv (n slots : Nat) (s : State) : State :=
  s.setFld (R.LAN_RSV_STAT n) F.LAN_RSV_STAT_SLOT_VALID
    (s.fld (R.LAN_RSV_STAT n) F.LAN_RSV_STAT_SLOT_VALID &&& (65535 ^^^ (slots % 65536)))

/-- RCPINV (R430). -/
def execRcpinv (who : Who) (n slots : Nat) (s : State) : Host.Outcome State Fault Refusal :=
  .next (whenDue (s.live && decide (n < 68)) s (s.journalCsr (rcpinv n slots s) who (R.LAN_RSV_STAT n)))

/-- R168 to R171: word `j`, 0 to 383, of the window of a slot is written; a slot written through the window is not valid
until software says so. -/
def windowWrite (n slot j val : Nat) (s : State) : State :=
  if s.slotBusy n slot then s.raise (R.LAN_RSV_ERR n) F.LAN_RSV_ERR_RCP_FAULT
  else if windowReserved (8 * j) val then s.raise (R.LAN_RSV_ERR n) F.LAN_RSV_ERR_BADCFG
  else
    let s := (s.wr (R.LAN_RSV_WIN n (384 * slot + j)) val).setBit (R.LAN_RSV_STAT n) F.LAN_RSV_STAT_SLOT_VALID slot false
    { s with recSlots := Tab.edit s.recSlots (slotKey n slot) fun x => { x with ref := none } }

/-- RECIPE_WINDOW_WRITE (R168 to R170). -/
def execRecipeWindowWrite (who : Who) (n slot j val : Nat) (s : State) : Host.Outcome State Fault Refusal :=
  .next (whenDue (s.live && reaches who && decide (n < 68 ∧ slot < 16 ∧ j < 384)) s
    (s.journalCsr (windowWrite n slot j val s) who (R.LAN_RSV_WIN n (384 * slot + j))))

end Sys2Proof.Machine
end

