-- ==== Sys2Proof/Machine/ImageCheck.lean ====
section
/-! DEFINITION. The form of a pipeline image: what `PIPELINE_LOAD` refuses, and the bit position of the first offending
field in the order of R856 (R205 to R207, R264, R363, R396, R397, R401, R405, R424 to R437, R465, R856). A check is the bit
position of a field within the image, and whether the field is in order. -/
namespace Sys2Proof.Machine

/-- A check of the field at byte `o`, from bit `b` of it. -/
abbrev Check := Nat × Bool
def chk (o : Nat) (ok : Bool) (b : Nat := 0) : Check := (8 * o + b, ok)

/-- The field of `n` bytes at `o` is zero. -/
def zeroAt (img : List Byte) (o n : Nat) : Check := chk o (fieldAt img o n == 0)

/-- The lantern store's bytes. -/
def lstoreSize : Nat := 0x200000

/-! ### Header and directory (R424, R425, R427, R428) -/

/-- R426: kinds of which an image holds exactly one, and kinds of which it holds at most one. -/
def kindsOne : List Nat := [1, 9, 10]
def kindsSingle : List Nat := [1, 4, 5, 6, 7, 8, 9, 10]

/-- R424, R427, R428: the header. -/
def headerChecks (minorMax : Nat) (img : List Byte) : List Check :=
  let n := Img.count img
  let body := fieldAt img 12 4
  let len := fieldAt img 8 4
  let bodyOk := body % 64 == 0 && decide (body ≤ len)
  [chk 0 (fieldAt img 0 4 == 0x49504B50), chk 4 (fieldAt img 4 1 == 1), chk 5 (decide (fieldAt img 5 1 ≤ minorMax)),
   chk 6 (decide (1 ≤ n ∧ n ≤ 1024 ∧ 64 + 16 * n ≤ body)),
   chk 8 (decide (192 ≤ len ∧ len ≤ 67108864) && (bitAt (fieldAt img 16 1) 0 || len == body || !bodyOk)),
   chk 12 bodyOk, chk 16 (decide (fieldAt img 16 1 < 2)) 1,
   zeroAt img 17 7, zeroAt img 32 24, chk 56 (crc32c (slice img 64 (body - 64)) == fieldAt img 56 4),
   chk 60 (crc32c (img.take 60) == fieldAt img 60 4)]

/-- R206, R114: the bytes a section's contents need. -/
def sectionNeeds (img : List Byte) (x : Section) : Nat :=
  let b := x.off
  match x.kind with
  | 2 => 384 + fieldAt img (b + 8) 4
  | 3 => Rcp.size (slice img b x.len)
  | 8 => 64 + 64 * (fieldAt img b 2 + fieldAt img (b + 2) 2)
  | 10 => 8 + 8 * fieldAt img b 2
  | 1 => roundUp x.len 256
  | 4 => roundUp x.len 160
  | 7 => roundUp x.len 32
  | _ => roundUp x.len 16

/-- R425, R426: directory entry `i`. -/
def entryChecks (img : List Byte) (i : Nat) : List Check :=
  let o := 64 + 16 * i
  let x := Img.entry img i
  let before := (List.range i).map (Img.entry img)
  let clear := before.all fun y => decide (x.off + x.len ≤ y.off ∨ y.off + y.len ≤ x.off ∨ x.len = 0 ∨ y.len = 0)
  [chk o (decide (1 ≤ x.kind ∧ x.kind ≤ 10) && !(kindsSingle.contains x.kind && before.any (·.kind == x.kind))),
   chk (o + 2) (x.id != 0xFFFF && !before.any (·.id == x.id)),
   chk (o + 4) (x.off % 64 == 0 && decide (64 + 16 * Img.count img ≤ x.off ∧ x.off + x.len ≤ fieldAt img 12 4) && clear),
   zeroAt img (o + 12) 4]

/-- R856: no section of a kind marked "one" is missing; the breach is charged to `SECTION_COUNT`. -/
def missingChecks (img : List Byte) : List Check := [chk 6 (kindsOne.all fun k => (Img.find img k).isSome)]

/-! ### Kernels (R205, R206) -/

/-- R175: the port number is assigned. -/
def portAssigned (n : Nat) : Bool := isInPort n || isOutPort n

/-- R206: the slots a ring takes. -/
def kernelRing (img : List Byte) (b i : Nat) : Nat × Nat := (fieldAt img (b + 64 + 8 * i + 2) 2, fieldAt img (b + 64 + 8 * i + 4) 2)

/-- Two ranges share something. -/
def meet (a b : Nat × Nat) : Bool := decide (a.1 < b.1 + b.2 ∧ b.1 < a.1 + a.2)

/-- R205, R206: a kernel. -/
def kernelChecks (img : List Byte) (b : Nat) : List Check :=
  let f (o n : Nat) : Nat := fieldAt img (b + o) n
  let n := min (f 5 1) 40
  let wax := f 16 2
  let prm := (f 18 2, f 20 2)
  [chk b (f 0 4 == 0x4B544B50), chk (b + 4) (f 4 1 == 1), chk (b + 5) (decide (f 5 1 ≤ 40)),
   chk (b + 6) (decide (f 6 1 < 2)) 1, zeroAt img (b + 7) 1,
   chk (b + 8) (decide (8 ≤ f 8 4 ∧ f 8 4 ≤ 261760) && f 8 4 % 8 == 0),
   chk (b + 12) (decide (f 12 4 < f 8 4) && f 12 4 % 8 == 0), chk (b + 16) (decide (1 ≤ wax ∧ wax ≤ 4096)),
   chk (b + 18) (decide (prm.2 = 0 ∨ prm.1 + prm.2 ≤ wax)), chk (b + 20) (decide (prm.2 ≤ 64)), zeroAt img (b + 22) 2,
   chk (b + 24) (f 24 4 % 32 == 0 && decide (f 24 4 ≤ 32 * wax)), zeroAt img (b + 28) 4,
   chk (b + 32) (decide (1024 ≤ f 32 8 ∧ f 32 8 < 2 ^ 48)), zeroAt img (b + 40) 24]
  ++ ((List.range n).flatMap fun i =>
    let o := b + 64 + 8 * i
    let ring := kernelRing img b i
    let port := fieldAt img o 2
    [chk o (portAssigned port && !(List.range i).any fun k => fieldAt img (b + 64 + 8 * k) 2 == port),
     chk (o + 2) (decide (ring.1 + ring.2 ≤ wax) && !meet ring prm
       && !(List.range i).any fun k => meet ring (kernelRing img b k)),
     chk (o + 4) ((List.range 11).any fun e => ring.2 == 2 ^ e), zeroAt img (o + 6) 2])
  ++ [zeroAt img (b + 64 + 8 * n) (320 - 8 * n)]

/-! ### Stages (R431, R432) -/

/-- R432: a window, as far as its own fields tell. -/
def windowChecks (img : List Byte) (o : Nat) : List Check :=
  let kind := fieldAt img o 1
  let flags := fieldAt img (o + 1) 1
  let src := fieldAt img (o + 2) 2
  let off := fieldAt img (o + 4) 6
  let len := fieldAt img (o + 10) 6
  match kind with
  | 0 => [chk (o + 1) (!bitAt flags 0), chk (o + 1) (!bitAt flags 1) 1, chk (o + 1) (decide (flags < 4)) 2, zeroAt img (o + 2) 2, zeroAt img (o + 4) 6, zeroAt img (o + 10) 6]
  | 1 => [chk (o + 1) (!bitAt flags 1) 1, chk (o + 1) (decide (flags < 4)) 2, chk (o + 2) (src == 0), chk (o + 4) (decide (off ≤ lstoreSize)),
          chk (o + 10) (decide (lstoreSize < off ∨ off + len ≤ lstoreSize))]
  | 2 => [chk (o + 1) (!bitAt flags 0), chk (o + 1) (decide (flags < 4)) 2, chk (o + 2) (bitAt flags 1 || decide (src < 16))]
  | _ => [chk o false]

/-- R431, R432: stage descriptor `j`, as far as its own fields tell. -/
def stageChecks (img : List Byte) (b j : Nat) : List Check :=
  let o := b + 256 * j
  let f (k n : Nat) : Nat := fieldAt img (o + k) n
  let kind := f 1 1
  [chk o (f 0 1 == j && decide (j < 64)), chk (o + 1) (decide (1 ≤ kind ∧ kind ≤ 4)), chk (o + 2) (decide (f 2 1 < 8)),
   chk (o + 3) (decide (f 3 1 < 8)) 3, chk (o + 6) (kind == 1 || f 6 2 == 0xFFFF), chk (o + 8) (decide (f 8 8 < 2 ^ j)),
   chk (o + 24) (if kind = 1 then decide (1024 ≤ f 24 4 ∧ f 24 4 ≤ 65536) && f 24 4 % 1024 == 0 else f 24 4 == 0),
   chk (o + 28) (if kind = 4 then decide (1 ≤ f 28 4 ∧ f 28 4 ≤ 65536) else f 28 4 == 0),
   chk (o + 32) (kind != 1 || decide (f 32 2 < 16)),
   chk (o + 36) (f 36 4 % 4096 == 0 && decide (f 40 2 = 0 ∨ 512 < f 40 2 ∨ f 36 4 + 4096 * f 40 2 ≤ lstoreSize)),
   chk (o + 40) (decide (f 40 2 ≤ 512)), zeroAt img (o + 44) 20]
  ++ (List.range 8).flatMap (fun i => windowChecks img (o + 64 + 16 * i))
  ++ [zeroAt img (o + 236) 20]

/-! ### Plans (R433 to R436) -/

/-- R433: exchange descriptor `d`. -/
def exchangeChecks (img : List Byte) (b d : Nat) : List Check :=
  let o := b + 160 * d
  let f (k n : Nat) : Nat := fieldAt img (o + k) n
  [chk o (!(List.range d).any fun e => fieldAt img (b + 160 * e) 2 == f 0 2),
   chk (o + 2) (decide (16 ≤ f 2 2 ∧ f 2 2 ≤ 256) && f 2 2 % 8 == 0), chk (o + 4) (decide (f 4 1 ≤ 58)), zeroAt img (o + 5) 1,
   chk (o + 8) (f 8 4 % 4096 == 0 && decide (f 12 2 = 0 ∨ 512 < f 12 2 ∨ f 8 4 + 4096 * f 12 2 ≤ lstoreSize)),
   chk (o + 12) (decide (f 12 2 ≤ 512)), zeroAt img (o + 14) 18]
  ++ ((List.range 64).map fun p => chk (o + 32 + p) (decide (f (32 + p) 1 < 64)))
  ++ ((List.range 64).map fun p => chk (o + 96 + p) (decide (f (96 + p) 1 < 16)))

/-- R335, R434: hash-table plan `i`. -/
def hashChecks (img : List Byte) (b i : Nat) : List Check :=
  let o := b + 16 * i
  let base := fieldAt img o 4
  let bits := fieldAt img (o + 4) 1
  [chk o (base % 64 == 0 && decide (14 < bits ∨ base + 64 * 2 ^ bits ≤ lstoreSize)), chk (o + 4) (decide (4 ≤ bits ∧ bits ≤ 14)),
   chk (o + 5) (decide (fieldAt img (o + 5) 1 < 2)) 1, zeroAt img (o + 8) 8]

/-- R264, R267, R434: Chandelier layout `i`. -/
def layoutChecks (img : List Byte) (b i : Nat) : List Check :=
  let o := b + 16 * i
  [chk o (decide (fieldAt img o 1 < 3)), chk (o + 1) (decide (fieldAt img (o + 1) 1 ≤ 5)), zeroAt img (o + 4) 12]

/-- R363: the cell's variant uses a precision (`DEC` of `ADD64`). -/
def usesPrecision (cell : Nat) : Bool := cell % 16 == 1 && bitAt cell 6

/-- R363, R371, R387, R392, R434: fold-table plan `i`. -/
def foldPlanChecks (img : List Byte) (b i : Nat) : List Check :=
  let o := b + 32 * i
  let cfg := fieldAt img o 8
  let prec := fieldAt img (o + 16) 8
  let n := bitsOf cfg 7 4
  let keyed := bitsOf cfg 2 2 == 1
  let cell (j : Nat) : Nat := fieldAt img (o + 8 + j) 1
  [chk o (!bitAt cfg 0), chk o (!bitAt cfg 1) 1, chk o (decide (bitsOf cfg 2 2 < 2)) 2, 
   chk o (if keyed then decide (1 ≤ bitsOf cfg 4 3 ∧ bitsOf cfg 4 3 ≤ 4) else bitsOf cfg 4 3 == 0) 4,
   chk o (decide (1 ≤ n ∧ n ≤ 8)) 7, chk o (!keyed || bitsOf cfg 11 3 == 0) 11, chk o (decide (bitsOf cfg 14 5 ≤ 24)) 14, chk o (bitsOf cfg 19 11 == 0) 19,
   chk o (bitsOf cfg 30 2 == 0) 30, chk o (bitsOf cfg 32 16 == 0) 32, chk o (bitsOf cfg 48 16 == 0) 48]
  ++ ((List.range 8).flatMap fun j =>
    let op := cell j % 16
    let named := decide (1 ≤ op ∧ op ≤ 8)
    [chk (o + 8 + j) (if j < n then named else op == 0),
     chk (o + 8 + j) (if j < n then !named || !cellReserved (cell j) else bitsOf (cell j) 4 3 == 0) 4,
     chk (o + 8 + j) (decide (cell j < 128)) 7,
     chk (o + 16) (if usesPrecision (cell j) ∧ j < n then
         decide (1 ≤ bitsOf prec (6 * j) 6 ∧ bitsOf prec (6 * j) 6 ≤ if bitAt (cell j) 5 then 38 else 18)
       else bitsOf prec (6 * j) 6 == 0) (6 * j)])
  ++ [chk (o + 16) (decide (prec < 2 ^ 48)) 48, zeroAt img (o + 24) 8]

/-- R396, R397, R401: descriptor `k` of the key format at `o`, after fields of `before` bytes; `over` says that the list
has ended. -/
def fieldChecks (img : List Byte) (o before : Nat) (spent : Bool) : List Check :=
  let f (k n : Nat) : Nat := fieldAt img (o + k) n
  let ty := f 0 1
  if spent ∨ ty = 0 then [zeroAt img o 8]
  else
    let width := if ty = 0x11 then f 3 1 else typeWidth ty (f 3 1)
    let k := before + normWidth ty (f 3 1) + b2n (bitAt (f 2 1) 2)
    [chk o (decide (ty ≤ 0x11) && decide (k ≤ 64)), chk (o + 1) (decide (f 1 1 < 64 ∧ f 1 1 + width ≤ 64)),
     chk (o + 2) (decide (f 2 1 < 8)) 3,
     chk (o + 3) (if ty = 0x10 then decide (1 ≤ f 3 1 ∧ f 3 1 ≤ 64) else if ty = 0x11 then decide (1 ≤ f 3 1 ∧ f 3 1 ≤ 32)
       else f 3 1 == 0),
     chk (o + 4) (if ty = 0x11 then decide (f 4 1 ≤ 62) else f 4 1 == 0),
     chk (o + 5) (if bitAt (f 2 1) 2 then decide (f 5 2 ≤ 511) else f 5 2 == 0), zeroAt img (o + 7) 1]

/-- R396: the descriptors of a format from `o`. -/
def formatChecks (img : List Byte) : Nat → Nat → Nat → Bool → List Check
  | 0, _, _, _ => []
  | n + 1, o, before, spent =>
    let ty := fieldAt img o 1
    fieldChecks img o before spent
      ++ formatChecks img n (o + 8) (before + normWidth ty (fieldAt img (o + 3) 1) + b2n (bitAt (fieldAt img (o + 2) 1) 2))
          (spent || ty == 0)

/-- R404, R412, R435: a ladder descriptor. -/
def ladderChecks (img : List Byte) (o formats : Nat) : List Check :=
  let f (k n : Nat) : Nat := fieldAt img (o + k) n
  let mode := f 0 1
  [chk o (decide (1 ≤ mode ∧ mode ≤ 4)), chk (o + 1) (mode == 4 || decide (f 1 1 < formats)),
   chk (o + 2) (mode != 4 || decide (2 ≤ f 2 2 ∧ f 2 2 ≤ 1024)),
   chk (o + 4) (mode != 2 || (decide (256 ≤ f 4 4 ∧ f 4 4 ≤ 16384) && f 4 4 % 256 == 0)),
   chk (o + 8) (mode != 3 || decide (1 ≤ f 8 4 ∧ f 8 4 ≤ 16384)), chk (o + 12) (f 12 4 % 64 == 0),
   chk (o + 20) (decide (f 20 1 < 2)), zeroAt img (o + 21) 3, chk (o + 24) (decide (f 24 8 < 2 ^ 32)), zeroAt img (o + 32) 32]

/-- R426, R435: the sort plan. -/
def sortChecks (img : List Byte) (b : Nat) : List Check :=
  let nf := fieldAt img b 2
  let nl := fieldAt img (b + 2) 2
  [chk b (decide (nf ≤ 8)), chk (b + 2) (decide (nl ≤ 64)), zeroAt img (b + 4) 60]
  ++ ((List.range (min nf 8)).flatMap fun i => formatChecks img 8 (b + 64 + 64 * i) 0 false)
  ++ ((List.range (min nl 64)).flatMap fun i => ladderChecks img (b + 64 + 64 * nf + 64 * i) nf)

/-- R436: memory-plan area `i`. -/
def areaChecks (img : List Byte) (b i : Nat) : List Check :=
  let o := b + 16 * i
  let f (k n : Nat) : Nat := fieldAt img (o + k) n
  [chk o (decide (f 0 2 < 256) && !(List.range i).any fun k => fieldAt img (b + 16 * k) 2 == f 0 2),
   chk (o + 2) (decide (1 ≤ f 2 1 ∧ f 2 1 ≤ 4)), zeroAt img (o + 3) 5,
   chk (o + 8) (decide (4096 ≤ f 8 8 ∧ f 8 8 ≤ 2 ^ 38) && f 8 8 % 4096 == 0)]

/-- R465: the result layout. -/
def resultChecks (img : List Byte) (b : Nat) : List Check :=
  let n := fieldAt img b 2
  let row := fieldAt img (b + 2) 2
  [chk b (decide (1 ≤ n ∧ n ≤ 256)), chk (b + 2) (decide (8 ≤ row ∧ row ≤ 4032) && row % 8 == 0), zeroAt img (b + 4) 4]
  ++ (List.range (min n 256)).flatMap fun c =>
    let o := b + 8 + 8 * c
    let ty := fieldAt img o 1
    let arg := fieldAt img (o + 1) 1
    let nullable := bitAt (fieldAt img (o + 3) 1) 0
    [chk o (typeDefined ty), chk (o + 1) (!typeDefined ty || argOk ty arg (fieldAt img (o + 2) 1)),
     chk (o + 2) (!typeDefined ty || precOk ty (fieldAt img (o + 2) 1)), chk (o + 3) (decide (fieldAt img (o + 3) 1 < 2)) 1,
     chk (o + 4) (decide (fieldAt img (o + 4) 2 + deliveredWidth ty arg false ≤ row)),
     chk (o + 6) (!nullable || decide (fieldAt img (o + 6) 2 < 8 * row))]

/-- The checks of the fields of a section other than a recipe. -/
def sectionChecks (img : List Byte) (x : Section) : List Check :=
  let b := x.off
  let each (size : Nat) (f : Nat → List Check) : List Check := (List.range (x.len / size)).flatMap f
  match x.kind with
  | 1 => each 256 (stageChecks img b)
  | 2 => kernelChecks img b
  | 4 => each 160 (exchangeChecks img b)
  | 5 => each 16 (hashChecks img b)
  | 6 => each 16 (layoutChecks img b)
  | 7 => each 32 (foldPlanChecks img b)
  | 8 => sortChecks img b
  | 9 => each 16 (areaChecks img b)
  | 10 => resultChecks img b
  | _ => []

/-- R856 step 3: a section by itself: the first field out of order; contents that need more bytes than `LENGTH` count
after its own fields (log entry 66). -/
def sectionFault (img : List Byte) (i : Nat) : Option Nat :=
  let x := Img.entry img i
  let short := 8 * (64 + 16 * i + 8)
  if x.kind = 3 then
    match Rcp.fault (slice img x.off x.len) with
    | some (some bit) => some (8 * x.off + bit)
    | some none => some short
    | none => none
  else
    (firstBad ((sectionChecks img x).filter fun c => decide (c.1 < 8 * (x.off + x.len)))).or
      (if sectionNeeds img x ≤ x.len then none else some short)

/-! ### What relates sections to one another (R207, R405, R431 to R437) -/

/-- An area number names nothing, or an area, of a kind if one is asked for. -/
def areaOk (img : List Byte) (no : Nat) (kind : Option Nat) : Bool :=
  no == 0xFFFF || (Img.areas img).any fun a => a.1 == no && (match kind with | some k => a.2.1 == k | none => true)

/-- R431: a list ends at its first 0xFF, and every byte before names an entry. -/
def listChecks (img : List Byte) (o n entries : Nat) : List Check :=
  (List.range n).map fun i =>
    let ended := (List.range i).any fun k => fieldAt img (o + k) 1 == 0xFF
    let v := fieldAt img (o + i) 1
    chk (o + i) (v == 0xFF || (!ended && decide (v < entries)))

/-- The ports a kernel binds. -/
def kernelPorts (img : List Byte) (b : Nat) : List Nat := (List.range (fieldAt img (b + 5) 1)).map fun i => fieldAt img (b + 64 + 8 * i) 2

/-- R155, R207: the ports that a recipe's streams are delivered to. -/
def recipePorts (rcp : List Byte) : List Nat :=
  ((Rcp.withOp rcp 1).flatMap fun k =>
    (if bitAt (Rcp.c rcp k) 0 then [Rcp.a rcp k] else []) ++ (if bitAt (Rcp.c rcp k) 1 then [0x008 + Rcp.a rcp k] else []))
    ++ (if Rcp.delivery rcp = 1 then [0x010] else []) ++ [0x011]

/-- R405: a kernel holds a ladder opcode. -/
def kernelLadder (img : List Byte) (b : Nat) : Bool :=
  (List.range (fieldAt img (b + 8) 4 / 8)).any fun i =>
    (wordOps (fieldAt img (b + 384 + 8 * i) 8)).any fun op => decide (0x0B4 ≤ op ∧ op ≤ 0x0B6)

/-- R437: the lantern-store ranges a stage names: the byte of its offset field, offset, length. -/
def stageRanges (img : List Byte) (j : Nat) : List (Nat × Nat × Nat) :=
  let o := Img.base img 1 + 256 * j
  let owned := (List.range 8).filterMap fun i =>
    let w := Img.win img j i
    if w.kind = 1 ∧ bitAt w.flags 0 then some (o + 64 + 16 * i + 4, w.off, w.len) else none
  let ds := ((List.range 16).map fun p => Img.st img j (192 + p) 1).filter (· != 0xFF)
  let ds := match (if Img.st img j 1 1 = 2 then Img.xchOf img (Img.st img j 32 2) else none) with
    | some d => ds ++ [d]
    | none => ds
  let land := ds.eraseDups.map fun d => (Img.base img 4 + 160 * d + 8, Img.xch img d 8 4, 4096 * Img.xch img d 12 2)
  let l := Img.st img j 232 2
  let lad := if l < Img.ladders img then
      let lo := Img.base img 8 + 64 + 64 * Img.formats img + 64 * l
      let size := match Img.ladder img l 0 1 with
        | 2 => 64 * Img.ladder img l 4 4
        | 3 => 64 * Img.ladder img l 8 4
        | 4 => 1024 * Img.ladder img l 2 2
        | _ => 0
      [(lo + 12, Img.ladder img l 12 4, size)]
    else []
  let h := Img.st img j 234 2
  let dir := if h < Img.entries img 5 16 then [(Img.base img 5 + 16 * h, Img.hash img h 0 4, 64 * 2 ^ Img.hash img h 4 1)] else []
  owned ++ land ++ [(o + 36, Img.st img j 36 4, 4096 * Img.st img j 40 2)] ++ lad ++ dir

/-- R437: the stages that stage `j` waits on through a chain of `WAITS`. -/
def waitChain (img : List Byte) (j : Nat) : List Nat :=
  (List.range j).reverse.foldl (fun acc i =>
    if acc.contains i || (j :: acc).any fun k => bitAt (Img.st img k 8 8) i then i :: acc.filter (· != i) else acc) []

/-- R431 to R435, R207, R405: what ties stage `j` to other sections. -/
def stageLinks (img : List Byte) (j : Nat) : List Check :=
  let o := Img.base img 1 + 256 * j
  let f (k n : Nat) : Nat := Img.st img j k n
  let kernel := Img.byId img 2 (f 4 2)
  let recipe := Img.byId img 3 (f 6 2)
  let kind := f 1 1
  let ports := match kernel with | some k => kernelPorts img k.off | none => []
  let needs := match recipe with | some r => recipePorts (slice img r.off r.len) | none => []
  let emit := bitAt (f 3 1) 1
  let l := f 232 2
  [chk (o + 3) (emit || !ports.contains 0x030) 1,
   chk (o + 4) (kernel.isSome && (kind != 1 || needs.all ports.contains)), chk (o + 6) (kind != 1 || recipe.isSome),
   chk (o + 32) (if kind = 2 then (Img.xchOf img (f 32 2)).isSome else kind != 3 || decide (f 32 2 < Img.stages img)),
   chk (o + 34) (areaOk img (f 34 2) (if emit then some 4 else none)), chk (o + 42) (areaOk img (f 42 2) (some 1))]
  ++ ((List.range 8).flatMap fun i =>
    let w := Img.win img j i
    let b := o + 64 + 16 * i
    if w.kind = 2 ∧ bitAt w.flags 1 then
      match (Img.areas img).find? (·.1 == w.source) with
      | none => [chk (b + 2) false]
      | some a => [chk (b + 4) (decide (w.off ≤ a.2.2)), chk (b + 10) (decide (a.2.2 < w.off ∨ w.off + w.len ≤ a.2.2))]
    else [])
  ++ ((List.range 16).map fun p => chk (o + 192 + p) (f (192 + p) 1 == 0xFF || decide (f (192 + p) 1 < Img.entries img 4 160)))
  ++ listChecks img (o + 208) 8 (Img.entries img 7 32) ++ listChecks img (o + 216) 16 (Img.entries img 6 16)
  ++ [chk (o + 232) (if l = 0xFFFF then !(match kernel with | some k => kernelLadder img k.off | none => false)
        else decide (l < Img.ladders img)),
      chk (o + 234) (f 234 2 == 0xFFFF || decide (f 234 2 < Img.entries img 5 16))]

/-- R437: a range of stage `j` that shares a byte with one of a lower stage which `j` does not wait on: its field. -/
def rangeFault (img : List Byte) (j : Nat) : Option Nat :=
  let free := (List.range j).filter fun i => !(waitChain img j).contains i
  let lower := free.flatMap (stageRanges img)
  firstBad ((stageRanges img j).map fun r => chk r.1 (!lower.any fun x => meet r.2 x.2))

/-- R433 to R435: what ties the plans to the memory plan. -/
def planLinks (img : List Byte) : List Check :=
  ((List.range (Img.entries img 4 160)).map fun d => chk (Img.base img 4 + 160 * d + 6) (areaOk img (Img.xch img d 6 2) (some 1)))
  ++ ((List.range (Img.entries img 6 16)).map fun i =>
    chk (Img.base img 6 + 16 * i + 2) (Img.chd img i 2 2 != 0xFFFF && areaOk img (Img.chd img i 2 2) (some 4)))
  ++ (List.range (Img.ladders img)).flatMap fun i =>
    let o := Img.base img 8 + 64 + 64 * Img.formats img + 64 * i
    let mode := Img.ladder img i 0 1
    let run := decide (mode = 2 ∨ mode = 3 ∨ (mode = 4 ∧ Img.ladder img i 20 1 = 0))
    [chk (o + 16) (!run || (Img.ladder img i 16 2 != 0xFFFF && areaOk img (Img.ladder img i 16 2) (some 2))),
     chk (o + 18) (mode != 4 || areaOk img (Img.ladder img i 18 2) (some 4))]

/-- The first `some` of a list of attempts. -/
def firstSome : List (Unit → Option Nat) → Option Nat
  | [] => none
  | f :: r => match f () with | some x => some x | none => firstSome r

/-- R429, R856: the bit position of the first offending field of an image, in the order of R856. -/
def imageFault (minorMax : Nat) (img : List Byte) : Option Nat :=
  let n := Img.count img
  firstSome ([fun _ => firstBad (headerChecks minorMax img)]
    ++ ((List.range n).map fun i _ => firstBad (entryChecks img i))
    ++ [fun _ => firstBad (missingChecks img)] ++ ((List.range n).map fun i _ => sectionFault img i)
    ++ ((List.range (Img.stages img)).map fun j _ => firstSome [fun _ => firstBad (stageLinks img j), fun _ => rangeFault img j])
    ++ [fun _ => firstBad (planLinks img)])

end Sys2Proof.Machine
end

