-- ==== Sys2Proof/Machine/LinkOps.lean ====
section
/-! DEFINITION. What the link layer and host memory are to the rest of the block: packets and their flits, reads and
writes of host memory, and the writes held until a read-back confirms them (R622, R625, R629, R630, R632, R633, R636 to
R640, R854; 14_molmi_link.md). -/
namespace Sys2Proof.Machine

/-- A Molmi port. -/
def State.port (s : State) (p : Nat) : MPort := Tab.at s.ports p

/-- A Molmi port changed. -/
def State.setPort (s : State) (p : Nat) (f : MPort → MPort) : State := { s with ports := Tab.edit s.ports p f }

/-- The port's state by the codes of `MLKn_STAT.STATE`. -/
def State.portState (s : State) (p : Nat) : Nat := s.fld (R.MLK_STAT p) F.MLK_STAT_STATE

/-- The port is ACTIVE. -/
def State.portActive (s : State) (p : Nat) : Bool := decide (p < 6) && s.portState p == 5

/-- R853: the port is ACTIVE in HOST mode. -/
def State.hostUp (s : State) (p : Nat) : Bool := s.portActive p && s.fld (R.MLK_CFG p) F.MLK_CFG_MODE == 0

/-! ### Packets and flits -/

/-- R632, R633: a packet: type, flags, `INSTANCE`, `GENERATION`, type fields as offset, width and value, data. -/
def packet (typ flags inst gen : Nat) (fs : List (Nat × Nat × Nat)) (data : List Byte) : List Byte :=
  let head := le typ 1 ++ le flags 1 ++ le data.length 2 ++ le inst 2 ++ le gen 2 ++ zeros 24
  fs.foldl (fun b f => patch b f.1 (le f.2.2 f.2.1)) head ++ data

/-- R622: a DATA flit as sent, with the acknowledgement and credits of the moment. -/
def TxFlit.encode (f : TxFlit) (ack : Nat) (nak : Bool) (credits : List Nat) : List Byte :=
  let b := le 1 1 ++ le f.vc 1 ++ le f.seq 2 ++ le (ack % 4096 + 4096 * b2n nak) 2
    ++ ((List.range 4).map fun v => BitVec.ofNat 8 (credits.getD v 0)) ++ le f.bytes.length 1 ++ le f.first 1
    ++ padTo f.bytes 236
  b ++ le (crc64 b) 8

/-- R625, R629, R630: the next DATA flit of channel `vc`, when the stream, the credits and the buffer allow one. -/
def MPort.nextFlit (m : MPort) (seq vc : Nat) : Option (TxFlit × MPort) :=
  let bytes := Tab.at m.tx vc
  if bytes.isEmpty || m.credit.getD vc 0 == 0 || decide (512 ≤ m.unacked.length) then none
  else
    let pay := bytes.take 236
    let starts := Tab.at m.starts vc
    let f : TxFlit := { seq := seq, vc := vc, first := (starts.find? (· < 236)).getD 255, bytes := pay }
    some (f, { m with
      tx := Tab.put m.tx vc (bytes.drop 236),
      starts := Tab.put m.starts vc ((starts.filter (236 ≤ ·)).map (· - 236)),
      credit := m.credit.set vc (m.credit.getD vc 0 - 1),
      unacked := m.unacked ++ [f] })

/-- One flit sent, of the lowest channel that can send. -/
def State.pumpOne (s : State) (p : Nat) : State :=
  let m := s.port p
  let seq := s.fld (R.MLK_STAT p) F.MLK_STAT_TX_SEQ
  match (List.range 4).findSome? fun vc => m.nextFlit seq vc with
  | some (_, m') =>
    let first := m.unacked.isEmpty
    let s := s.setPort p fun _ => if first then { m' with ackAt := s.tb.mono } else m'
    (s.setFld (R.MLK_STAT p) F.MLK_STAT_TX_SEQ ((seq + 1) % 4096)).bump (R.MLK_FLITS_TX p)
  | none => s

/-- R625, R630: an ACTIVE port sends what it may. -/
def State.pump (s : State) (p : Nat) : State :=
  if s.portActive p then (List.range 512).foldl (fun s _ => s.pumpOne p) s else s

/-- R629: a packet joins its channel's stream. -/
def State.transmit (s : State) (p vc : Nat) (bytes : List Byte) : State :=
  (s.setPort p fun m =>
    { m with tx := Tab.put m.tx vc (Tab.at m.tx vc ++ bytes),
             starts := Tab.put m.starts vc (Tab.at m.starts vc ++ [(Tab.at m.tx vc).length]) }).pump p

/-! ### Host memory -/

/-- R637: bytes from a host address cut at 4 KiB boundaries. -/
def hostPages (a : Nat) (bs : List Byte) : Nat → List (Nat × List Byte)
  | 0 => []
  | n + 1 =>
    let k := 4096 - a % 4096
    if bs.length ≤ k then [(a, bs)] else (a, bs.take k) :: hostPages ((a + k) % 2 ^ 64) (bs.drop k) n

/-- R637: the lowest tag of the port that no `MRD` uses. -/
def State.freeTag (s : State) (p : Nat) : Option Nat :=
  (List.range 1024).find? fun t => !(s.mrds.any fun m => m.port == p && m.tag == t)

/-- R637: an `MRD` is sent; none when 1,024 are outstanding. -/
def State.sendMrd (s : State) (p addr len inst gen : Nat) (m : Mrd) : Option (Nat × State) :=
  match s.freeTag p with
  | none => none
  | some t =>
    let s := s.transmit p 0 (packet 1 0 inst gen [(8, 2, t), (16, 8, addr), (24, 4, len)] [])
    some (t, { s with mrds := s.mrds ++ [{ m with port := p, tag := t, age := 0 }],
                      sent := s.sent ++ [.mrd p t addr len] })

/-- R602: Molmi payload bytes of an instance. -/
def State.linkBytes (s : State) (inst n : Nat) : State := s.tallyAdd inst fun c => { c with link := c.link + n }

/-- The bytes of a write to host memory leave the port as `MWR`s. -/
def State.putHost (s : State) (p addr : Nat) (bs : List Byte) (inst gen : Nat) : State :=
  let s := { s with hostMem := cellsWrite s.hostMem (hostKey p addr) bs }
  let s := s.linkBytes inst bs.length
  (hostPages addr bs (bs.length / 4096 + 2)).foldl (fun s x =>
    s.transmit p 0 (packet 2 0 inst gen [(16, 8, x.1)] x.2)) s

/-- R640: a write is issued, and with `ask` the read-back of its last byte behind it. -/
def State.issueHeld (s : State) (h : Held) (ask : Bool) : Held × State :=
  let s := s.putHost h.port h.addr h.bytes h.inst h.gen
  if ask then
    match s.sendMrd h.port ((h.addr + h.bytes.length - 1) % 2 ^ 64) 1 h.inst h.gen {} with
    | some (t, s) => ({ h with tag := some t, failedAt := none }, s)
    | none => ({ h with tag := none, failedAt := some s.tb.mono }, s)
  else ({ h with tag := none, failedAt := none }, s)

/-- R640, R853: a write to host memory: issued while the port is ACTIVE in HOST mode, and held until confirmed. -/
def State.hostWrite (s : State) (p addr : Nat) (bs : List Byte) (what : HeldFor) (inst gen : Nat)
    (ask : Bool := true) : State :=
  let h : Held := { port := p, addr := addr, bytes := bs, what := what, inst := inst, gen := gen }
  if s.hostUp p then
    let r := s.issueHeld h ask
    { r.2 with held := r.2.held ++ [r.1] }
  else { s with held := s.held ++ [h] }

/-- R854: the write is a publication write. -/
def HeldFor.publication : HeldFor → Bool
  | .status _ | .ring _ _ _ | .mirror _ => true
  | .data _ | .chain _ | .swx _ => false

/-- R580: the generation a write carries is still current. -/
def State.fresh (s : State) (inst gen : Nat) : Bool := gen != 0 && s.genOf inst == gen

/-- R580: a write is dropped at its output stage. -/
def State.staleDrop (s : State) (inst : Nat) : State := s.bump (R.INST_STALE inst)

/-- R640, R854: the unconfirmed writes of a port that wait are issued again, in order, each with a new read-back; those
of a stale generation are dropped (R580). -/
def State.reissue (s : State) (p : Nat) (due : Held → Bool) : State :=
  s.held.foldl (fun s h =>
    if h.port = p ∧ h.tag = none ∧ due h then
      let keep := s.held.erase h
      if !s.fresh h.inst h.gen then { s with held := keep }.staleDrop h.inst
      else
        let r := s.issueHeld h (match h.what with | .chain _ => false | _ => true)
        { r.2 with held := r.2.held.map fun x => if x == h then r.1 else x }
    else s) s

/-- R639: a read of host memory has failed. -/
def State.cplFail (s : State) (p : Nat) : State := (s.raise (R.MLK_ERR p) F.MLK_ERR_CPL_FAIL).bump (R.MLK_CPL_FAILS p)

/-- R537: the mirror of a queue is written: one write outstanding, a later value replaces an unsent one. -/
def State.writeMirror (s : State) (g idx : Nat) : State :=
  let q := Tab.at s.queues g
  if !q.mirrorEn then s
  else
    let gen := s.genOf q.inst
    let bytes := le idx 4 ++ le gen 2 ++ zeros 2
    let mine := fun (h : Held) => h.what == .mirror g
    if s.held.any fun h => mine h && h.tag.isNone then
      { s with held := s.held.map fun h => if mine h && h.tag.isNone then { h with bytes := bytes, gen := gen } else h }
    else if s.held.any mine then
      let h : Held := { port := q.port, addr := q.mirror, bytes := bytes, what := .mirror g, inst := q.inst, gen := gen }
      { s with held := s.held ++ [h] }
    else s.hostWrite q.port q.mirror bytes (.mirror g) q.inst gen

/-- R633, R649: a packet of type `NTFY`. -/
def State.sendNtfy (s : State) (p inst gen loc head vector count : Nat) : State :=
  let s : State := { s with sent := s.sent ++ [.ntfy p inst gen loc head vector count] }
  s.transmit p 3 (packet 8 0 inst gen [(14, 2, loc), (16, 4, head), (24, 2, vector), (26, 2, count)] [])

end Sys2Proof.Machine
end

