-- ==== Sys2Proof/Machine/TenantOps.lean ====
section
/-! DEFINITION. What instances hold and may hold: memory, banks, caps, the pool, tracked generations (R577 to R579, R587 to
R592, R855; 13_tenants_tally.md). -/
namespace Sys2Proof.Machine

/-- R587: what all RESERVED instances together may hold. -/
def totalMem : Nat := 302795194368
def totalBanks : Nat := 128
def totalWicks : Nat := 1024
def totalFold : Nat := 1024

/-- The sum of a list. -/
def total (l : List Nat) : Nat := l.foldl (· + ·) 0

/-- R591: held memory: table regions, memory-plan areas and suspension copies. -/
def State.heldMem (s : State) (i : Nat) : Nat :=
  total ((s.regions.filter fun r => r.2.inst == i).map fun r => r.2.size)
    + total ((s.runs.filter fun r => r.2.inst == i).map fun r => total (r.2.areas.map fun a => a.2.2.2) + r.2.savedSize)

/-- R429: the banks of an image's Chandelier layouts. -/
def imageBanks (img : List Byte) : Nat :=
  total ((List.range (Img.entries img 6 16)).map fun i => 2 ^ Img.chd img i 1 1)

/-- R591: the banks of an instance's loaded pipelines. -/
def State.heldBanks (s : State) (i : Nat) : Nat :=
  total ((s.pipes.filter fun p => p.2.inst == i).map fun p => imageBanks p.2.img)

/-- R589: `MAX_POOLED`. -/
def State.maxPooled (s : State) : Nat := s.fld R.INST_POOL F.INST_POOL_MAX_POOLED

/-- R589: the pooled share of dimension `d`: 0 wicks, 1 banks, 2 memory, 3 fold. -/
def State.pooledShare (s : State) (d : Nat) : Nat :=
  let p := s.pool.getD d 0
  let m := s.maxPooled
  if m = 0 then 0 else if d = 2 then p / 65536 / m * 65536 else p / m

/-- R592: a RESERVED instance's amount in dimension `d` as the totals count it. -/
def Inst.counted (x : Inst) (d : Nat) : Nat :=
  match d with
  | 0 => x.wicks
  | 1 => x.banksRes
  | 2 => x.memRes
  | _ => x.fold

/-- R589, R592: what the RESERVED instances hold in dimension `d`, instance `but` left out. -/
def State.reservedSum (s : State) (d but : Nat) : Nat :=
  total ((s.insts.filter fun e => e.1 != but && e.2.st != 0 && e.2.cls == 1).map fun e => e.2.counted d)

/-- R587: the device's total in dimension `d`. -/
def totalOf (d : Nat) : Nat := match d with | 0 => totalWicks | 1 => totalBanks | 2 => totalMem | _ => totalFold

/-- R855: what the manager holds in dimension `d`. -/
def State.managerHolds (s : State) (d : Nat) : Nat := match d with | 1 => s.heldBanks 0 | 2 => s.heldMem 0 | _ => 0

/-- R855: the manager's cap in dimension `d`. -/
def State.managerCap (s : State) (d : Nat) : Nat :=
  totalOf d - s.reservedSum d 0 - s.maxPooled * s.pooledShare d

/-- R587 to R592, R855: an instance's cap on memory and on banks; its floors. -/
def State.capOf (s : State) (i d : Nat) : Nat :=
  if i = 0 then (if d = 1 ∨ d = 2 then s.managerCap d else 0)
  else
    let x := Tab.at s.insts i
    if x.cls = 2 then s.pooledShare d
    else match d with | 0 => x.wicks | 1 => x.banks | 2 => x.mem | _ => x.fold

/-- POOLED instances. -/
def State.pooledCount (s : State) : Nat := (s.insts.filter fun e => e.2.st != 0 && e.2.cls == 2).length

/-- R589, R590, R855: a RESERVED instance `i` may hold `want` of dimension `d`. -/
def State.reserveFits (s : State) (i d want : Nat) : Bool :=
  let pool := if s.pooledCount = 0 then 0 else s.pool.getD d 0
  decide (s.reservedSum d i + want + pool + s.managerHolds d ≤ totalOf d)

/-! ### Memory of the device -/

/-- Ranges of tenant HBM that are allocated: regions, memory-plan areas and the shares of fold tables. -/
def State.allocated (s : State) : List (Nat × Nat) :=
  s.regions.map (fun r => (r.2.base, r.2.size))
    ++ s.runs.flatMap fun r => r.2.areas.map (fun a => (a.2.2.1, a.2.2.2)) ++ r.2.shares

/-- A range of tenant HBM is free. -/
def State.memFree (s : State) (base size : Nat) : Bool :=
  decide (base + size ≤ totalMem) && s.allocated.all fun r => decide (base + size ≤ r.1 ∨ r.1 + r.2 ≤ base)

/-- Some aligned place of tenant HBM can hold `size` bytes. -/
def State.memRoom (s : State) (align size : Nat) : Bool :=
  s.memFree 0 size || s.allocated.any fun r => s.memFree (roundUp (r.1 + r.2) align) size

/-- R591: an instance may take `size` bytes more. -/
def State.memQuota (s : State) (i size : Nat) : Bool := decide (s.heldMem i + size ≤ s.capOf i 2)

/-! ### Generations -/

/-- R577: generation `g` of instance `i` has work outstanding. -/
def State.outstanding (s : State) (i g : Nat) : Bool :=
  (s.ctxs.any fun c => c.2.st != .free && c.2.inst == i && c.2.gen == g)
    || (s.foldMsgs.any fun m => m.inst == i && m.gen == g)
    || (s.flits.any fun f => f.inst == i && f.gen == g)
    || (s.held.any fun h => h.inst == i && h.gen == g)
    || (s.outbox.any fun o => o.inst == i && o.gen == g && match o.act with | .journal _ => false | _ => true)
    || (s.cmds.any fun c => c.2.inst == i && c.2.gen == g && c.2.opcode == 0x40 && c.2.started && !c.2.finished)
    || (s.chains.any fun c =>
        bitsOf (s.rd (R.CHN_A c.1 7)) 8 11 == i && bitsOf (s.rd (R.CHN_A c.1 7)) 32 16 == g)

end Sys2Proof.Machine
end

