-- ==== Sys2Proof/Machine/Tables.lean ====
section
/-! DEFINITION. Table regions and the commands that move data between them and host memory (R552, R555 to R559, R591,
R643 to R647, R854; 12_queues_commands.md, 14_molmi_link.md). -/
namespace Sys2Proof.Machine

/-! ### Data writes of commands -/

/-- R854: bytes a command writes to a host address it names. -/
def State.dataWrite (s : State) (key addr : Nat) (bs : List Byte) : State :=
  let c := Tab.at s.cmds key
  if bs.isEmpty then s
  else s.hostWrite (Tab.at s.queues c.g).port addr bs (.data key) c.inst c.gen

/-- R679: the bytes lie within the host space. -/
def hostFits (addr n : Nat) : Bool := decide (addr + n ≤ 2 ^ 64)

/-- R854: the command completes once its data writes are confirmed; at once when it wrote nothing. -/
def State.awaitData (s : State) (key result : Nat) : State :=
  let s := (s.beginCmd key).editCmd key fun c => { c with phase := 9, result := result }
  if s.held.any fun h => h.what == .data key then s else s.finishCmd key Status.ok 0 result

/-- R854: a data write of a command is confirmed. -/
def State.confirmData (s : State) (h : Held) (key : Nat) : State :=
  let s := { s with held := s.held.erase h }
  let c := Tab.at s.cmds key
  if (s.held.any fun x => x.what == .data key) || c.finished || c.phase != 9 then s
  else s.finishCmd key Status.ok 0 c.result

/-- R854: a command's data writes are given up. -/
def State.loseData (s : State) (key : Nat) : State :=
  let s := { s with held := s.held.filter fun x => x.what != .data key }
  match Tab.get s.cmds key with
  | some c => if c.finished then s else s.finishCmd key Status.linkLost
  | none => s

/-! ### Regions -/

/-- R559, R574: a region of the command's instance. -/
def State.regionOf (s : State) (c : Cmd) (num : Nat) : Option Region :=
  match Tab.get s.regions num with
  | some r => if r.inst = c.inst then some r else none
  | none => none

/-- The region named at Pn holds `len` bytes from the offset at Pm: the region, or the residue of the offending field. -/
def State.rangeOf (s : State) (c : Cmd) (pn pm len : Nat) : Except Nat Region :=
  match s.regionOf c (c.p pn 4) with
  | none => .error (c.fieldResidue pn)
  | some r => if c.p pm 8 + len ≤ r.size then .ok r else .error (c.fieldResidue pm)

/-- R559, R591: `REGION_ALLOC` under a number and at a place picked from those free. The new region reads zero
(DESIGN CHOICE, log entry 20). -/
def regionAlloc (key num base : Nat) (c : Cmd) (s : State) : State :=
  let size := c.p 8 8
  if !s.memQuota c.inst size then s.completeCmd key Status.quotaExceeded
  else if !s.memRoom 65536 size then s.completeCmd key Status.noResource
  else if (Tab.get s.regions num).isSome ∨ 2 ^ 32 ≤ num ∨ base % 65536 ≠ 0 ∨ !s.memFree base size then s
  else
    let r : Region := { inst := c.inst, base := base, size := size }
    let s := { s.wipe base size with regions := Tab.put s.regions num r }
    (s.journalRec (c.journal 0x09 c.inst num 0 size)).completeCmd key Status.ok 0 num

/-- REGION_ALLOC (R559, R591, R596, R855). -/
def execRegionAlloc (key num base : Nat) (s : State) : Host.Outcome State Fault Refusal :=
  match s.cmdDue key 0x43 with
  | some c => .next (regionAlloc key num base c s)
  | none => .next s

/-- R572: the region is named by a command or run that has started and not finished. -/
def State.regionBusy (s : State) (num : Nat) : Bool :=
  s.cmds.any fun e => e.2.started && !e.2.finished && e.2.ranges.any (·.1 == num)
    && (match Tab.get s.regions num with | some r => r.inst == e.2.inst | none => false)

/-- R559, R572: `REGION_FREE`. -/
def regionFree (key : Nat) (c : Cmd) (s : State) : State :=
  match s.regionOf c (c.p 0 4) with
  | none => s.completeCmd key Status.invalidField (c.fieldResidue 0)
  | some r =>
    if s.regionBusy (c.p 0 4) then s.completeCmd key Status.busy
    else
      let s := { s with regions := Tab.del s.regions (c.p 0 4) }
      (s.journalRec (c.journal 0x0A c.inst (c.p 0 4) r.size 0)).completeCmd key Status.ok

/-- REGION_FREE (R552, R559, R572, R596). -/
def execRegionFree (key : Nat) (s : State) : Host.Outcome State Fault Refusal :=
  match s.cmdDue key 0x44 with
  | some c => .next (regionFree key c s)
  | none => .next s

/-! ### TABLE_READ and TABLE_COPY -/

/-- The first poisoned beat of a range. -/
def State.poisonIn (s : State) (a n : Nat) : Option Nat := s.poison.find? fun p => decide (p < a + n ∧ a < p + 32)

/-- `TABLE_READ`: the bytes go to host memory; a poisoned beat is met by the Chain (R673). -/
def tableRead (key : Nat) (c : Cmd) (s : State) : State :=
  let len := c.p 16 4
  match s.rangeOf c 0 8 len with
  | .error r => s.completeCmd key Status.invalidField r
  | .ok r =>
    if !hostFits (c.p 24 8) len then s.completeCmd key Status.invalidField (c.fieldResidue 24)
    else
      let a := r.base + c.p 8 8
      match s.poisonIn a len with
      | some p => (s.noteUE p 4).completeCmd key Status.uncorrectable
      | none =>
        let s := s.tallyAdd c.inst fun t => { t with hbmRead := t.hbmRead + len }
        ((s.beginCmd key).dataWrite key (c.p 24 8) (s.hbmRead a len)).awaitData key len

/-- TABLE_READ (R552, R559, R664, R854). -/
def execTableRead (key : Nat) (s : State) : Host.Outcome State Fault Refusal :=
  match s.cmdDue key 0x41 with
  | some c => .next (whenDue (!c.started) s (tableRead key c s))
  | none => .next s

/-- `TABLE_COPY`: the destination takes the source's bytes as they stood. -/
def tableCopy (key : Nat) (c : Cmd) (s : State) : State :=
  let len := c.p 24 8
  match s.rangeOf c 0 8 len, s.rangeOf c 4 16 len with
  | .error r, _ => s.completeCmd key Status.invalidField r
  | _, .error r => s.completeCmd key Status.invalidField r
  | .ok x, .ok y =>
    let src := x.base + c.p 8 8
    let dst := y.base + c.p 16 8
    match s.poisonIn src len with
    | some p => (s.noteUE p 4).completeCmd key Status.uncorrectable
    | none =>
      let s := s.tallyAdd c.inst fun t => { t with hbmRead := t.hbmRead + len, hbmWritten := t.hbmWritten + len }
      let s := { s with mem := cellsCopy s.mem s.mem src dst len, poison := clearPoison s.poison dst len }
      s.completeCmd key Status.ok 0 len

/-- TABLE_COPY (R552, R559). -/
def execTableCopy (key : Nat) (s : State) : Host.Outcome State Fault Refusal :=
  match s.cmdDue key 0x42 with
  | some c => .next (tableCopy key c s)
  | none => .next s

/-! ### TABLE_WRITE -/

/-- R557: the write begins; it asks for its data once staging is reserved. -/
def tableWrite (key : Nat) (c : Cmd) (s : State) : State :=
  match s.rangeOf c 0 8 (c.p 16 4) with
  | .error r => s.completeCmd key Status.invalidField r
  | .ok _ =>
    let w : Write := { region := c.p 0 4, off := c.p 8 8, len := c.p 16 4, data := zeros (c.p 16 4) }
    { s.beginCmd key with writes := Tab.put s.writes key w }

/-- R558: the next piece of a write whose bytes have all arrived, of at most 1 MiB, is applied; after the last one the
command ends. -/
def applyPiece (key : Nat) (w : Write) (s : State) : State :=
  let c := Tab.at s.cmds key
  match Tab.get s.regions w.region with
  | none => { s with writes := Tab.del s.writes key }.finishCmd key Status.invalidField (c.fieldResidue 0)
  | some r =>
    let n := min 1048576 (w.len - w.applied)
    let s := s.poke (r.base + w.off + w.applied) (slice w.data w.applied n)
    let s := s.tallyAdd c.inst fun t => { t with hbmWritten := t.hbmWritten + n }
    if w.applied + n = w.len then { s with writes := Tab.del s.writes key }.finishCmd key Status.ok 0 w.len
    else { s with writes := Tab.put s.writes key { w with applied := w.applied + n } }

/-- TABLE_WRITE (R552, R557 to R559): the write begins; once its bytes have arrived, each further step applies a piece. -/
def execTableWrite (key : Nat) (s : State) : Host.Outcome State Fault Refusal :=
  match s.cmdDue key 0x40 with
  | some c =>
    if !c.started then .next (tableWrite key c s)
    else match Tab.get s.writes key with
    | some w => .next (whenDue w.arrived s (applyPiece key w s))
    | none => .next s
  | none => .next s

/-- R557: the staging a write needs. -/
def Write.need (w : Write) : Nat := roundUp w.len 262144

/-- R557: a write's reservation fits within both limits. -/
def State.stagingFits (s : State) (inst need : Nat) : Bool :=
  let all := total (s.writes.map (·.2.reserved))
  let own := total ((s.writes.filter fun e => (Tab.at s.cmds e.1).inst == inst).map (·.2.reserved))
  decide (all + need ≤ 268435456 ∧ own + need ≤ 67108864)

/-- R557: the oldest waiting write of an instance. -/
def State.oldestWaiting (s : State) (inst : Nat) : Option Nat :=
  let ws := s.writes.filter fun e => e.2.reserved == 0 && (Tab.at s.cmds e.1).inst == inst
  (ws.foldl (fun (b : Option (Nat × Nat)) e =>
    let q := (Tab.at s.cmds e.1).seq
    match b with
    | some (x, k) => if q < x then some (q, e.1) else some (x, k)
    | none => some (q, e.1)) none).map (·.2)

/-- R557: it is write `key`'s turn: the oldest of its instance, and no instance nearer in the round has one that fits. -/
def State.stagingTurnOf (s : State) (key : Nat) : Bool :=
  let inst := (Tab.at s.cmds key).inst
  let dist := fun i => (i + 1025 - s.stagingTurn - 1) % 1025
  let others := ((s.writes.filter fun e => e.2.reserved == 0).map fun e => (Tab.at s.cmds e.1).inst).eraseDups
  s.oldestWaiting inst == some key &&
    !(others.any fun i => decide (dist i < dist inst) &&
      match s.oldestWaiting i with | some k => s.stagingFits i (Tab.at s.writes k).need | none => false)

/-- R643, R644: an `XID` that no unsatisfied request uses. -/
def Write.xidFree (w : Write) (xid : Nat) : Bool := decide (xid < 4) && w.reqs.all fun x => x.xid != xid || x.sat

/-- R527: the index of a command's first slot. -/
def State.entryIndex (s : State) (c : Cmd) : Nat :=
  let q := Tab.at s.queues c.g
  let pos := (c.ents.headD (0, 0)).1
  ofLinear q.n (linear q.n q.prod + (pos + q.n - q.prod % 65536) % q.n)

/-- R555, R643: the next part of a write is asked for. -/
def xferRdy (key xid : Nat) (c : Cmd) (w : Write) (s : State) : State :=
  let q := Tab.at s.queues c.g
  let len := min 262144 (w.len - w.asked)
  let x : Xfer := { xid := xid, off := w.asked, len := len }
  let w' := { w with reserved := w.need, asked := w.asked + len, reqs := w.reqs.filter (·.xid != xid) ++ [x] }
  let s := { s with writes := Tab.put s.writes key w',
                    stagingTurn := if w.reserved = 0 then c.inst else s.stagingTurn }
  let idx := s.entryIndex c
  let addr := (c.p 24 8 + w.asked) % 2 ^ 64
  let s : State := { s with sent := s.sent ++ [.xferRdy q.port c.inst c.gen q.loc idx xid w.asked len addr] }
  s.transmit q.port 2 (packet 6 0 c.inst c.gen
    [(8, 4, idx), (12, 1, xid), (14, 2, q.loc), (16, 8, addr), (24, 4, w.asked), (28, 4, len)] [])

/-- XFER_RDY (R555, R557, R643). -/
def execXferRdy (key xid : Nat) (s : State) : Host.Outcome State Fault Refusal :=
  match s.cmdDue key 0x40, Tab.get s.writes key with
  | some c, some w =>
    let res := w.reserved != 0 || (s.stagingFits c.inst w.need && s.stagingTurnOf key)
    .next (whenDue (s.hostUp (Tab.at s.queues c.g).port && res && w.xidFree xid && decide (w.asked < w.len)
        && decide ((w.reqs.filter fun x => !x.sat).length < 4)) s
      (xferRdy key xid c w s))
  | _, _ => .next s

/-- R557, R558: the write ends without being applied. -/
def State.failWrite (s : State) (key status residue : Nat) : State :=
  { s with writes := Tab.del s.writes key }.finishCmd key status residue

/-- R645: how a `DATA` packet breaks the length of a request: status and residue. -/
def dataBreach (x : Xfer) (off n : Nat) (last : Bool) : Option (Nat × Nat) :=
  let fin := x.off + x.len
  let next := x.off + x.got
  if fin < off + n ∨ x.sat then some (Status.dataOverrun, off + n - max off fin)
  else if off < next then some (Status.dataOverrun, next - off)
  else if next < off then some (Status.dataUnderrun, off - next)
  else if last ∧ off + n < fin then some (Status.dataUnderrun, fin - (off + n))
  else none

/-- R644: the bytes of a request taken. -/
def Write.take (w : Write) (xid off : Nat) (bs : List Byte) : Write :=
  { w with data := patch w.data off bs,
           reqs := w.reqs.map fun x =>
             if x.xid = xid then { x with got := x.got + bs.length, sat := x.got + bs.length == x.len, idle := 0 } else x }

/-- R644 to R647: a `DATA` packet of a live command. -/
def dataArrive (port key xid off : Nat) (last : Bool) (bs : List Byte) (w : Write) (s : State) : State :=
  match w.reqs.find? (·.xid == xid) with
  | none => s.bump (R.MLK_BAD_DATA port)
  | some x =>
    let s := s.linkBytes (Tab.at s.cmds key).inst bs.length
    match dataBreach x off bs.length last with
    | some (st, r) => s.failWrite key st r
    | none =>
      { s with writes := Tab.put s.writes key (w.take xid off bs) }

/-- R643, R646, R647: the `TABLE_WRITE` that a packet names, by key, from its first request until its data is applied. -/
def State.dataTarget (s : State) (inst loc entry : Nat) : Option (Nat × Write) :=
  match s.globalOf inst loc with
  | none => none
  | some g =>
    let key := g * 65536 + entry % 65536
    match Tab.get s.cmds key, Tab.get s.writes key with
    | some c, some w => if s.entryIndex c = entry ∧ !c.finished ∧ !w.reqs.isEmpty ∧ w.applied = 0 then some (key, w) else none
    | _, _ => none

/-- DATA (R104, R555, R556, R558, R644 to R647). -/
def execDataPacket (port inst gen loc entry xid off : Nat) (last : Bool) (bytes : List Byte) (s : State) :
    Host.Outcome State Fault Refusal :=
  let ok := s.live && s.hostUp port && decide (1 ≤ bytes.length ∧ bytes.length ≤ 4096)
  if !ok then .next s
  else if !s.fresh inst gen then .next (s.bump (R.MLK_STALE_IN port))
  else match s.dataTarget inst loc entry with
    | some (key, w) => .next (dataArrive port key xid off last bytes w s)
    | none => .next (s.bump (R.MLK_BAD_DATA port))

/-- XFER_TIMEOUT (R645): no `DATA` for a request for `XFER_TO` of ACTIVE time. -/
def execXferTimeout (key xid : Nat) (s : State) : Host.Outcome State Fault Refusal :=
  match Tab.get s.writes key with
  | none => .next s
  | some w =>
    match w.reqs.find? fun x => x.xid == xid && !x.sat with
    | none => .next s
    | some x =>
      let port := (Tab.at s.queues ((Tab.at s.cmds key).g)).port
      .next (whenDue (s.live && decide (1000000 * s.fld (R.MLK_CFG port) F.MLK_CFG_XFER_TO ≤ x.idle)) s
        (s.failWrite key Status.dataUnderrun (x.len - x.got)))

end Sys2Proof.Machine
end

