-- ==== Sys2Proof/Machine/Pipelines.lean ====
section
/-! DEFINITION. Loading and unloading pipelines (R267 to R271, R362, R423, R429, R430; 10_pipelines.md). -/
namespace Sys2Proof.Machine

/-- R706: the firmware image that the captain runs; crank A's while no seat is captain. -/
def State.firmware (s : State) : List Byte := if s.captain = some 1 then s.crank.imageB else s.crank.image

/-- R427: `IMAGE_MINOR_MAX` of the running firmware. -/
def State.imageMinorMax (s : State) : Nat := fieldAt s.firmware 7 1

/-! ### Places for kernels, tables and banks -/

/-- R205: the bytes of kernel section `id` of an image: header, port table and code. -/
def kernelBytes (img : List Byte) (id : Nat) : List Byte :=
  match Img.byId img 2 id with
  | some x => slice img x.off (384 + fieldAt img (x.off + 8) 4)
  | none => []

/-- R429: the kernels each lantern slot needs: slot and section `ID`. -/
def kernelNeeds (img : List Byte) : List (Nat × Nat) :=
  ((List.range (Img.stages img)).flatMap fun j => (Img.slots img j).map fun m => (m, Img.st img j 4 2)).eraseDups

/-- The code-store ranges of slot `m` that loaded kernels take. -/
def State.codeUsed (s : State) (m : Nat) : List (Nat × Nat) :=
  s.pipes.flatMap fun p => (p.2.kernels.filter (·.1 == m)).map fun k => (k.2.2, (kernelBytes p.2.img k.2.1).length)

/-- The bytes of a code store. -/
def codeSize : Nat := 0x40000

/-- The ranges clear one another and lie in a code store. -/
def placesOk : List (Nat × Nat) → List (Nat × Nat) → Bool
  | _, [] => true
  | used, p :: r => p.1 % 64 == 0 && decide (p.1 + p.2 ≤ codeSize) && (used.all fun u => !meet p u) && placesOk (p :: used) r

/-- R429: kernels of some sizes find room one after another, each at the first free place. -/
def codeFits : List (Nat × Nat) → List Nat → Bool
  | _, [] => true
  | used, n :: r =>
    match (0 :: used.map fun u => roundUp (u.1 + u.2) 64).find? fun a => decide (a + n ≤ codeSize) && used.all fun u => !meet (a, n) u with
    | some a => codeFits ((a, n) :: used) r
    | none => false

/-- R429: the code stores have room for an image's kernels. -/
def State.codeRoom (s : State) (img : List Byte) : Bool :=
  (List.range 64).all fun m =>
    codeFits (s.codeUsed m) (((kernelNeeds img).filter (·.1 == m)).map fun k => (kernelBytes img k.2).length)

/-- The picked kernel places: slot, section, address; every need is met once and no place is taken. -/
def State.kernelsOk (s : State) (img : List Byte) (ks : List (Nat × Nat × Nat)) : Bool :=
  ks.map (fun k => (k.1, k.2.1)) == kernelNeeds img &&
    (List.range 64).all fun m =>
      placesOk (s.codeUsed m) ((ks.filter (·.1 == m)).map fun k => (k.2.2, (kernelBytes img k.2.1).length))

/-- R268, R312: the free banks of Chandelier `c`, and its free tables. -/
def State.freeBanks (s : State) (c : Nat) : List Nat :=
  (List.range 32).filter fun b =>
    !s.bit (R.CHD_BANK c b) F.CHD_BANK_LEASED && !s.bit (R.CHD_BANK c b) F.CHD_BANK_OUT_OF_SERVICE
def State.freeTables (s : State) (c : Nat) : List Nat :=
  (List.range 32).filter fun t => !s.bit (R.CHD_TABLE c t) F.CHD_TABLE_VALID

/-- R270: the picked tables: Chandelier × 32 + table, and its banks in table-bank order. -/
def State.chdsOk (s : State) (img : List Byte) (ts : List (Nat × List Nat)) : Bool :=
  ts.length == Img.entries img 6 16 && (ts.map (·.1)).eraseDups.length == ts.length
    && (ts.flatMap fun t => t.2.map fun b => 32 * (t.1 / 32) + b).eraseDups.length == total (ts.map (·.2.length))
    && (ts.zipIdx.all fun t =>
      decide (t.1.1 < 128) && (s.freeTables (t.1.1 / 32)).contains (t.1.1 % 32)
        && t.1.2.length == 2 ^ Img.chd img t.2 1 1 && t.1.2.all (s.freeBanks (t.1.1 / 32)).contains)

/-- R429: tables of some bank counts find room: each on the first Chandelier with enough free banks and a table.
Chandeliers as free banks and free tables. -/
def chdFits : List (Nat × Nat) → List Nat → Bool
  | _, [] => true
  | cs, n :: r =>
    match (List.range cs.length).find? fun c => decide (n ≤ (cs.getD c (0, 0)).1 ∧ 1 ≤ (cs.getD c (0, 0)).2) with
    | some c => let x := cs.getD c (0, 0)
                chdFits (cs.set c (x.1 - n, x.2 - 1)) r
    | none => false

/-- R429: the Chandeliers have room for an image's layouts, the largest first. -/
def State.chdRoom (s : State) (img : List Byte) : Bool :=
  let sizes := (List.range (Img.entries img 6 16)).map fun i => Img.chd img i 1 1
  let big := [5, 4, 3, 2, 1, 0].flatMap fun k => (sizes.filter (· == k)).map fun k => 2 ^ k
  chdFits ((List.range 4).map fun c => ((s.freeBanks c).length, (s.freeTables c).length)) big

/-- R362: fold tables that no loaded pipeline holds. -/
def State.freeFolds (s : State) : List Nat :=
  (List.range 64).filter fun t => !s.pipes.any fun p => p.2.foldTabs.any (·.2 == t)

/-! ### PIPELINE_LOAD -/

/-- R267 to R271: a table is created on its banks. -/
def State.leaseTable (s : State) (inst gen pipe width k c t : Nat) (banks : List Nat) : State :=
  let s := banks.zipIdx.foldl (fun s b =>
    let s := s.clearBank c b.1
    let v := putBits (putBits (putBits (putBits (s.rd (R.CHD_BANK c b.1)) 0 1 1) 1 2 width) 3 5 t) 8 5 b.2
    s.wr (R.CHD_BANK c b.1) v) s
  let v := 1 + 4 * k + 32 * width + 256 * inst + gen * 2 ^ 32 + pipe * 2 ^ 48
  s.wr (R.CHD_TABLE c t) v

/-- R270, R271: table `t` of Chandelier `c` is released. -/
def State.releaseTable (s : State) (c t : Nat) : State :=
  let s := (s.tableBanks c t).foldl (fun s b => (s.clearBank c b).setFld (R.CHD_BANK c b) F.CHD_BANK_LEASED 0) s
  (s.setChd c fun h => h.dropTable t).wr (R.CHD_TABLE c t) 0

/-- R429: the image takes effect: kernels to the code stores, tables leased, the number given. -/
def State.loadPipe (s : State) (key num : Nat) (c : Cmd) (img : List Byte) (kernels : List (Nat × Nat × Nat))
    (chds : List (Nat × List Nat)) (folds : List Nat) : State :=
  let s := kernels.foldl (fun s k =>
    match s.lanternOf k.1 with
    | some n => s.poke (codeKey n k.2.2) (kernelBytes img k.2.1)
    | none => s) s
  let s := chds.zipIdx.foldl (fun s t =>
    s.leaseTable c.inst c.gen num (Img.chd img t.2 0 1) (Img.chd img t.2 1 1) (t.1.1 / 32) (t.1.1 % 32) t.1.2) s
  let p : Pipe := { inst := c.inst, gen := c.gen, img := img, imageId := fieldAt img 24 8, kernels := kernels,
                    chdTabs := chds.zipIdx.map fun t => (t.2, t.1.1), foldTabs := folds.zipIdx.map fun t => (t.2, t.1) }
  let s := { s with pipes := Tab.put s.pipes num p }.journalRec (c.journal 0x0B c.inst num 0 p.imageId)
  s.completeCmd key Status.ok 0 num

/-- R429: the image is over the instance's quota of banks, or has fold tables it has no share for. -/
def State.pipeQuota (s : State) (inst : Nat) (img : List Byte) : Bool :=
  decide (s.capOf inst 1 < s.heldBanks inst + imageBanks img)
    || (decide (Img.entries img 7 32 ≠ 0 ∧ inst ≠ 0) && s.capOf inst 3 == 0)

/-- R423, R428, R429: the checks in order, then the load under the picks. -/
def pipelineLoad (key num : Nat) (kernels : List (Nat × Nat × Nat)) (chds : List (Nat × List Nat)) (folds : List Nat)
    (c : Cmd) (s : State) : State :=
  let off := c.p 8 8
  match s.regionOf c (c.p 0 4) with
  | none => s.completeCmd key Status.invalidField (c.fieldResidue 0)
  | some r =>
    let len := fieldAt (s.hbmRead (r.base + off) 64) 8 4
    if off % 64 ≠ 0 ∨ r.size < off + 64 ∨ r.size < off + len then s.completeCmd key Status.invalidField (c.fieldResidue 8)
    else match s.poisonIn (r.base + off) len with
    | some p => (s.noteUE p 6).completeCmd key Status.uncorrectable
    | none =>
      let img := s.hbmRead (r.base + off) len
      let s := s.tallyAdd c.inst fun t => { t with hbmRead := t.hbmRead + len }
      let body := fieldAt img 12 4
      if !bitAt (fieldAt img 16 1) 0 && s.pipeSigReq && s.ownerSet then s.completeCmd key Status.authFailed
      else if bitAt (fieldAt img 16 1) 0 && s.swx.dead then s.completeCmd key Status.repairExhausted
      else if bitAt (fieldAt img 16 1) 0 && !s.verifyPipe body img then
        (s.raise R.SWX_ERR F.SWX_ERR_VERIFY).completeCmd key Status.authFailed
      else match imageFault s.imageMinorMax img with
      | some bit => s.completeCmd key Status.invalidField bit
      | none =>
        if s.pipeQuota c.inst img then s.completeCmd key Status.quotaExceeded
        else if 64 ≤ s.pipes.countP (·.2.inst == c.inst) ∨ 65535 ≤ s.pipes.length ∨ !s.codeRoom img ∨ !s.chdRoom img
            ∨ s.freeFolds.length < Img.entries img 7 32 then s.completeCmd key Status.noResource
        else if 1 ≤ num && decide (num ≤ 65535) && (Tab.get s.pipes num).isNone && s.kernelsOk img kernels && s.chdsOk img chds
            && folds.length == Img.entries img 7 32 && folds.eraseDups.length == folds.length && folds.all s.freeFolds.contains then
          s.loadPipe key num c img kernels chds folds
        else s

/-- PIPELINE_LOAD (R119, R120, R205 to R207, R267, R270, R271, R347, R401, R405, R423 to R437, R465, R760, R761, R856):
under number `num`, with picked places of kernels, Chandelier tables with their banks, and fold tables. -/
def execPipelineLoad (key num : Nat) (kernels : List (Nat × Nat × Nat)) (chds : List (Nat × List Nat)) (folds : List Nat)
    (s : State) : Host.Outcome State Fault Refusal :=
  match s.cmdDue key 0x48 with
  | some c => .next (pipelineLoad key num kernels chds folds c s)
  | none => .next s

/-! ### PIPELINE_UNLOAD -/

/-- R430: a pipeline's number, kernels, recipes and tables are freed. -/
def State.unloadPipe (s : State) (num : Nat) : State :=
  let p := Tab.at s.pipes num
  let s := (List.range 68).foldl (fun s n =>
    let held := (List.range 16).filter fun i =>
      match (Tab.at s.recSlots (slotKey n i)).ref with | some r => r.1 == num | none => false
    if held.isEmpty then s else rcpinv n (total (held.map (2 ^ ·))) s) s
  let s := p.chdTabs.foldl (fun s t => s.releaseTable (t.2 / 32) (t.2 % 32)) s
  let s := p.foldTabs.foldl (fun s t => s.setFld (R.FOLD_TBL_CFG t.2) F.FOLD_TBL_CFG_VALID 0) s
  { s with pipes := Tab.del s.pipes num }

/-- R430: a `QUERY_RUN` of the pipeline has been accepted and has not completed. -/
def State.pipeBusy (s : State) (inst num : Nat) : Bool :=
  (s.runs.any fun r => r.2.pipe == num && r.2.st != 3)
    || s.cmds.any fun e => e.2.opcode == 0x4A && !e.2.finished && e.2.inst == inst && e.2.p 0 2 == num

/-- R430: `PIPELINE_UNLOAD`. -/
def pipelineUnload (key : Nat) (c : Cmd) (s : State) : State :=
  match Tab.get s.pipes (c.p 0 2) with
  | none => s.completeCmd key Status.invalidField (c.fieldResidue 0)
  | some p =>
    if p.inst ≠ c.inst then s.completeCmd key Status.invalidField (c.fieldResidue 0)
    else if s.pipeBusy c.inst (c.p 0 2) then s.completeCmd key Status.busy
    else ((s.unloadPipe (c.p 0 2)).journalRec (c.journal 0x0C c.inst (c.p 0 2) p.imageId 0)).completeCmd key Status.ok

/-- PIPELINE_UNLOAD (R270, R271, R362, R430). -/
def execPipelineUnload (key : Nat) (s : State) : Host.Outcome State Fault Refusal :=
  match s.cmdDue key 0x49 with
  | some c => .next (pipelineUnload key c s)
  | none => .next s

end Sys2Proof.Machine
end

