-- ==== Sys2Proof/Machine/Sealwax.lean ====
section
/-! DEFINITION. Sealwax: key slots, messages, contexts, wrapped blobs, the tree-epoch counter and attestations (R731 to R768;
17_sealwax_trust.md). Lamplighter's and the Tally's own messages take no context in the model. -/
namespace Sys2Proof.Machine

/-! ### Keys (R732 to R737, R750 to R752) -/

/-- R732: `DEVICE_SECRET`. -/
def deviceSecret : List Byte := (List.range 32).map Config.deviceSecretByte

/-- R733: the derived values; labels by their ASCII bytes. -/
def wrapKey (e : Nat) : List Byte := kdf deviceSecret 0x504B322057524150 8 (le e 4)
def topSeed : List Byte := kdf deviceSecret 0x504B3220544F502053454544 12 []
def topI : List Byte := (kdf deviceSecret 0x504B3220544F502049 9 []).take 16
def lowSeed (e : Nat) : List Byte := kdf deviceSecret 0x504B32204C4F572053454544 12 (le e 4)
def lowI (e : Nat) : List Byte := (kdf deviceSecret 0x504B32204C4F572049 9 (le e 4)).take 16
def State.loadKey (s : State) (k : Nat) : List Byte := kdf s.ras.loadSeed 0x504B32204B4C4F4144 9 (le k 1)

/-- A key slot. -/
def State.swxSlot (s : State) (k : Nat) : SwxSlot := Tab.at s.swx.slots k

/-- A key slot changed; its register follows (R734). -/
def State.setSwxSlot (s : State) (k : Nat) (x : SwxSlot) : State :=
  let v := match x.key with
    | some b => 1 + 2 * b.length + x.use % 2048 * 256 + x.loads * 2 ^ 32
    | none => x.loads * 2 ^ 32
  { s with swx := { s.swx with slots := Tab.put s.swx.slots k x } }.wr (R.SWX_SLOT k) v

/-- R752: the plaintext of a blob whose header is `aad`, when its tag and fixed bytes hold. -/
def unwrapBlob (key blob : List Byte) : Option (List Byte) :=
  let ks := aesKeys key
  let iv := slice blob 24 12
  let ct := slice blob 40 192
  if blob.length = 256 ∧ fieldAt blob 0 4 = 0x42574B50 ∧ fieldAt blob 4 1 = 1 ∧ fieldAt blob 6 2 = 0 ∧ fieldAt blob 14 2 = 0
      ∧ fieldAt blob 20 4 = 0 ∧ fieldAt blob 36 4 = 0 ∧ fieldAt blob 248 8 = 0
      ∧ gcmTag ks iv (blob.take 24) ct = slice blob 232 16 then some (gcmStream ks iv ct)
  else none

/-- R736, R752: the key, and the `USE`, that a key blob brings to slot `k`. -/
def State.openKeyBlob (s : State) (k : Nat) (blob : List Byte) : Option (List Byte × Nat) :=
  match unwrapBlob (s.loadKey k) blob with
  | none => none
  | some p =>
    let n := fieldAt p 0 1
    if fieldAt blob 5 1 = 2 ∧ fieldAt blob 8 4 = 0 ∧ fieldAt blob 12 1 = k ∧ fieldAt blob 13 1 = 0 ∧ fieldAt blob 16 4 = 0
        ∧ 1 ≤ n ∧ n ≤ 64 ∧ fieldAt p 1 1 = 0 ∧ leNat (p.drop (4 + n)) = 0 then some (slice p 4 n, fieldAt p 2 2 % 2048)
    else none

/-- R752: a blob has failed. -/
def State.wrapFails (s : State) : State := (s.raise R.SWX_ERR F.SWX_ERR_WRAP).bump R.SWX_WRAP_FAILS

/-- R736: `KEY_LOAD`; `blob` is what the read of `ADDR` returned, none when it failed (R639). -/
def keyLoad (key : Nat) (blob : Option (List Byte)) (c : Cmd) (s : State) : State :=
  let k := c.p 0 1
  let len := c.p 16 4
  let x := s.swxSlot k
  let rec_ (s : State) (old new : Nat) : State := s.journalRec (c.journal 0x0D 0xFFFF k old new)
  if len ≠ 0 ∧ len ≠ 256 then s.completeCmd key Status.invalidField (c.fieldResidue 16)
  else if !s.loadSeedSet then s.completeCmd key Status.authFailed
  else if s.swx.dead then s.completeCmd key Status.repairExhausted
  else if len = 0 then
    let s := s.setSwxSlot k { x with key := none, use := 0 }
    (if x.key.isSome then rec_ s 1 0 else s).completeCmd key Status.ok
  else match blob with
  | none => (s.cplFail (Tab.at s.queues c.g).port).completeCmd key Status.linkLost
  | some b =>
    match s.openKeyBlob k b with
    | none => s.wrapFails.completeCmd key Status.wrapInvalid
    | some (v, use) =>
      let s := s.setSwxSlot k { key := some v, use := use, loads := (x.loads + 1) % 2 ^ 32 }
      (rec_ s 0 1).completeCmd key Status.ok

/-- KEY_LOAD (R734, R736, R737, R751, R752, R754, R761). -/
def execKeyLoad (key : Nat) (blob : Option (List Byte)) (s : State) : Host.Outcome State Fault Refusal :=
  match s.cmdDue key 0x1A with
  | some c => .next (keyLoad key blob c s)
  | none => .next s

/-! ### The tree-epoch counter (R762, R763, R765) -/

/-- R762: positions of the counter. -/
def epochPositions : Nat := 33024

/-- `EPOCHS_LEFT` and `SLACK` of `SWX_ATT` follow the counter. -/
def State.epochView (s : State) : State :=
  let left := epochPositions - s.ras.epochTop
  let v := 32768 - s.ras.epochBurned
  (s.setFld R.SWX_ATT F.SWX_ATT_EPOCHS_LEFT (min v left)).setFld R.SWX_ATT F.SWX_ATT_SLACK (left - v)

/-- R765: an epoch can still be opened. -/
def State.epochLeft (s : State) : Bool := decide (s.ras.epochBurned < 32768 ∧ s.ras.epochTop < epochPositions)

/-- R763, R765: Sealwax opens an epoch; `fails` positions fail to burn first. -/
def State.openEpoch (s : State) (fails : Nat) : State :=
  let none_ (s : State) : State :=
    (s.raise R.SWX_ERR F.SWX_ERR_EXHAUSTED).setFld R.SWX_ATT F.SWX_ATT_EPOCH_VALID 0
  if !s.epochLeft then none_ s
  else
    let s := if fails = 0 then s else s.raise R.SWX_ERR F.SWX_ERR_FUSE
    let top := s.ras.epochTop + fails
    if epochPositions ≤ top then
      none_ { s with ras := { s.ras with epochTop := epochPositions } }.epochView
    else
      let v := s.ras.epochBurned + 1
      let s := { s with ras := { s.ras with epochTop := top + 1, epochBurned := v } }.epochView
      let s := (s.setFld R.SWX_ATT F.SWX_ATT_EPOCH (v - 1)).setFld R.SWX_ATT F.SWX_ATT_EPOCH_VALID 1
      (s.setFld R.SWX_ATT F.SWX_ATT_LEAF 0).bump R.SWX_TREES

/-! ### Attestations (R764, R766, R768) -/

/-- R764: the randomiser of leaf `q` of the tree with a SEED. -/
def lmsRandom (seed : List Byte) (q : Nat) : List Byte := (List.range 32).map (Config.lmsRandomByte (leNat seed) q)

/-- R768: the top tree's HSS public key. -/
def topPublic : List Byte := be 2 4 ++ lmsPublic topI topSeed 15

/-- R768: the HSS signature of a statement at leaf `q` of the lower tree of epoch `e`. -/
def attestSign (e q : Nat) (msg : List Byte) : List Byte :=
  let low := lmsPublic (lowI e) (lowSeed e) 10
  be 1 4 ++ lmsSign topI topSeed (lmsRandom topSeed e) 15 e low ++ low
    ++ lmsSign (lowI e) (lowSeed e) (lmsRandom (lowSeed e) q) 10 q msg

/-- R768: the statement formed at a rack time over a challenge. -/
def State.statement (s : State) (inst gen : Nat) (challenge : List Byte) : List Byte :=
  let fw := s.firmware
  [0x50, 0x4B, 0x41, 0x54, 0x01] ++ le s.tbState 1 ++ le (s.captain.getD 0) 1 ++ [0] ++ le s.now 8
    ++ (List.range 16).map Config.serialByte ++ sha256 (fw.take (fieldAt fw 16 4)) ++ challenge ++ le inst 2 ++ le gen 2
    ++ le (s.fld R.SWX_ATT F.SWX_ATT_EPOCH) 4 ++ topPublic ++ zeros 28

/-- R766: an attestation over a challenge, at a leaf taken before the signature is formed. -/
def State.attest (s : State) (inst gen : Nat) (challenge : List Byte) : List Byte × State :=
  let q := s.fld R.SWX_ATT F.SWX_ATT_LEAF
  let e := s.fld R.SWX_ATT F.SWX_ATT_EPOCH
  let s := (s.setFld R.SWX_ATT F.SWX_ATT_LEAF (q + 1)).bump R.SWX_ATTESTS
  let st := s.statement inst gen challenge
  (st ++ attestSign e q st, s)

/-! ### Messages and contexts (R737 to R749) -/

/-- A message, and a message changed. -/
def State.swxMsg (s : State) (k : Nat) : SwxMsg := Tab.at s.swx.msgs k
def State.setMsg (s : State) (k : Nat) (f : SwxMsg → SwxMsg) : State :=
  { s with swx := { s.swx with msgs := Tab.upd s.swx.msgs k f } }

/-- A context, and a context changed. -/
def State.swxCtx (s : State) (n : Nat) : SwxCtx := Tab.at s.swx.ctxs n
def State.setSwxCtx (s : State) (n : Nat) (x : SwxCtx) : State :=
  { s with swx := { s.swx with ctxs := Tab.put s.swx.ctxs n x } }

/-- The context that holds a message. -/
def State.ctxFor (s : State) (k : Nat) : Option Nat :=
  (List.range 8).find? fun n => (s.swxCtx n).st != 0 && (s.swxCtx n).msg == k

/-- R744: the message's context is LOADED with a block ready. -/
def SwxMsg.ready (m : SwxMsg) : Bool := m.taken && decide (64 ≤ m.buf.length + m.more.length)

/-- R731: the hash words a message begins with: for an HMAC, those after the inner key block. -/
def State.openWords (s : State) (m : SwxMsg) : List Nat :=
  if m.keyed then shaBlock shaInit (hmacPad ((s.swxSlot m.slot).key.getD []) 0x36) else shaInit

/-- R748: contexts without a message take the messages that wait for one, in the order they asked; a saved message is
imported. -/
def State.assignCtx (s : State) : State :=
  (List.range 8).foldl (fun s n =>
    if (s.swxCtx n).st ≠ 0 then s
    else
      let waiting := s.swx.msgs.filter fun e => e.2.waitSince.isSome
      match waiting.foldl (fun (best : Option (Nat × SwxMsg)) e =>
          match best with
          | some b => if e.2.order < b.2.order then some e else best
          | none => some e) none with
      | none => s
      | some (k, m) =>
        let s := s.setMsg k fun m => { m with waitSince := none }
        s.setSwxCtx n { st := if m.saved then 3 else 1, msg := k, served := s.swx.clock, blocks := 0 }) s

/-- R743: a message is discarded, its context freed. -/
def State.dropMsg (s : State) (k : Nat) : State :=
  let s := match s.ctxFor k with
    | some n => { s.setSwxCtx n {} with held := s.held.filter fun h => h.what != HeldFor.swx n }
    | none => s
  let swx : Swx := { s.swx with msgs := Tab.del s.swx.msgs k }
  { s with swx := swx }.assignCtx

/-- A message is discarded and its command completes with a status. -/
def State.dropWith (s : State) (k status : Nat) : State :=
  match (s.swxMsg k).cmd with
  | some key => (s.dropMsg k).finishCmd key status
  | none => s.dropMsg k

/-- R738, R742: the message's command ends; the message stays open. -/
def State.endDigest (s : State) (k : Nat) : State :=
  match (s.swxMsg k).cmd with
  | some key =>
    let n := (Tab.at s.cmds key).p 16 4
    (s.setMsg k fun m => { m with cmd := none, data := none, taken := false }).finishCmd key Status.ok 0 n
  | none => s

/-- R742: the finished hash is written to `OUT`, as it is or as an attestation, and the message closes. -/
def State.digestOut (s : State) (k : Nat) (hash : List Byte) : State :=
  let m := s.swxMsg k
  match m.cmd with
  | none => s
  | some key =>
    let c := Tab.at s.cmds key
    let r := if bitAt (c.p 1 1) 2 then s.attest c.inst c.gen hash else (hash, s)
    let s := r.2.dropMsg k
    (s.dataWrite key (c.p 32 8) r.1).awaitData key (c.p 16 4)

/-- R731, R737, R742: what follows when no whole block is left: the partial block is kept, or the padding, the outer pass
and the output come. -/
def State.afterBlocks (s : State) (k : Nat) : State :=
  let m := s.swxMsg k
  if m.ready || !m.taken then s
  else
    let finish := match m.cmd with | some key => bitAt ((Tab.at s.cmds key).p 1 1) 0 | none => false
    let total := m.absorbed + m.left + 64 * b2n m.keyed
    if !m.padded then
      if finish then
        s.setMsg k fun m => { m with padded := true, more := m.more ++ shaPad total }
      else (s.setMsg k fun m => { m with buf := m.buf ++ m.more, more := [], absorbed := m.absorbed + m.left, left := 0 }).endDigest k
    else
      let hash := m.words.flatMap fun w => be w 4
      if m.keyed && !m.outer then
        let x := s.swxSlot m.slot
        match x.key with
        | some v =>
          if x.loads ≠ m.loads then s.dropWith k Status.keySlotEmpty
          else s.setMsg k fun m => { m with outer := true, words := shaInit, more := hmacPad v 0x5C ++ hash ++ shaPad 96 }
        | none => s.dropWith k Status.keySlotEmpty
      else s.digestOut k hash

/-- R740 checks 6 and 7, R742: the message is loaded, and its command's data are taken into it. -/
def State.takeData (s : State) (k : Nat) : State :=
  let m := s.swxMsg k
  match m.cmd with
  | none => s
  | some key =>
    let c := Tab.at s.cmds key
    let t := c.p 24 8
    let declared := match m.declared with | some d => some d | none => if t = 0 then none else some t
    let spent := match declared with
      | some d => decide (d < m.absorbed + c.p 16 4 ∨ (t ≠ 0 ∧ t ≠ d) ∨ (bitAt (c.p 1 1) 0 = true ∧ m.absorbed + c.p 16 4 ≠ d))
      | none => false
    if spent then s.dropWith k Status.checkMismatch
    else match m.data with
    | none => (s.cplFail m.port).dropWith k Status.linkLost
    | some bs =>
      let s := s.setMsg k fun m =>
        { m with declared := declared, more := m.more ++ bs, left := bs.length, data := some [], taken := true }
      (s.afterBlocks k)

/-- R747, R749: the message's command needs it in a context: it is there, or it takes a free one, or it waits. -/
def State.wantCtx (s : State) (k : Nat) : State :=
  match s.ctxFor k with
  | some _ => s.takeData k
  | none =>
    let s := { s with swx := { s.swx with clock := s.swx.clock + 1 } }
    let s := (s.setMsg k fun m => { m with waitSince := some s.tb.mono, order := s.swx.clock }).assignCtx
    match s.ctxFor k with
    | some n => if (s.swxCtx n).st = 1 then s.takeData k else s
    | none => s

/-! ### DIGEST -/

/-- R735, R740 check 2: the slot serves the instance. -/
def State.slotServes (s : State) (slot inst : Nat) : Bool :=
  let x := s.swxSlot slot
  slot != 31 && x.key.isSome && (x.use == inst || x.use == 0x7FF)

/-- R738: `SAVE` of a `DIGEST`. -/
def Cmd.saveArea (c : Cmd) : Nat := if 48 ≤ c.prm.length then c.p 40 8 else 0

/-- R740 check 1, and the reserved values of R738: the residue of the offending field. -/
def digestField (c : Cmd) (m : Option SwxMsg) : Option Nat :=
  let flags := c.p 1 1
  let keyed := bitAt flags 1
  if keyed && decide (32 ≤ c.p 0 1) then some (c.fieldResidue 0)
  else if 8 ≤ flags then some (c.fieldResidue 1 3)
  else if bitAt flags 2 && !bitAt flags 0 then some (c.fieldResidue 1 2)
  else if 16777216 < c.p 16 4 then some (c.fieldResidue 16)
  else if c.saveArea % 64 ≠ 0 then some (c.fieldResidue 40)
  else if bitAt flags 0 && c.p 32 8 == 0 then some (c.fieldResidue 32)
  else match m with
    | some m => if m.keyed != keyed then some (c.fieldResidue 1 1)
                else if keyed && m.slot != c.p 0 1 then some (c.fieldResidue 0) else none
    | none => none

/-- R740, R747: the checks of a `DIGEST` in order, then its message opens or goes on; `bytes` is what the reads of `ADDR`
returned, `fails` the fuse positions that fail when a new epoch is opened (R767). -/
def digest (key : Nat) (bytes : Option (List Byte)) (fails : Nat) (c : Cmd) (s : State) : State :=
  let k := 65536 * c.inst + c.p 2 2
  let m := Tab.get s.swx.msgs k
  let keyed := bitAt (c.p 1 1) 1
  let attest := bitAt (c.p 1 1) 2
  let slot := c.p 0 1
  let mine := (s.swx.msgs.filter fun e => e.1 / 65536 == c.inst).length
  let busy := m.isNone && (decide (4096 ≤ s.swx.msgs.length) || decide (64 ≤ mine))
  let free := (List.range 8).any fun n => (s.swxCtx n).st == 0
  let save := match m with | some m => m.save | none => c.saveArea
  let stuck := save == 0 && !free && (s.ctxFor k).isNone
  if s.swx.dead then s.completeCmd key Status.repairExhausted
  else match digestField c m with
  | some r => s.completeCmd key Status.invalidField r
  | none =>
    if keyed && !s.slotServes slot c.inst then s.completeCmd key Status.keySlotEmpty
    else if attest && !s.bit R.SWX_ATT F.SWX_ATT_EPOCH_VALID
        || attest && s.fld R.SWX_ATT F.SWX_ATT_LEAF == 1024 && !s.epochLeft then
      (s.raise R.SWX_ERR F.SWX_ERR_EXHAUSTED).completeCmd key Status.repairExhausted
    else if busy then s.completeCmd key Status.busy
    else if stuck then (s.bump R.SWX_BUSY).completeCmd key Status.busy
    else
      let s := if attest && s.fld R.SWX_ATT F.SWX_ATT_LEAF == 1024 then s.openEpoch fails else s
      if attest && !s.bit R.SWX_ATT F.SWX_ATT_EPOCH_VALID then s.completeCmd key Status.repairExhausted
      else
        let s := s.beginCmd key
        let s := match m with
          | some _ => s
          | none =>
            let m : SwxMsg := { gen := c.gen, keyed := keyed, slot := slot, save := c.saveArea,
                                port := (Tab.at s.queues c.g).port, loads := (s.swxSlot slot).loads }
            let m : SwxMsg := { m with words := s.openWords m }
            let s := s.bump R.SWX_BLOCKS (b2n keyed)
            { s with swx := { s.swx with msgs := Tab.put s.swx.msgs k m } }
        (s.setMsg k fun m => { m with cmd := some key, data := bytes, taken := false }).wantCtx k

/-- DIGEST (R735, R737 to R742, R747, R748, R753, R763 to R768). -/
def execDigest (key : Nat) (bytes : Option (List Byte)) (fails : Nat) (s : State) : Host.Outcome State Fault Refusal :=
  match s.cmdDue key 0x50 with
  | some c =>
    .next (whenDue (!c.started && (match bytes with | some b => b.length == c.p 16 4 | none => c.p 16 4 != 0)) s
      (digest key bytes fails c s))
  | none => .next s

/-! ### Blocks (R744, R754) -/

/-- R744: the context whose turn it is: the next in round-robin order with a block ready. -/
def State.swxNext (s : State) : Option Nat :=
  ((List.range 8).map fun i => (s.swx.turn + 1 + i) % 8).find? fun n =>
    (s.swxCtx n).st == 1 && (s.swxMsg (s.swxCtx n).msg).ready

/-- R744: one block of context `n` is absorbed. -/
def State.absorbBlock (s : State) (n : Nat) : State :=
  let x := s.swxCtx n
  let k := x.msg
  let m := s.swxMsg k
  let take := 64 - m.buf.length
  let head := m.buf ++ m.more.take take
  let data := min m.left take
  let s := s.setMsg k fun m =>
    { m with words := shaBlock m.words head, buf := [], more := m.more.drop take,
             absorbed := m.absorbed + data, left := m.left - data }
  let s := { s with swx := { s.swx with turn := n, clock := s.swx.clock + 1 } }
  let s := (s.setSwxCtx n { x with served := s.swx.clock, blocks := x.blocks + 1 }).bump R.SWX_BLOCKS
  s.afterBlocks k

/-- R754: both computations of a block have disagreed twice. -/
def State.swxDisagree (s : State) : State :=
  if s.bit R.SWX_STAT F.SWX_STAT_ACTIVE then
    let s := (s.raise R.SWX_ERR F.SWX_ERR_EXHAUSTED).noSpare 9 0
    let s := { s with swx := { s.swx with dead := true } }
    s.swx.msgs.foldl (fun s e => if e.2.cmd.isSome then s.dropWith e.1 Status.repairExhausted else s) s
  else
    ((s.setFld R.SWX_STAT F.SWX_STAT_ACTIVE 1).raise R.SWX_ERR F.SWX_ERR_DPATH).repairMade 9 0 0 0 1

/-- SWX_BLOCK (R731, R744, R754): the next block; `upset` 1: it disagrees twice on the serving instance; 2, 3: an
uncorrectable upset in the context, or in the slot its message names (`SWX_ERR.STATE_UE`). -/
def execSwxBlock (upset : Nat) (s : State) : Host.Outcome State Fault Refusal :=
  match s.swxNext with
  | some n =>
    let k := (s.swxCtx n).msg
    .next (whenDue (s.live && s.bit R.SWX_CTL F.SWX_CTL_EN && !s.swx.dead) s
      (if upset = 2 then (s.raise R.SWX_ERR F.SWX_ERR_STATE_UE).dropWith k Status.uncorrectable
       else
         let s := if upset = 3 then
             let x := s.swxSlot (s.swxMsg k).slot
             (s.raise R.SWX_ERR F.SWX_ERR_STATE_UE).setSwxSlot (s.swxMsg k).slot { x with key := none, use := 0 }
           else s
         let s := if upset = 1 then s.swxDisagree else s
         if s.swx.dead then s else s.absorbBlock n))
  | none => .next s

/-! ### Export and import (R745, R746, R748 to R752) -/

/-- R751: the plaintext of a message's state. -/
def SwxMsg.plain (m : SwxMsg) : List Byte :=
  (m.words.flatMap fun w => le w 4) ++ padTo m.buf 64 ++ le m.buf.length 1
    ++ le (b2n m.keyed + 2 * b2n m.declared.isSome) 1 ++ le (if m.keyed then m.slot else 0) 1 ++ [0] ++ le m.loads 4
    ++ le m.absorbed 8 ++ le (m.declared.getD 0) 8 ++ zeros 72

/-- R750, R751: the state blob of message `k`. -/
def State.stateBlob (s : State) (k : Nat) : List Byte :=
  let m := s.swxMsg k
  let e := s.fld R.SWX_ATT F.SWX_ATT_EPOCH
  let hd := [0x50, 0x4B, 0x57, 0x42, 0x01, 0x01] ++ zeros 2 ++ le (k / 65536) 2 ++ le m.gen 2 ++ le (k % 65536) 2 ++ zeros 2
    ++ le e 4 ++ zeros 4
  let iv := le s.swx.exports 8 ++ zeros 4
  let ks := aesKeys (wrapKey e)
  let ct := gcmStream ks iv m.plain
  hd ++ iv ++ zeros 4 ++ ct ++ gcmTag ks iv hd ct ++ zeros 8

/-- R745: context `n` is exportable. -/
def State.exportable (s : State) (n : Nat) : Bool :=
  let x := s.swxCtx n
  let m := s.swxMsg x.msg
  x.st == 1 && m.save != 0 && !m.outer && (!m.ready || decide (256 ≤ x.blocks))

/-- R746: the exportable context that was served least recently. -/
def State.exportChoice (s : State) : Option Nat :=
  ((List.range 8).filter s.exportable).foldl (fun best n =>
    match best with
    | some b => if (s.swxCtx n).served < (s.swxCtx b).served then some n else best
    | none => some n) none

/-- R746: a context's message is wrapped and its blob written to its save area. -/
def swxExport (n : Nat) (s : State) : State :=
  let x := s.swxCtx n
  let m := s.swxMsg x.msg
  let blob := s.stateBlob x.msg
  let s := s.setSwxCtx n { x with st := 2 }
  let s := { s with swx := { s.swx with exports := s.swx.exports + 1 } }.bump R.SWX_EXPORTS
  s.hostWrite m.port m.save blob (.swx n) (x.msg / 65536) m.gen

/-- SWX_EXPORT (R745, R746, R748, R751): a message waits while every context holds another. -/
def execSwxExport (s : State) : Host.Outcome State Fault Refusal :=
  match s.exportChoice with
  | some n =>
    .next (whenDue (s.live && (s.swx.msgs.any fun e => e.2.waitSince.isSome)
      && (List.range 8).all (fun n => (s.swxCtx n).st != 0) && (List.range 8).all fun n => (s.swxCtx n).st != 2) s
      (swxExport n s))
  | none => .next s

/-- R748: the write of context `n`'s blob is confirmed: its message is saved. -/
def State.swxSaved (s : State) (h : Held) (n : Nat) : State :=
  let k := (s.swxCtx n).msg
  let s := { s with held := s.held.erase h }
  let s := s.setMsg k fun m =>
    { m with saved := true, words := [], buf := [], waitSince := if m.cmd.isSome then some s.tb.mono else none }
  (s.setSwxCtx n {}).assignCtx

/-- R748: the write of context `n`'s blob has failed: its message is discarded. -/
def State.swxLost (s : State) (n : Nat) : State :=
  let k := (s.swxCtx n).msg
  let s := { s with held := s.held.filter fun h => h.what != HeldFor.swx n }
  s.dropWith k Status.linkLost

/-- R749, R752: the message that a state blob brings back. -/
def State.openStateBlob (s : State) (k : Nat) (blob : List Byte) : Option SwxMsg :=
  let m := s.swxMsg k
  let e := s.fld R.SWX_ATT F.SWX_ATT_EPOCH
  match unwrapBlob (wrapKey e) blob with
  | none => none
  | some p =>
    let n := fieldAt p 96 1
    if fieldAt blob 5 1 = 1 ∧ fieldAt blob 8 2 = k / 65536 ∧ fieldAt blob 10 2 = m.gen ∧ fieldAt blob 12 2 = k % 65536
        ∧ fieldAt blob 16 4 = e ∧ fieldAt blob 32 4 = 0 ∧ n ≤ 63 ∧ fieldAt p 97 1 < 4 ∧ fieldAt p 99 1 = 0 ∧ fieldAt p 120 72 = 0 then
      some { m with
        keyed := bitAt (fieldAt p 97 1) 0, slot := fieldAt p 98 1, loads := fieldAt p 100 4,
        words := (List.range 8).map fun i => fieldAt p (4 * i) 4, buf := slice p 32 n, absorbed := fieldAt p 104 8,
        declared := if bitAt (fieldAt p 97 1) 1 then some (fieldAt p 112 8) else none, saved := false }
    else none

/-- R737, R748, R749: the blob of context `n`'s message arrives; none when its read failed. -/
def swxImport (n : Nat) (blob : Option (List Byte)) (s : State) : State :=
  let k := (s.swxCtx n).msg
  match blob with
  | none => (s.cplFail (s.swxMsg k).port).dropWith k Status.linkLost
  | some b =>
    match s.openStateBlob k b with
    | none => s.wrapFails.dropWith k Status.wrapInvalid
    | some m =>
      if m.keyed && (s.swxSlot m.slot).loads != m.loads then s.dropWith k Status.keySlotEmpty
      else
        let s := (s.setMsg k fun _ => m).setSwxCtx n { s.swxCtx n with st := 1, blocks := 0 }
        let s := s.bump R.SWX_IMPORTS
        if m.taken then s.afterBlocks k else s.takeData k

/-- SWX_IMPORT (R748, R749, R752): context `n`. -/
def execSwxImport (n : Nat) (blob : Option (List Byte)) (s : State) : Host.Outcome State Fault Refusal :=
  .next (whenDue (s.live && (s.swxCtx n).st == 3) s (swxImport n blob s))

/-- R747: a message has waited 2,000 ms for a context; one that is saved stays so, another never opened. -/
def swxWaitTimeout (k : Nat) (s : State) : State :=
  let m := s.swxMsg k
  let s := s.bump R.SWX_BUSY
  match m.cmd with
  | none => s.setMsg k fun m => { m with waitSince := none }
  | some key =>
    let s := if m.saved then s.setMsg k fun m => { m with waitSince := none, cmd := none, data := none, taken := false, more := [], left := 0 }
      else { s with swx := { s.swx with msgs := Tab.del s.swx.msgs k } }
    s.finishCmd key Status.busy

/-- SWX_WAIT_TIMEOUT (R747): the message numbered `ctx` of an instance. -/
def execSwxWaitTimeout (inst ctx : Nat) (s : State) : Host.Outcome State Fault Refusal :=
  let k := 65536 * inst + ctx
  match (s.swxMsg k).waitSince with
  | some t => .next (whenDue (s.live && decide (t + 2000000000 ≤ s.tb.mono)) s (swxWaitTimeout k s))
  | none => .next s

/-- R743: every message of an instance is discarded. -/
def State.dropMessages (s : State) (inst : Nat) : State :=
  (s.swx.msgs.filter fun e => e.1 / 65536 == inst).foldl (fun s e => s.dropMsg e.1) s

/-! ### Registers -/

/-- `SWX_STAT`: contexts not FREE and open messages; `OPENING` reads 0, as a tree is built at once. -/
def State.swxStat (s : State) : Nat :=
  s.fld R.SWX_STAT F.SWX_STAT_ACTIVE + 2 * total ((List.range 8).map fun n => if (s.swxCtx n).st = 0 then 0 else 2 ^ n)
    + 1024 * s.swx.msgs.length

/-- `SWX_CTXn`. -/
def State.swxCtxView (s : State) (n : Nat) : Nat :=
  let x := s.swxCtx n
  let m := s.swxMsg x.msg
  if x.st = 0 then 0
  else x.st + 4 * (x.msg / 65536) + 65536 * (x.msg % 65536) + m.gen * 2 ^ 32 + b2n m.keyed * 2 ^ 48
    + b2n (m.save != 0) * 2 ^ 49

end Sys2Proof.Machine
end

