-- ==== Sys2Proof/Machine/Entries.lean ====
section
/-! DEFINITION. Doorbells and entries: what a doorbell does, the checks of an entry, chains, and the parameters of each
opcode (R527 to R535, R540 to R548, R559, R560, R641, R642; 12_queues_commands.md). -/
namespace Sys2Proof.Machine

/-! ### Parameters (R559, R560, R562) -/

/-- A parameter of an opcode: its place in the stream, and the bit of the first offence of a value, if it offends. -/
structure Param where
  off : Nat
  n : Nat
  bad : Nat → Option Nat

/-- The lowest set bit of `v` from bit `m` on. -/
def firstBit (v m : Nat) : Option Nat := (List.range 64).find? fun i => m ≤ i && bitAt v i

/-- A parameter of any value. -/
def pAny (off n : Nat) : Param := ⟨off, n, fun _ => none⟩

/-- A parameter from `lo` to `hi`. -/
def pRange (off n lo hi : Nat) : Param := ⟨off, n, fun v => if lo ≤ v ∧ v ≤ hi then none else some 0⟩

/-- A parameter that is a multiple of `k`. -/
def pMult (off n k : Nat) : Param := ⟨off, n, fun v => if v % k = 0 then none else some 0⟩

/-- A parameter whose bits from `m` on are reserved. -/
def pBits (off n m : Nat) : Param := ⟨off, n, fun v => firstBit v m⟩

/-- A reserved byte. -/
def pZero (off : Nat) : Param := pBits off 1 0

/-- R560: the parameters of `QUERY_RUN`. -/
def runParams (prm : List Byte) : List Param :=
  let scans := min (fieldAt prm 7 1) 16
  let regions := min (fieldAt prm 8 1) 16
  [pAny 0 2, pRange 2 2 0 511, pRange 4 1 0 1, pRange 5 1 2 64, pRange 6 1 0 1, pRange 7 1 0 16, pRange 8 1 0 16, pZero 9,
   pRange 10 2 0 2016, pRange 12 4 0 3600000, pAny 16 8, pAny 24 8] ++ (List.range 8).map (fun i => pZero (32 + i))
    ++ (List.range scans).flatMap (fun j =>
      [pAny (40 + 16 * j) 4] ++ (List.range 4).map (fun i => pZero (44 + 16 * j + i)) ++ [pAny (48 + 16 * j) 8])
    ++ (List.range regions).map (fun j => pAny (296 + 4 * j) 4)
    ++ [pAny 359 1] ++ (if fieldAt prm 10 2 = 0 then [] else [pAny 360 (fieldAt prm 10 2)])

/-- R559: the parameters of an opcode, in stream order; unlisted bytes up to the last one are reserved. -/
def opParams (op : Nat) (prm : List Byte) : List Param :=
  match op with
  | 0x01 => [pMult 0 8 64]
  | 0x02 => [pRange 0 2 1 511, pRange 2 1 1 3, pBits 3 1 3, pRange 4 1 4 16, pRange 5 1 0 5, pAny 6 2, pMult 8 8 4096,
      pMult 16 8 8]
  | 0x03 => [pRange 0 2 0 511]
  | 0x04 => [pRange 0 2 0 511, pBits 2 1 1]
  | 0x05 => [pRange 0 2 0 511]
  | 0x06 => [pRange 0 1 1 8, ⟨4, 4, fun v => if fieldAt prm 0 1 = 1 ∧ v ≠ 0 then firstBit v 0 else none⟩, pMult 8 8 64,
      ⟨16, 4, fun v => if v = 0 ∨ v % 64 ≠ 0 ∨ 16777216 < v then some 0 else none⟩]
  | 0x07 =>
    let f := fieldAt prm 0 2
    [pRange 0 2 1 2, pRange 2 2 0 511,
     ⟨8, 8, fun v => if f = 1 then (if v % 256 = 0 then some 0 else firstBit v 32)
        else if f = 2 then firstBit v 1 else none⟩]
  | 0x08 => [pRange 0 1 1 3, pAny 8 8, pAny 16 4, pAny 24 8]
  | 0x10 => [pRange 0 2 1 1024, pRange 2 1 1 2, pAny 4 2, pAny 6 2, pMult 8 8 65536, pAny 16 2, pRange 18 1 4 16,
      pRange 19 1 0 5, pMult 20 8 4096,
      ⟨28, 8, fun v => if v % 8 ≠ 0 ∨ (v = 0 ∧ fieldAt prm 38 1 % 2 = 1) then some 0 else none⟩, pAny 36 2, pBits 38 1 2]
  | 0x11 => [pRange 0 2 1 1024, pAny 4 2, pAny 6 2, pMult 8 8 65536, pAny 16 2]
  | 0x12 => [pRange 0 2 1 1024, pBits 2 1 1]
  | 0x13 => [pRange 0 2 1 1024]
  | 0x14 => [pRange 0 2 1 1024]
  | 0x18 => [pAny 0 8, pRange 8 4 1 1048576, pBits 12 1 1]
  | 0x19 => [pBits 0 1 1]
  | 0x1A => [pRange 0 1 0 31, pAny 8 8, pAny 16 4]
  | 0x1C => [pAny 0 1, pAny 2 2, pAny 4 4]
  | 0x1E => [pAny 0 8]
  | 0x40 => [pAny 0 4, pAny 8 8, pRange 16 4 1 16777216, pAny 24 8]
  | 0x41 => [pAny 0 4, pAny 8 8, pRange 16 4 1 1073741824, pAny 24 8]
  | 0x42 => [pAny 0 4, pAny 4 4, pAny 8 8, pAny 16 8, pRange 24 8 1 (2 ^ 38)]
  | 0x43 => [⟨8, 8, fun v => if 65536 ≤ v ∧ v ≤ 302795194368 ∧ v % 65536 = 0 then none else some 0⟩]
  | 0x44 => [pAny 0 4]
  | 0x48 => [pAny 0 4, pAny 8 8]
  | 0x49 => [pAny 0 2]
  | 0x4A => runParams prm
  | 0x4B => [pRange 0 2 0 511, pAny 2 2]
  | 0x4C => [pRange 0 2 0 511, pAny 2 2, pAny 8 8]
  | 0x50 => [pAny 0 1, pAny 1 1, pAny 2 2, pAny 8 8, pAny 16 4, pAny 24 8, pAny 32 8]
  | 0x58 => [pBits 0 1 1]
  | _ => []

/-- R559: the opcode is defined. -/
def opDefined (op : Nat) : Bool :=
  [0x01, 0x02, 0x03, 0x04, 0x05, 0x06, 0x07, 0x08, 0x10, 0x11, 0x12, 0x13, 0x14, 0x18, 0x19, 0x1A, 0x1C, 0x1E, 0x40, 0x41,
   0x42, 0x43, 0x44, 0x48, 0x49, 0x4A, 0x4B, 0x4C, 0x50, 0x58, 0x5F].contains op

/-- The named parameters with the reserved bytes between them. -/
def withGaps (ps : List Param) : List Param :=
  (ps.foldl (fun (st : Nat × List Param) p =>
    (p.off + p.n, st.2 ++ ((List.range p.off).filter (st.1 ≤ ·)).map pZero ++ [p])) (0, [])).2

/-- R546 check 6 on the parameters: the first that offends, as stream offset and bit. Those beyond the stream's end are
not judged. -/
def paramOffence (op : Nat) (prm : List Byte) : Option (Nat × Nat) :=
  (withGaps (opParams op prm)).findSome? fun p =>
    if p.off + p.n ≤ prm.length then
      match p.bad (fieldAt prm p.off p.n) with
      | some b => some (p.off + b / 8, b % 8)
      | none => none
    else none

/-- R546 check 7: a parameter ends beyond the stream. -/
def paramMissing (op : Nat) (prm : List Byte) : Bool := (opParams op prm).any fun p => decide (prm.length < p.off + p.n)

/-- R546 checks 4 to 7 of a command of queue `g`: its status and residue; `hdr` is an offence of the header. -/
def commandCheck (g : Nat) (c : Cmd) (hdr : Option Nat) : Option (Nat × Nat) :=
  if !opDefined c.opcode || (decide (0x10 ≤ c.opcode ∧ c.opcode ≤ 0x1E) && g != 0) then some (Status.invalidOpcode, 0)
  else if c.opcode ≤ 8 ∧ 1024 < g then some (Status.invalidQueue, 0)
  else match hdr with
    | some r => some (Status.invalidField, r)
    | none => match paramOffence c.opcode c.prm with
      | some (n, b) => some (Status.invalidField, c.fieldResidue n b)
      | none => if paramMissing c.opcode c.prm then some (Status.invalidLength, 0) else none

/-! ### Doorbells -/

/-- R535: a doorbell's advance is refused: past N for a tail, past the tail for a head. -/
def doorbellOver (q : Queue) (idx : Nat) : Bool :=
  if q.submits then decide (q.n < occupancy q.n q.head q.tail + occupancy q.n q.tail idx)
  else decide (occupancy q.n q.head q.tail < occupancy q.n q.head idx)

/-- R533 to R535: a doorbell takes effect; `gen` is the generation a `DBELL` carries. -/
def State.ring (s : State) (inst loc idx : Nat) (gen : Option Nat) : State :=
  let bad := s.bump R.QM_BAD_DB
  match s.globalOf inst loc with
  | none => bad
  | some g =>
    let q := Tab.at s.queues g
    let stale : Bool := match gen with | some x => x != s.genOf inst || x == 0 | none => false
    if q.st == .overrun || decide (131072 ≤ idx) || decide (q.n ≤ idx % 65536) || stale then bad
    else if doorbellOver q idx then s.overrun g 1
    else
      let q := if q.submits then { q with tail := idx }
        else { q with head := idx, passed := q.passed + occupancy q.n q.head idx }
      { s with queues := Tab.put s.queues g q }.bump R.QM_DOORBELLS

/-- R541, R642: a pushed entry takes effect on its queue's tail. -/
def State.pushEntry (s : State) (inst loc idx units : Nat) : State :=
  match s.globalOf inst loc with
  | none => s.bump R.QM_BAD_DB
  | some g =>
    let q := Tab.at s.queues g
    if q.st == .overrun || !q.push || !q.submits then s.bump R.QM_BAD_DB
    else if idx ≠ q.tail then s.overrun g 2
    else if q.n < occupancy q.n q.head q.tail + units then s.overrun g 1
    else { s with queues := Tab.put s.queues g { q with tail := advance q.n q.tail units } }.bump R.QM_DOORBELLS

/-- R714: what a doorbell does once the acceptor takes it. -/
def State.applyDoorbell (s : State) (d : Doorbell) : State :=
  if d.kind = 0 then s.ring d.inst d.loc d.idx none
  else if d.kind = 1 then s.ring d.inst d.loc d.idx (some d.gen)
  else if !s.fresh d.inst d.gen then s.bump (R.MLK_STALE_IN d.port)
  else s.pushEntry d.inst d.loc d.idx d.units

/-- R714: the doorbell acceptor: applied, or latched while the stages hold, up to 4,096 for a port. -/
def State.takeDoorbell (s : State) (d : Doorbell) : State :=
  if s.crank.gap || s.crank.halted then
    if 4096 ≤ (s.crank.latched.filter (·.port == d.port)).length then s
    else { s with crank := { s.crank with latched := s.crank.latched ++ [d] } }.bump R.CRK_LATCHED
  else s.applyDoorbell d

/-- R822: queues exist from boot stage `LINKS` on; doorbells are taken while the domains run. -/
def State.doorOpen (s : State) : Bool := s.live

/-- TAIL_DOORBELL (R533 to R535, R564, R714): a write to a doorbell page. -/
def execTailDoorbell (inst loc idx : Nat) (s : State) : Host.Outcome State Fault Refusal :=
  .next (whenDue (s.doorOpen && decide (inst ≤ 1024 ∧ loc < 512)) s
    (s.takeDoorbell { kind := 0, port := 6, inst := inst, loc := loc, idx := idx % 2 ^ 32 }))

/-- DBELL (R534, R535, R641, R714). -/
def execDbell (port inst gen loc idx : Nat) (s : State) : Host.Outcome State Fault Refusal :=
  .next (whenDue (s.doorOpen && s.hostUp port) s
    (s.takeDoorbell { kind := 1, port := port, inst := inst % 2048, gen := gen, loc := loc, idx := idx % 2 ^ 32 }))

/-- CMDP (R541, R564, R642, R714). -/
def execCmdp (port inst gen loc idx units : Nat) (s : State) : Host.Outcome State Fault Refusal :=
  .next (whenDue (s.doorOpen && s.hostUp port && decide (1 ≤ units ∧ units ≤ 63)) s
    (s.takeDoorbell { kind := 2, port := port, inst := inst % 2048, gen := gen, loc := loc, idx := idx % 2 ^ 32,
                      units := units }))

/-! ### Accepting entries -/

/-- R542: an entry as its first slot gives it. -/
structure Entry where
  opcode : Nat
  flags : Nat
  units : Nat
  res3 : Nat
  tag : Nat
  gen : Nat
  /-- R544: its part of the parameter stream. -/
  prm : List Byte

/-- R542, R544: an entry read from its slots. -/
def readEntry (bs : List Byte) : Entry :=
  { opcode := fieldAt bs 0 1, flags := fieldAt bs 1 1, units := fieldAt bs 2 1, res3 := fieldAt bs 3 1,
    tag := fieldAt bs 4 2, gen := fieldAt bs 6 2, prm := slice bs 8 40 ++ slice bs 64 (64 * (fieldAt bs 2 1 - 1)) }

/-- R546 check 1 on an entry at position `pos` of a ring of `n` slots. -/
def entryLengthBad (n pos units : Nat) : Bool := decide (units = 0 ∨ 64 < units ∨ n < pos + units)

/-- R529: slots of a ring that the tail covers and the device has not accepted. -/
def Queue.unread (q : Queue) : Nat := occupancy q.n q.fetch q.tail

/-- R597: the journal source of a queue's commands. -/
def sourceOf (inst : Nat) : Nat := if inst = 0 then 1 else 0

/-- Slots a command occupies. -/
def Cmd.slots (c : Cmd) : Nat := (c.ents.map (·.2)).foldl (· + ·) 0

/-- An entry is accepted as a command of its own, open or whole. -/
def State.acceptNew (s : State) (g : Nat) (e : Entry) (units : Nat) (isOpen : Bool) : Nat × State :=
  let q := Tab.at s.queues g
  let key := g * 65536 + q.fetch % 65536
  let c : Cmd := { g := g, ents := [(q.fetch % 65536, units)], opcode := e.opcode, flags := e.flags, tag := e.tag,
                   gen := s.genOf q.inst, inst := q.inst, source := sourceOf q.inst, seq := s.cmdSeq, prm := e.prm,
                   isOpen := isOpen }
  (key, { s with cmds := Tab.put s.cmds key c, cmdSeq := s.cmdSeq + 1,
                 queues := Tab.put s.queues g { q with fetch := advance q.n q.fetch units } }.bump R.QM_ACCEPTED)

/-- An entry joins the open chain of its queue. -/
def State.acceptMore (s : State) (g key : Nat) (e : Entry) (units : Nat) (isOpen : Bool) : State :=
  let q := Tab.at s.queues g
  { s with cmds := Tab.upd s.cmds key fun c =>
             { c with ents := c.ents ++ [(q.fetch % 65536, units)], prm := c.prm ++ e.prm, isOpen := isOpen },
           queues := Tab.put s.queues g { q with fetch := advance q.n q.fetch units } }.bump R.QM_ACCEPTED

/-- The open chain of a queue set. -/
def State.setChain (s : State) (g : Nat) (k : Option Nat) : State :=
  { s with queues := Tab.upd s.queues g fun q => { q with chain := k } }

/-- The open chain of a queue, if any, completes with `CHAIN_BROKEN` (R547). -/
def State.breakChain (s : State) (g : Nat) : State :=
  match (Tab.at s.queues g).chain with
  | some k => ((s.editCmd k fun c => { c with isOpen := false }).finishCmd k Status.chainBroken).setChain g none
  | none => s

/-- R546 check 6 on an entry's header: the residue of its first reserved bit, `base` bytes into the command. -/
def headerOffence (e : Entry) (base : Nat) : Option Nat :=
  match firstBit e.flags 5 with
  | some b => some ((base + 1) * 8 + b)
  | none => match firstBit e.res3 0 with
    | some b => some ((base + 3) * 8 + b)
    | none => none

/-- R566, R567: what a command notes as it is accepted: for a drain or a flush, the slots its target's tail stands at. -/
def State.noteAt (s : State) (c : Cmd) : Nat :=
  if c.opcode = 4 ∨ c.opcode = 5 then
    match s.globalOf c.inst (c.p 0 2) with
    | some t =>
      let q := Tab.at s.queues t
      q.passed + occupancy q.n q.head q.tail
    | none => 0
  else 0

/-- How many slots of its queue's life the first entry of a command lies behind its start (R566). -/
def State.entryAt (s : State) (c : Cmd) : Nat :=
  let q := Tab.at s.queues c.g
  q.passed + ((c.ents.headD (0, 0)).1 + q.n - q.head % 65536) % q.n

/-- R546 checks 3 to 7 of a whole command; one that passes waits to start. An entry that a change of firmware overtook
completes with `FW_CHANGED` (R729). -/
def State.judge (s : State) (key entGen : Nat) (hdr : Option Nat) : State :=
  let c := Tab.at s.cmds key
  if s.entryAt c < (Tab.at s.queues c.g).fwMark then s.finishCmd key Status.fwChanged
  else if entGen ≠ s.genOf c.inst then s.finishCmd key Status.staleGeneration
  else match commandCheck c.g c hdr with
    | some (st, r) => s.finishCmd key st r
    | none => s.editCmd key fun c => { c with note := s.noteAt c }

/-- R544 to R548: the next entry of a queue is accepted. The header offence of an open chain's entries is kept in
`done` of the command until the chain is whole, plus 1. -/
def acceptEntry (g : Nat) (bs : List Byte) (s : State) : State :=
  let q := Tab.at s.queues g
  let pos := q.fetch % 65536
  let e := readEntry bs
  if entryLengthBad q.n pos e.units then
    let s := s.breakChain g
    let r := s.acceptNew g e 1 false
    r.2.finishCmd r.1 Status.invalidLength
  else
    let first := bitAt e.flags 0
    let last := bitAt e.flags 1
    if first then
      let s := s.breakChain g
      let r := s.acceptNew g e e.units (!last)
      let hdr := headerOffence e 0
      if last then r.2.judge r.1 e.gen hdr
      else
        let s := r.2.editCmd r.1 fun c => { c with done := match hdr with | some x => x + 1 | none => 0, phase := e.gen }
        s.setChain g (some r.1)
    else match q.chain with
      | none =>
        let r := s.acceptNew g e e.units false
        r.2.finishCmd r.1 Status.chainBroken
      | some k =>
        let c := Tab.at s.cmds k
        if 16 ≤ c.ents.length then
          let s := s.breakChain g
          let r := s.acceptNew g e e.units false
          r.2.finishCmd r.1 Status.chainBroken
        else if e.opcode ≠ c.opcode ∨ e.tag ≠ c.tag ∨ e.gen ≠ c.phase ∨ bitsOf e.flags 2 3 ≠ 0 then
          (s.acceptMore g k e e.units true).breakChain g
        else
          let hdr := match c.done with
            | 0 => headerOffence e (64 * c.slots)
            | x + 1 => some x
          let s := s.acceptMore g k e e.units (!last)
          if last then
            let s := (s.setChain g none).editCmd k fun c => { c with done := 0, phase := 0 }
            s.judge k e.gen hdr
          else s.editCmd k fun c => { c with done := match hdr with | some x => x + 1 | none => 0 }

/-- R540, R564, R853: entries of the queue may be read. -/
def State.fetching (s : State) (g : Nat) : Bool :=
  let q := Tab.at s.queues g
  s.serving && !s.crank.gap && q.st == .enabled && q.submits && s.bit R.QM_CTL F.QM_CTL_EN && s.hostUp q.port

/-- ENTRY_FETCH (R540, R544 to R549, R564): `bytes` are the ring slots from the next one on. The tail must cover the whole
entry; an entry whose length check fails needs one slot. -/
def execEntryFetch (g : Nat) (bytes : List Byte) (s : State) : Host.Outcome State Fault Refusal :=
  let q := Tab.at s.queues g
  let units := fieldAt bytes 2 1
  let need := if entryLengthBad q.n (q.fetch % 65536) units then 1 else units
  .next (whenDue (s.fetching g && decide (need ≤ q.unread ∧ 64 * need ≤ bytes.length)) s
    (acceptEntry g (bytes.take (64 * need)) s))

end Sys2Proof.Machine
end

