-- ==== Sys2Proof/Machine/Hbm.lean ====
section
/-! DEFINITION. The HBM stacks: refresh, temperature, the patrol, retraining, frame retirement and the training helpers
(R660 to R677, R703; 15_memory_chain_sconce.md). -/
namespace Sys2Proof.Machine

/-- A stack. -/
def State.stack (s : State) (st : Nat) : Hbm := Tab.at s.hbm st

/-- A stack changed. -/
def State.setStack (s : State) (st : Nat) (f : Hbm → Hbm) : State := { s with hbm := Tab.edit s.hbm st f }

/-- The stack is READY (R669). -/
def State.hbmReady (s : State) (st : Nat) : Bool := s.fld (R.HBM_STAT st) F.HBM_STAT_STATE == 2

/-- R665: the refresh interval in force. -/
def State.refreshEvery (s : State) (st : Nat) : Nat :=
  let i := s.fld (R.HBM_CFG st) F.HBM_CFG_TREFI
  if s.bit (R.HBM_STAT st) F.HBM_STAT_HOT then i / 2 else i

/-- R665: channel `u` is unavailable for a refresh. -/
def State.refreshing (s : State) (st u : Nat) : Bool :=
  match Tab.get (s.stack st).refreshed u with
  | some t => decide (s.tb.mono < t + s.fld (R.HBM_CFG st) F.HBM_CFG_TRFC)
  | none => false

/-- R665: when the next refresh of channel `u` is due; the channels stagger by one sixteenth of the interval. -/
def State.refreshDue (s : State) (st u : Nat) : Nat :=
  match Tab.get (s.stack st).refreshed u with
  | some t => t + s.refreshEvery st
  | none => u * s.refreshEvery st / 16

/-- REFRESH (R665): channel `u` of a stack receives an all-bank refresh. -/
def execRefresh (st u : Nat) (s : State) : Host.Outcome State Fault Refusal :=
  .next (whenDue (s.live && decide (st < 8 ∧ u < 16) && s.hbmReady st && decide (s.refreshDue st u ≤ s.tb.mono)) s
    (s.setStack st fun h => { h with refreshed := Tab.put h.refreshed u s.tb.mono }))

/-- R666, R667, R809: a readout. -/
def tempReadout (st temp : Nat) (s : State) : State :=
  let s := s.setStack st fun h => { h with readAt := some s.tb.mono }
  let s := s.setFld (R.HBM_STAT st) F.HBM_STAT_TEMP temp
  let s := s.setFld R.TOP_THERM F.TOP_THERM_HBM_MAX (max temp (s.fld R.TOP_THERM F.TOP_THERM_HBM_MAX))
  let s := if 85 < temp then s.setFld (R.HBM_STAT st) F.HBM_STAT_HOT 1
    else if temp < 80 then s.setFld (R.HBM_STAT st) F.HBM_STAT_HOT 0 else s
  let s := if 95 ≤ temp then s.raise (R.HBM_ERR st) F.HBM_ERR_OVERTEMP else s
  if s.fld R.TOP_THERM F.TOP_THERM_HBM_ALERT ≤ temp then s.alert F.TOP_ALERT_THERM else s

/-- TEMP_READOUT (R666, R667, R809): the stack's temperature, °C. -/
def execTempReadout (st temp : Nat) (s : State) : Host.Outcome State Fault Refusal :=
  let due := match (s.stack st).readAt with | some t => decide (t + 128000 ≤ s.tb.mono) | none => true
  .next (whenDue (s.live && decide (st < 8 ∧ temp < 256)
      && decide (s.fld (R.HBM_STAT st) F.HBM_STAT_STATE = 1 ∨ s.hbmReady st) && due) s
    (tempReadout st temp s))

/-! ### Patrol -/

/-- Beats of a channel. -/
def chanBeats : Nat := 75497472

/-- R674: a patrol read of the next beat. -/
def patrolRead (st fault dq : Nat) (s : State) : State :=
  let b := (s.stack st).patrol
  let a := chanAddr (16 * st + b / chanBeats) (b % chanBeats * 32)
  let s := s.beatFault a fault dq
  let s := if s.poisoned a 32 then s.noteUE a 0 else s
  let last := b + 1 == 16 * chanBeats
  let s := s.setStack st fun h => { h with patrol := if last then 0 else b + 1 }
  if last then s.bump (R.HBM_PATROLS st) else s

/-- PATROL_READ (R671 to R674): `fault` is what the SECDED finds. -/
def execPatrolRead (st fault dq : Nat) (s : State) : Host.Outcome State Fault Refusal :=
  .next (whenDue (s.live && decide (st < 8) && s.hbmReady st && s.bit (R.HBM_CTL st) F.HBM_CTL_PATROL_EN
      && !s.refreshing st ((s.stack st).patrol / chanBeats)) s
    (patrolRead st fault dq s))

/-! ### Retraining -/

/-- R670: a pseudo-channel's retraining is due. -/
def State.retrainDue (s : State) (st pc : Nat) : Bool :=
  match Tab.get (s.stack st).trained pc with
  | none => true
  | some (t, deg) =>
    let now := s.fld (R.HBM_STAT st) F.HBM_STAT_TEMP
    decide (t + 1000000 * s.fld (R.HBM_CFG st) F.HBM_CFG_RETRAIN_MS ≤ s.tb.mono ∨ deg + 10 ≤ now ∨ now + 10 ≤ deg)

/-- A delay code moved, within its range. -/
def moveCode (c : Nat) (d : Int) : Nat := (max 0 (min 127 ((c : Int) + max (-4) (min 4 d)))).toNat

/-- R670: each delay moves by at most 4 codes: DQ, write move, read move. -/
def hbmRetrain (st u q : Nat) (moves : List (Nat × Int × Int)) (s : State) : State :=
  let pc := 2 * u + q
  let at_ := (s.tb.mono, s.fld (R.HBM_STAT st) F.HBM_STAT_TEMP)
  let s := s.setStack st fun h =>
    { h with trained := Tab.put h.trained pc at_,
             delays := moves.foldl (fun d m => Tab.edit d (64 * pc + m.1) fun c =>
               (moveCode c.1 m.2.1, moveCode c.2.1 m.2.2, c.2.2)) h.delays }
  s.bump (R.HBM_RETRAINS st)

/-- HBM_RETRAIN (R670): pseudo-channel `q` of channel `u`. -/
def execHbmRetrain (st u q : Nat) (moves : List (Nat × Int × Int)) (s : State) : Host.Outcome State Fault Refusal :=
  .next (whenDue (s.live && decide (st < 8 ∧ u < 16 ∧ q < 2) && s.hbmReady st
      && s.bit (R.HBM_CTL st) F.HBM_CTL_RETRAIN_EN && s.retrainDue st (2 * u + q) && moves.all fun m => decide (m.1 < 36))
    s (hbmRetrain st u q moves s))

/-! ### Frame retirement -/

/-- The first frame of a channel's retirement pool (R662). -/
def poolBase : Nat := 585728

/-- Frames of a channel. -/
def chanFrames : Nat := 589824

/-- R675: the pool frame that stands for a frame of channel `ch`, if one does. -/
def State.poolOf (s : State) (ch f : Nat) : Option Nat :=
  (s.retired.find? fun e => e.1 / 4096 == ch && e.2.valid && e.2.frame == f).map fun e => e.1 % 4096

/-- R675: the frame whose bytes an access to frame `f` of channel `ch` reaches, in the terms of the frame it stands
for: a pool frame that has been taken shows the frame it serves. -/
def State.frameHome (s : State) (ch f : Nat) : Nat :=
  if f < poolBase then f
  else match Tab.get s.retired (4096 * ch + (f - poolBase)) with
    | some p => p.frame
    | none => f

/-- The device address that an access to HBM address `a` reaches: that of the byte's home frame. -/
def State.hbmHome (s : State) (a : Nat) : Nat :=
  let ch := chanOf a
  let l := chanLocal a
  chanAddr ch (4096 * s.frameHome ch (l / 4096) + l % 4096)

/-- R780: the DRAM rows of a frame, by pseudo-channel and low bank-group bit, as `DETAIL` of R783. -/
def frameRows (f : Nat) : List Nat :=
  let q := f / 8
  [0, 1, 2, 3].map fun i =>
    q / 3 + (q % 3) * 2 ^ 15 + (f % 2 * 2 + i % 2) * 2 ^ 17 + (f % 8 / 2) * 2 ^ 19 + (i / 2) * 2 ^ 21

/-- R677, R780: hard-repair entries for the row of a frame once `PPR_FRAMES` frames of it are retired. -/
def State.hardRow (s : State) (ch f : Nat) : State :=
  let n := (s.retired.filter fun e => e.1 / 4096 == ch && e.2.frame / 8 == f / 8).length
  if s.fld R.RAS_TH F.RAS_TH_PPR_FRAMES ≤ n then
    { s with ras := { s.ras with hard := s.ras.hard ++
        ((frameRows f).map fun d => (ch, d)).filter fun x => !s.ras.hard.contains x } }
  else s

/-- R784: the commands that wait for a repair of a unit complete, and the repair is over. -/
def State.repairOver (s : State) (cls unit detail status : Nat) : State :=
  let mine := fun (e : Nat × Nat × Nat × Option Nat) => e.1 == cls && e.2.1 == unit && e.2.2.1 == detail
  let waits := s.ras.repairing.filter mine
  let s := { s with ras := { s.ras with repairing := s.ras.repairing.filter fun e => !mine e } }
  waits.foldl (fun s e => match e.2.2.2 with | some k => s.finishCmd k status | none => s) s

/-- The journal entry of a repair: that of the command that asked for it, or Lamplighter's own. -/
def State.repairBy (s : State) (cls unit detail : Nat) : JEntry :=
  match s.ras.repairing.find? fun e => e.1 == cls && e.2.1 == unit && e.2.2.1 == detail && e.2.2.2.isSome with
  | some (_, _, _, some k) => match Tab.get s.cmds k with
    | some c => c.journal 0x0F 0xFFFF 0 0 0
    | none => { action := 0x0F }
  | _ => { action := 0x0F }

/-- R675, R676: the frame is copied to pool frame `spare`, and every later access goes there. -/
def frameRetire (ch frame spare : Nat) (faults : List (Nat × Nat × Nat)) (s : State) : State :=
  let st := ch / 16
  let home := s.frameHome ch frame
  let taken := (s.retired.filter fun e => e.1 / 4096 == ch).length
  if 4096 ≤ taken then
    ((s.raise (R.HBM_ERR st) F.HBM_ERR_POOL_FULL).noSpare 5 ch).repairOver 5 ch frame Status.repairExhausted
  else
    let s := faults.foldl (fun s f =>
      if chanOf f.1 = ch ∧ chanLocal f.1 / 4096 = home then s.beatFault f.1 f.2.1 f.2.2 else s) s
    let old := s.poolOf ch home
    let s := match old with
      | some p => { s with retired := Tab.put s.retired (4096 * ch + p) { frame := home, valid := false, bad := true } }
      | none => s
    let s := { s with retired := Tab.put s.retired (4096 * ch + spare) { frame := home, valid := true, bad := false } }
    let s := s.setFld (R.HBM_CH st (ch % 16)) F.HBM_CH_RETIRED (taken + 1)
    let s := (s.bump (R.HBM_RETIRES st)).hardRow ch home
    let s := s.repairMade 5 ch frame (match old with | some p => p + poolBase | none => home) spare (s.repairBy 5 ch frame)
    s.repairOver 5 ch frame Status.ok

/-- FRAME_RETIRE (R675, R676): a retirement that R780 or `REPAIR` called for, to a free pool frame; `faults` is what
the SECDED finds in the frame's beats. -/
def execFrameRetire (ch frame spare : Nat) (faults : List (Nat × Nat × Nat)) (s : State) :
    Host.Outcome State Fault Refusal :=
  let asked := s.ras.repairing.any fun e => e.1 == 5 && e.2.1 == ch && e.2.2.1 == frame
  let full := decide (4096 ≤ (s.retired.filter fun e => e.1 / 4096 == ch).length)
  .next (whenDue (s.live && asked && decide (ch < 128) && s.hbmReady (ch / 16)
      && (full || (decide (spare < 4096) && (Tab.get s.retired (4096 * ch + spare)).isNone))) s
    (frameRetire ch frame spare faults s))

/-! ### Training helpers -/

/-- R702, R703: a write of `HBMs_TRN_CTL`. With `GO` it needs state TRAINING, and the run leaves its errors: `fails` by
DQ, and `count` on `CNT_DQ`. -/
def trnCtlWrite (st val fails count : Nat) (s : State) : State :=
  let off := R.HBM_TRN_CTL st
  if bitAt val 10 ∧ s.fld (R.HBM_STAT st) F.HBM_STAT_STATE ≠ 1 then s
  else
    let s := (s.setFld off F.HBM_TRN_CTL_CH (bitsOf val 0 4)).setFld off F.HBM_TRN_CTL_PC (bitsOf val 4 1)
    let s := if bitsOf val 5 2 = 3 then s.raise (R.HBM_ERR st) F.HBM_ERR_BADCFG
      else s.setFld off F.HBM_TRN_CTL_MODE (bitsOf val 5 2)
    let s := if 4 ≤ bitsOf val 7 3 then s.raise (R.HBM_ERR st) F.HBM_ERR_BADCFG
      else s.setFld off F.HBM_TRN_CTL_PAT (bitsOf val 7 3)
    let s := (s.setFld off F.HBM_TRN_CTL_CNT_DQ (bitsOf val 12 6)).setFld off F.HBM_TRN_CTL_BEATS (bitsOf val 32 32)
    if bitAt val 10 then (s.wr (R.HBM_TRN_ERR st) (fails % 2 ^ 36)).wr (R.HBM_TRN_CNT st) (count % 2 ^ 64) else s

/-- TRN_GO (R669, R703). -/
def execTrnGo (who : Who) (st val fails count : Nat) (s : State) : Host.Outcome State Fault Refusal :=
  .next (whenDue (s.live && decide (st < 8) && reaches who && bitAt val 10) s
    (s.journalCsr (trnCtlWrite st val fails count s) who (R.HBM_TRN_CTL st)))

/-- A write of `HBMs_TRN_DLY` sets the delays of the named DQ of the channel that `HBMs_TRN_CTL` names. -/
def trnDlyWrite (st val : Nat) (s : State) : State :=
  let pc := 2 * s.fld (R.HBM_TRN_CTL st) F.HBM_TRN_CTL_CH + s.fld (R.HBM_TRN_CTL st) F.HBM_TRN_CTL_PC
  let s := s.setFld (R.HBM_TRN_DLY st) F.HBM_TRN_DLY_DQ (bitsOf val 0 6)
  s.setStack st fun h =>
    { h with delays := Tab.put h.delays (64 * pc + bitsOf val 0 6) (bitsOf val 6 7, bitsOf val 13 7, bitsOf val 20 7) }

/-- What `HBMs_TRN_DLY` reads: the delays of its DQ. -/
def State.trnDly (s : State) (st : Nat) : Nat :=
  let pc := 2 * s.fld (R.HBM_TRN_CTL st) F.HBM_TRN_CTL_CH + s.fld (R.HBM_TRN_CTL st) F.HBM_TRN_CTL_PC
  let dq := s.fld (R.HBM_TRN_DLY st) F.HBM_TRN_DLY_DQ
  let c := Tab.at (s.stack st).delays (64 * pc + dq)
  dq + c.1 * 2 ^ 6 + c.2.1 * 2 ^ 13 + c.2.2 * 2 ^ 20

/-- What `HBMs_RET_DATA` reads: the pool frame that `HBMs_RET_SEL` names. -/
def State.retData (s : State) (st : Nat) : Nat :=
  let ch := 16 * st + s.fld (R.HBM_RET_SEL st) F.HBM_RET_SEL_CH
  match Tab.get s.retired (4096 * ch + s.fld (R.HBM_RET_SEL st) F.HBM_RET_SEL_INDEX) with
  | some p => p.frame + 2 ^ 20 * b2n p.valid + 2 ^ 21 * b2n p.bad
  | none => 0

end Sys2Proof.Machine
end

