-- ==== Sys2Proof/Machine/Queues.lean ====
section
/-! DEFINITION. Publishing heads and tails, notifications, events and mailboxes, and the commands on queues (R536 to R539,
R553, R562, R564 to R571, R573, R593, R594, R648, R649; 12_queues_commands.md). -/
namespace Sys2Proof.Machine

/-! ### Registers of a queue -/

/-- The code of a queue's state. -/
def QState.code : QState → Nat
  | .absent => 0 | .enabled => 1 | .disabled => 2 | .overrun => 3

/-- What `QM_QCFGg` reads: the stored word while the queue is ABSENT (R573). -/
def State.qcfg (s : State) (g : Nat) : Nat :=
  let q := Tab.at s.queues g
  if q.st = .absent then s.rd (R.QM_QCFG g)
  else b2n (q.st == .enabled) + q.typ * 2 + b2n q.push * 8 + q.sizeLog2 * 2 ^ 4 + q.port * 2 ^ 9 + b2n q.mirrorEn * 2 ^ 12
    + b2n q.notifyEn * 2 ^ 13 + q.inst * 2 ^ 16 + q.loc * 2 ^ 32 + q.vector * 2 ^ 48

/-- What `QM_QSTATg` reads. -/
def State.qstat (s : State) (g : Nat) : Nat :=
  let q := Tab.at s.queues g
  let tail := q.tail
  let fetch := if q.submits then q.fetch else q.prod
  if q.st = .absent then 2 ^ 51
  else q.head + tail * 2 ^ 17 + fetch * 2 ^ 34 + b2n (s.queueIdle g) * 2 ^ 51 + q.st.code * 2 ^ 52 + q.cause * 2 ^ 54

/-- R564, R571, R573: a write of `QM_QCFGg.EN`. -/
def State.enableQueue (s : State) (g : Nat) (en : Bool) : State :=
  let q := Tab.at s.queues g
  if q.st = .enabled ∧ !en then { s with queues := Tab.put s.queues g { q with st := .disabled } }
  else if q.st = .disabled ∧ en then { s with queues := Tab.put s.queues g { q with st := .enabled } }
  else s

/-- R596: a register whose value is computed changed from `old` to `new` by a write of the management port or JTAG. -/
def State.journalView (s : State) (who : Who) (off old new : Nat) : State :=
  if (who = .mgmt ∨ who = .jtag) ∧ old ≠ new then
    s.journalRec { source := whoSource who, action := 0x11, object := off, old := old, new := new }
  else s

/-- QUEUE_ENABLE (R564, R573): a write of `QM_QCFGg.EN` alone. -/
def execQueueEnable (who : Who) (g : Nat) (en : Bool) (s : State) : Host.Outcome State Fault Refusal :=
  let t := s.enableQueue g en
  .next (whenDue (s.live && reaches who && decide (g < 16384)) s
    (t.journalView who (R.QM_QCFG g) (s.qcfg g) (t.qcfg g)))

/-- R571: the queue reset. -/
def queueReset (who : Who) (g : Nat) (s : State) : State :=
  let q := Tab.at s.queues g
  if (q.st = .disabled ∨ q.st = .overrun) ∧ s.queueIdle g then
    let fresh := { q with st := .disabled, head := 0, tail := 0, fetch := 0, prod := 0, cause := 0, chain := none,
                          passed := 0, pubGen := s.genOf q.inst }
    let s := { s with queues := Tab.put s.queues g fresh }
    let s := s.journalRec { source := whoSource who, action := 0x08, target := q.inst, object := g,
                            old := q.head + q.tail * 2 ^ 32, new := 0 }
    s.writeMirror g 0
  else s.raise R.QM_ERR F.QM_ERR_QRESET_BUSY

/-- QM_QRESET_GO (R537, R564, R571): a write of `QM_QRESET` with `GO`. -/
def execQmQresetGo (who : Who) (g : Nat) (s : State) : Host.Outcome State Fault Refusal :=
  .next (whenDue (s.live && reaches who && decide (g < 16384)) s (queueReset who g s))

/-! ### Heads, tails and notifications -/

/-- R536: the finished prefix of a queue from an index: the index after it, its entries flagged `NOTIFY`, its keys. -/
def State.finishedPrefix (s : State) (g n : Nat) : Nat → Nat → Nat → List Nat → Nat × Nat × List Nat
  | 0, idx, notes, keys => (idx, notes, keys)
  | fuel + 1, idx, notes, keys =>
    let key := g * 65536 + idx % 65536
    match Tab.get s.cmds key with
    | some c =>
      if c.written && !c.isOpen && !keys.contains key then
        s.finishedPrefix g n fuel (advance n idx c.slots) (notes + b2n (bitAt c.flags 4)) (keys ++ [key])
      else (idx, notes, keys)
    | none => (idx, notes, keys)

/-- R536: the head advances over entries whose status is written, and the publication goes to the head publisher. -/
def headPublish (g : Nat) (s : State) : State :=
  let q := Tab.at s.queues g
  let r := s.finishedPrefix g q.n q.n q.prod 0 []
  if r.2.2.isEmpty then s
  else
    let s := { s with cmds := s.cmds.filter fun e => !r.2.2.contains e.1,
                      queues := Tab.put s.queues g { q with prod := r.1 } }
    s.sendOut 0 q.inst (s.genOf q.inst) (.index g r.1 r.2.1)

/-- HEAD_PUBLISH (R536 to R538, R568, R648). -/
def execHeadPublish (g : Nat) (s : State) : Host.Outcome State Fault Refusal :=
  let q := Tab.at s.queues g
  .next (whenDue (s.serving && !s.crank.gap && q.submits && q.st != .absent) s (headPublish g s))

/-- R648, R649: flagged entries passed: the pending count increases once for each; a notification is owed whenever it
reaches the count of R562, but in a switch-over gap the pending count is kept. -/
def Queue.passNotes (gap : Bool) (now : Nat) : Nat → Queue → Queue
  | 0, q => q
  | n + 1, q =>
    let q := { q with pendCount := q.pendCount + 1, pendSince := q.pendSince.or (some now) }
    passNotes gap now n (if !gap && decide (q.coalCount ≤ q.pendCount) then
      { q with pendCount := 0, pendSince := none, notices := q.notices ++ [q.pendCount] } else q)

/-- R537, R648, R714: a published index takes effect: never below the last one published. -/
def State.publish (s : State) (g idx notes : Nat) : State :=
  let q := Tab.at s.queues g
  if q.st = .absent then s
  else
    let last := if q.submits then q.head else q.tail
    let step := occupancy q.n last idx
    if q.n < step then s
    else
      let q := if q.submits then { q with head := idx, passed := q.passed + step } else { q with tail := idx }
      let q := { q with pubGen := s.genOf q.inst }
      let q := q.passNotes s.crank.gap s.tb.mono (if q.notifyEn then notes else 0)
      { s with queues := Tab.put s.queues g q }.writeMirror g idx

/-- R648: a notification of the queue is due: it is owed, or the pending count or time has reached its limit. -/
def State.notifyDue (s : State) (q : Queue) : Bool :=
  !q.notices.isEmpty || (q.pendCount != 0 && (decide (q.coalCount ≤ q.pendCount)
    || match q.pendSince with | some t => q.coalTime != 0 && decide (t + 1000 * q.coalTime ≤ s.tb.mono) | none => false))

/-- R648, R649: the notification leaves. -/
def sendNotice (g : Nat) (s : State) : State :=
  let q := Tab.at s.queues g
  let left : Queue := match q.notices with
    | _ :: rest => { q with notices := rest }
    | [] => { q with pendCount := 0, pendSince := none }
  let s := { s with queues := Tab.put s.queues g left }
  let gen := q.pubGen
  if s.fresh q.inst gen then
    s.sendNtfy q.port q.inst gen q.loc q.head q.vector (min 65535 (q.notices.headD q.pendCount))
  else s.staleDrop q.inst

/-- NTFY (R569, R648, R649, R714). -/
def execNtfy (g : Nat) (s : State) : Host.Outcome State Fault Refusal :=
  let q := Tab.at s.queues g
  .next (whenDue (s.live && !s.crank.gap && !s.crank.halted && q.st != .absent && s.hostUp q.port && s.notifyDue q) s
    (sendNotice g s))

/-! ### Events and mailboxes -/

/-- R570: the lowest-numbered EVENT queue of an instance. -/
def State.eventQueue (s : State) (i : Nat) : Option Nat :=
  let qs := s.queues.filter fun e => e.2.st != .absent && e.2.typ == 3 && e.2.inst == i
  (qs.foldl (fun (b : Option (Nat × Nat)) e => match b with
    | some (l, g) => if e.2.loc < l then some (e.2.loc, e.1) else some (l, g)
    | none => some (e.2.loc, e.1)) none).map (·.2)

/-- R570: the 64 bytes of an event entry. -/
def eventBytes (e : Event) : List Byte :=
  le e.kind 1 ++ zeros 1 ++ le e.loc 2 ++ le e.lost 4 ++ le e.time 8 ++ padTo e.detail 48

/-- R570: free slots of a ring the device writes. -/
def Queue.room (q : Queue) : Nat := q.n - occupancy q.n q.head q.prod

/-- R539, R570: one slot handed to a ring's publisher. -/
def State.ringSlot (s : State) (stage g : Nat) (bytes : List Byte) (run : Nat) : State :=
  let q := Tab.at s.queues g
  let units := bytes.length / 64
  let next := advance q.n q.prod units
  let s := { s with queues := Tab.put s.queues g { q with prod := next } }
  s.sendOut stage q.inst (s.genOf q.inst) (.ring g q.prod bytes next run)

/-- R593: the mailbox page of instance `i`: where its up (`down` false) or down half begins. -/
def mailHalf (i : Nat) (down : Bool) : Nat := 4096 * i + (if down then 2048 else 0)

/-- R594: the doorbell bits of a half. -/
def State.mailBits (s : State) (i : Nat) (down : Bool) : Nat := leNat (cellsRead s.mail (mailHalf i down + 8) 8)

/-- R594: the event of a half waits at its reader. -/
def State.mailPending (s : State) (i : Nat) (down : Bool) : Bool :=
  (Tab.at s.insts (if down then i else 0)).events.any fun e =>
    e.kind == 0xE2 && fieldAt e.detail 8 2 == i && e.lost == b2n down

/-- R594: an event of a half is written or discarded: its bits are cleared. -/
def State.mailClear (s : State) (i : Nat) (down : Bool) : State :=
  { s with mail := cellsZero s.mail (mailHalf i down + 8) 8 }

/-- R594: a mailbox event with the bits as they stand. -/
def State.freshen (s : State) (e : Event) : Event × State :=
  if e.kind = 0xE2 then
    let i := fieldAt e.detail 8 2
    let down := e.lost == 1
    ({ e with lost := 0, detail := le (s.mailBits i down) 8 ++ e.detail.drop 8 }, s.mailClear i down)
  else (e, s)

/-- R570: the oldest event of an instance is written, counted as lost, or discarded. -/
def eventWrite (i : Nat) (e : Event) (s : State) : State :=
  let s := { s with insts := Tab.upd s.insts i fun x => { x with events := x.events.drop 1 } }
  let r := s.freshen e
  let s := r.2
  match s.eventQueue i with
  | none => s
  | some g =>
    let q := Tab.at s.queues g
    if q.lost ≠ 0 ∨ q.room = 0 ∨ q.st ≠ .enabled then
      { s with queues := Tab.put s.queues g { q with lost := q.lost + 1 } }
    else s.ringSlot 2 g (eventBytes r.1) 0

/-- EVENT_WRITE (R539, R566, R570, R594). -/
def execEventWrite (inst : Nat) (s : State) : Host.Outcome State Fault Refusal :=
  match (Tab.at s.insts inst).events with
  | [] => .next s
  | e :: _ => .next (whenDue s.live s (eventWrite inst e s))

/-- R570: the `OVERFLOW` event takes the slot that became free. -/
def overflowWrite (g : Nat) (s : State) : State :=
  let q := Tab.at s.queues g
  let s := { s with queues := Tab.put s.queues g { q with lost := 0 } }
  s.ringSlot 2 g (eventBytes { kind := 0xE0, loc := q.loc, lost := q.lost % 2 ^ 32, time := s.now, detail := [] }) 0

/-- OVERFLOW (R570). -/
def execOverflowEvent (g : Nat) (s : State) : Host.Outcome State Fault Refusal :=
  let q := Tab.at s.queues g
  .next (whenDue (s.live && q.st == .enabled && q.typ == 3 && q.lost != 0 && q.room != 0) s (overflowWrite g s))

/-- R593, R594: bits written to the `DOORBELL` of a half. -/
def mailboxRing (i : Nat) (down : Bool) (val : Nat) (s : State) : State :=
  let bits := s.mailBits i down ||| (val % 2 ^ 64)
  let s := { s with mail := cellsWrite s.mail (mailHalf i down + 8) (le bits 8) }
  if val % 2 ^ 64 = 0 ∨ s.mailPending i down then s
  else s.postEvent (if down then i else 0)
    { kind := 0xE2, lost := b2n down, time := s.now, detail := zeros 8 ++ le i 2 ++ zeros 38 }

/-- MAILBOX_DOORBELL (R593, R594): the writer of a half writes its `DOORBELL`. -/
def execMailboxDoorbell (inst : Nat) (down : Bool) (val : Nat) (s : State) : Host.Outcome State Fault Refusal :=
  .next (whenDue (s.live && decide (inst ≤ 1024) && (Tab.at s.insts inst).st == 1) s (mailboxRing inst down val s))

/-! ### Commands on queues -/

/-- R532: a local queue of a command's instance. -/
def State.target (s : State) (c : Cmd) : Option Nat := s.globalOf c.inst (c.p 0 2)

/-- R559, R532, R853: `QUEUE_CREATE`, its global number picked from those free. -/
def queueCreate (key g : Nat) (c : Cmd) (s : State) : State :=
  if s.fld (R.MLK_CFG (c.p 5 1)) F.MLK_CFG_MODE = 1 then s.completeCmd key Status.invalidField (c.fieldResidue 5)
  else if (s.target c).isSome then s.completeCmd key Status.invalidQueue
  else
    let freeG := fun n => (Tab.at s.queues n).st == .absent
    if !((List.range 15359).any fun i => freeG (1025 + i)) then s.completeCmd key Status.noResource
    else if g < 1025 ∨ 16384 ≤ g ∨ !freeG g then s
    else
      let q : Queue := { st := .enabled, typ := c.p 2 1, push := bitAt (c.p 3 1) 0, mirrorEn := bitAt (c.p 3 1) 1,
                         notifyEn := bitAt (c.p 3 1) 2, sizeLog2 := c.p 4 1, port := c.p 5 1, vector := c.p 6 2,
                         base := c.p 8 8, mirror := c.p 16 8, inst := c.inst, loc := c.p 0 2, pubGen := c.gen }
      let s := (s.bringQueue g q).journalRec (c.journal 0x06 c.inst g 0 1 6)
      s.completeCmd key Status.ok 0 g

/-- QUEUE_CREATE (R532, R559, R564, R596, R853). -/
def execQueueCreate (key g : Nat) (s : State) : Host.Outcome State Fault Refusal :=
  match s.cmdDue key 0x02 with
  | some c => .next (queueCreate key g c s)
  | none => .next s

/-- R565: a queue becomes ABSENT. -/
def State.dropQueue (s : State) (g : Nat) : State := { s with queues := Tab.del s.queues g }

/-- R565: `QUEUE_DELETE`. -/
def queueDelete (key : Nat) (c : Cmd) (s : State) : State :=
  match if c.p 0 2 = 0 then none else s.target c with
  | none => s.completeCmd key Status.invalidQueue
  | some g =>
    let q := Tab.at s.queues g
    if (q.st = .disabled ∨ q.st = .overrun) ∧ s.queueIdle g then
      let s := (s.dropQueue g).journalRec (c.journal 0x07 c.inst g q.st.code 0 6)
      s.completeCmd key Status.ok
    else s.completeCmd key Status.busy

/-- QUEUE_DELETE (R564, R565). -/
def execQueueDelete (key : Nat) (s : State) : Host.Outcome State Fault Refusal :=
  match s.cmdDue key 0x03 with
  | some c => .next (queueDelete key c s)
  | none => .next s

/-- R566: `QUEUE_DRAIN` begins, or finds its target drained. -/
def queueDrain (key : Nat) (c : Cmd) (s : State) : State :=
  match if c.p 0 2 = 0 then none else s.target c with
  | none => s.completeCmd key Status.invalidQueue
  | some g =>
    let s := if !c.started ∧ bitAt (c.p 2 1) 0 then s.enableQueue g false else s
    let s := s.beginCmd key
    let q := Tab.at s.queues g
    if c.note ≤ q.passed ∨ (q.st = .disabled ∧ q.submits ∧ s.queueIdle g) then s.finishCmd key Status.ok else s

/-- QUEUE_DRAIN (R564 to R566). -/
def execQueueDrain (key : Nat) (s : State) : Host.Outcome State Fault Refusal :=
  match s.cmdDue key 0x04 with
  | some c => .next (queueDrain key c s)
  | none => .next s

/-- R567: accepted and unstarted commands of a queue end with `ABORTED_FLUSH`; how many entries that were. -/
def State.flushAccepted (s : State) (g note : Nat) : Nat × State :=
  let es := s.cmds.filter fun e => e.2.g == g && !e.2.mgmt && !e.2.started && !e.2.finished && decide (s.entryAt e.2 < note)
  let s := es.foldl (fun s e => (s.editCmd e.1 fun c => { c with isOpen := false }).finishCmd e.1 Status.abortedFlush) s
  ((es.map fun e => e.2.ents.length).foldl (· + ·) 0, s.setChain g none)

/-- R567: entries below the noted tail that were not fetched end, read by their first slots. -/
def State.flushUnread (s : State) (g note : Nat) : List (List Byte) → Nat → Nat × State
  | [], n => (n, s)
  | f :: r, n =>
    let q := Tab.at s.queues g
    if note ≤ q.passed + occupancy q.n q.head q.fetch then (n, s)
    else
      let e := readEntry f
      if entryLengthBad q.n (q.fetch % 65536) e.units then
        let a := s.acceptNew g { e with flags := e.flags % 32 } 1 false
        (a.2.finishCmd a.1 Status.invalidLength).flushUnread g note r n
      else
        let a := s.acceptNew g e e.units false
        (a.2.finishCmd a.1 Status.abortedFlush).flushUnread g note r (n + 1)

/-- R567: `QUEUE_FLUSH` begins, reads on, or finds its target's head past the noted tail. -/
def queueFlush (key : Nat) (firsts : List (List Byte)) (c : Cmd) (s : State) : State :=
  match if c.p 0 2 = 0 then none else s.target c with
  | none => s.completeCmd key Status.invalidQueue
  | some g =>
    let q := Tab.at s.queues g
    if !q.submits then s.completeCmd key Status.ok
    else
      let s := s.beginCmd key
      let a := s.flushAccepted g c.note
      let b := if s.hostUp q.port then a.2.flushUnread g c.note firsts 0 else (0, a.2)
      let n := c.done + a.1 + b.1
      let s := b.2.editCmd key fun c => { c with done := n }
      if c.note ≤ (Tab.at s.queues g).passed then s.finishCmd key Status.ok 0 n else s

/-- QUEUE_FLUSH (R565, R567, R568): `firsts` are the first slots of entries not yet fetched, in ring order. -/
def execQueueFlush (key : Nat) (firsts : List (List Byte)) (s : State) : Host.Outcome State Fault Refusal :=
  match s.cmdDue key 0x05 with
  | some c => .next (queueFlush key firsts c s)
  | none => .next s

/-- R562: `SET_FEATURE`. -/
def setFeature (key : Nat) (c : Cmd) (s : State) : State :=
  match if c.p 2 2 = 0 then none else s.globalOf c.inst (c.p 2 2) with
  | none => s.completeCmd key Status.invalidQueue
  | some g =>
    let q := Tab.at s.queues g
    let v := c.p 8 8
    let old := if c.p 0 2 = 1 then q.coalCount + 256 * q.coalTime else b2n q.notifyEn
    let q := if c.p 0 2 = 1 then { q with coalCount := v % 256, coalTime := v / 256 } else { q with notifyEn := v == 1 }
    let s := { s with queues := Tab.put s.queues g q }
    let s := if old = v then s else s.journalRec (c.journal 0x12 c.inst g old v)
    s.completeCmd key Status.ok

/-- SET_FEATURE (R562, R565). -/
def execSetFeature (key : Nat) (s : State) : Host.Outcome State Fault Refusal :=
  match s.cmdDue key 0x07 with
  | some c => .next (setFeature key c s)
  | none => .next s

/-- BARRIER (R553): nothing it waits on is left. -/
def execBarrier (key : Nat) (s : State) : Host.Outcome State Fault Refusal :=
  match s.cmdDue key 0x58 with
  | some _ => .next (s.completeCmd key Status.ok)
  | none => .next s

/-- NOP (R543, R559). -/
def execNop (key : Nat) (s : State) : Host.Outcome State Fault Refusal :=
  match s.cmdDue key 0x5F with
  | some _ => .next (s.completeCmd key Status.ok)
  | none => .next s

/-! ### Output stages at work -/

/-- The slots of a ring from an index, cut where the ring ends: host address and bytes. -/
def Queue.pieces (q : Queue) (idx : Nat) (bytes : List Byte) : List (Nat × List Byte) :=
  let room := 64 * (q.n - idx % 65536)
  if bytes.length ≤ room then [(q.slotAddr (idx % 65536), bytes)]
  else [(q.slotAddr (idx % 65536), bytes.take room), (q.slotAddr 0, bytes.drop room)]

/-- R713: a released instruction is issued; one of a stale generation is dropped (R580). -/
def State.issue (s : State) (o : OutItem) : State :=
  match o.act with
  | .journal body => s.journalPut body
  | .status key =>
    if !s.fresh o.inst o.gen then s.staleDrop o.inst
    else match Tab.get s.cmds key with
      | none => s
      | some c =>
        let q := Tab.at s.queues c.g
        c.ents.foldl (fun s e => s.hostWrite q.port (q.slotAddr e.1 + 48) c.area (.status key) o.inst o.gen) s
  | .ring g idx bytes newTail run =>
    if !s.fresh o.inst o.gen then s.staleDrop o.inst
    else
      let q := Tab.at s.queues g
      if q.st = .absent then s
      else
        let ps := q.pieces idx bytes
        let last := ps.length - 1
        (ps.zip (List.range ps.length)).foldl (fun s x =>
          s.hostWrite q.port x.1.1 x.1.2 (if x.2 = last then .ring g newTail run else .ring g idx 0) o.inst o.gen) s
  | .index g idx notes =>
    if !s.fresh o.inst o.gen then s.staleDrop o.inst else s.publish g idx notes

/-- R538, R539: a ring write is confirmed: its tail is published once no earlier write of the ring is open. -/
def State.ringConfirmed (s : State) (h : Held) (g newTail : Nat) : State :=
  let before := s.held.takeWhile (· != h)
  let isRing := fun (x : Held) => match x.what with | .ring g' _ _ => g' == g | _ => false
  let rest := s.held.erase h
  match (before.filter isRing).getLast? with
  | some p =>
    let up (x : Held) : Held := if x == p then
        { x with what := match x.what with | .ring g' _ r => .ring g' newTail r | w => w } else x
    { s with held := rest.map up }
  | none =>
    let q := Tab.at s.queues g
    { s with held := rest }.sendOut (if q.typ = 3 then 2 else 1) q.inst (s.genOf q.inst) (.index g newTail 0)

/-- R538, R854: a held write of the queue manager is confirmed. -/
def State.confirmPublication (s : State) (h : Held) : State :=
  match h.what with
  | .status key =>
    let s := { s with held := s.held.erase h }
    if s.held.any fun x => x.what == .status key then s else s.editCmd key fun c => { c with written := true }
  | .ring g newTail _ => s.ringConfirmed h g newTail
  | .mirror g =>
    let s := { s with held := s.held.erase h }
    match s.held.find? fun x => x.what == .mirror g && x.tag.isNone && x.failedAt.isNone with
    | some x =>
      if s.hostUp x.port then
        let r := s.issueHeld x true
        { r.2 with held := r.2.held.map fun y => if y == x then r.1 else y }
      else s
    | none => s
  | _ => s

end Sys2Proof.Machine
end

