-- ==== Sys2Proof/Machine/Crank.lean ====
section
/-! DEFINITION. The Crankset: roles and claims, strokes and outboxes, the recognition of a failure, taking over, rejoining,
and changing the firmware (R705 to R730; 16_crankset.md). -/
namespace Sys2Proof.Machine

/-! ### Seats -/

/-- A role, by the codes of `CRK_STAT`. -/
def Role.code : Role → Nat
  | .booting => 0 | .captain => 1 | .stoker => 2 | .failed => 3

/-- The role of a seat, 0 crank A. -/
def State.role (s : State) (seat : Nat) : Role := if seat = 1 then s.crank.roleB else s.crank.roleA

/-- A role set. -/
def State.setRole (s : State) (seat : Nat) (r : Role) : State :=
  { s with crank := if seat = 1 then { s.crank with roleB := r } else { s.crank with roleA := r } }

/-- A claim set (R707, R710). -/
def State.setClaim (s : State) (seat v : Nat) : State :=
  s.setFld R.CRK_CLAIM (if seat = 1 then F.CRK_CLAIM_CLAIM_B else F.CRK_CLAIM_CLAIM_A) v

/-- The other seat. -/
def other (seat : Nat) : Nat := if seat = 1 then 0 else 1

/-- R713: the stoker takes part in releasing strokes. -/
def State.attached (s : State) (cap : Nat) : Bool := s.role (other cap) == .stoker && !s.crank.detached

/-- R713: strokes whose copies no stoker will acknowledge may be released. -/
def State.freeStrokes (s : State) : State := { s with crank := { s.crank with acked := s.crank.copied } }

/-- R708, R716, R720: a seat becomes FAILED; it is rebooted once (R722). -/
def State.seatFails (s : State) (seat : Nat) : State :=
  let s := s.setRole seat .failed
  let k := s.crank
  let s := { s with crank := { k with synced := false, detached := false, rejoin := k.rejoin.filter (· != seat) ++ [seat],
                                      watchA := {}, watchB := {} } }
  (s.raise R.CRK_ERR F.CRK_ERR_SEAT_FAIL).freeStrokes

/-- R723, R772: the captain has failed with no synchronised, attached stoker: the stages hold for good. -/
def State.noStoker (s : State) : State :=
  let s := { s with crank := { s.crank with halted := true, taking := none } }
  let s := (s.raise R.CRK_ERR F.CRK_ERR_NO_STOKER).setFld R.RAS_STAT F.RAS_STAT_HALTED 1
  (s.alert F.TOP_ALERT_CRANK).alert F.TOP_ALERT_RAS

/-- R710, R723: a stoker decides to take over, or cannot. -/
def State.decideTakeover (s : State) (seat : Nat) : State :=
  if s.role seat == .stoker && s.crank.synced && !s.crank.detached && decide (s.claimOf (other seat) < 0xFFFFFFFF) then
    { s with crank := { s.crank with taking := some seat } }
  else s.noStoker

/-! ### Strokes (R711 to R713) -/

/-- R718: in arbiter mode each healthy seat toggles its health output. -/
def State.toggleHealth (s : State) : State :=
  let live (seat : Nat) : Bool := s.role seat == .captain || s.role seat == .stoker
  if s.bit R.CRK_CFG F.CRK_CFG_DETECT then
    { s with pins := { s.pins with hbA := if live 0 then !s.pins.hbA else s.pins.hbA,
                                   hbB := if live 1 then !s.pins.hbB else s.pins.hbB } }
  else s

/-- R711 to R713: the captain ends a stroke; with no stoker attached it may be released at once. -/
def strokeEnd (cap : Nat) (s : State) : State :=
  let k := s.crank
  let n := k.stroke + 1
  let s := { s with crank := { k with stroke := n, copied := n, acked := if s.attached cap then k.acked else n } }
  s.toggleHealth

/-- STROKE_END (R711 to R713). -/
def execStrokeEnd (s : State) : Host.Outcome State Fault Refusal :=
  match s.captain with
  | some cap => .next (whenDue (s.live && !s.crank.gap && !s.crank.halted) s (strokeEnd cap s))
  | none => .next s

/-- STROKE_COPY (R712, R713): the stoker has applied the next copy and acknowledges it. -/
def execStrokeCopy (s : State) : Host.Outcome State Fault Refusal :=
  match s.captain with
  | some cap =>
    .next (whenDue (s.live && !s.crank.gap && !s.crank.halted && s.attached cap && decide (s.crank.acked < s.crank.copied)) s
      { s with crank := { s.crank with acked := s.crank.acked + 1 } })
  | none => .next s

/-- R709: a stage obeys an instruction only when it carries the claim of `AUTH`. -/
def State.obey (s : State) (o : OutItem) : State :=
  if o.claim = s.fld R.CRK_AUTH F.CRK_AUTH_AUTH then s.issue o
  else (s.raise R.CRK_ERR F.CRK_ERR_FENCED).bump R.CRK_FENCED

/-- R713: the stages issue the instructions of the next stroke, in the order they were sent. -/
def release (s : State) : State :=
  let n := s.crank.released
  let out := s.outbox.filter fun o => decide (o.stroke ≤ n)
  let s := { s with outbox := s.outbox.filter (fun o => !decide (o.stroke ≤ n)),
                    crank := { s.crank with released := n + 1 } }
  out.foldl State.obey (s.wr R.CRK_STROKE n)

/-- RELEASE (R709, R713, R714). -/
def execReleaseStroke (s : State) : Host.Outcome State Fault Refusal :=
  .next (whenDue (s.live && !s.crank.gap && !s.crank.halted && decide (s.crank.released < s.crank.acked)) s (release s))

/-- CLAIM_INSTRUCTION (R709): an instruction of a seat reaches the stages: of a higher claim it raises `AUTH` and starts
the gap, of a lower one it is fenced off; one that carries `AUTH` is obeyed when its stroke is released. -/
def execClaimInstruction (seat : Nat) (s : State) : Host.Outcome State Fault Refusal :=
  let c := s.claimOf seat
  let auth := s.fld R.CRK_AUTH F.CRK_AUTH_AUTH
  .next (whenDue (s.live && decide (seat < 2)) s
    (if auth < c then
      { s.setFld R.CRK_AUTH F.CRK_AUTH_AUTH c with
        crank := { s.crank with gap := true, taking := some seat,
                                gapStart := if s.crank.gap then s.crank.gapStart else s.tb.mono } }
    else if c < auth then (s.raise R.CRK_ERR F.CRK_ERR_FENCED).bump R.CRK_FENCED
    else s))

/-! ### Recognising a failure (R716 to R719) -/

/-- R716, R717, R719: a watch after a window, by whether a heartbeat came on each path. -/
def Watch.window (w : Watch) (copy wire : Bool) : Watch :=
  { silent := if copy || wire then 0 else w.silent + 1,
    copyLost := if !copy && wire then w.copyLost + 1 else 0,
    wireLost := if copy && !wire then w.wireLost + 1 else 0,
    copyOk := if copy then w.copyOk + 1 else 0 }

/-- R717: a path is lost. -/
def State.pathLost (s : State) (f : Nat × Nat) : State :=
  ((s.raise R.CRK_ERR f).bump R.CRK_PATH_LOSSES).alert F.TOP_ALERT_CRANK

/-- R719: the captain detaches the stoker. -/
def State.detach (s : State) : State :=
  { s with crank := { s.crank with detached := true, synced := false } }.freeStrokes

/-- The seat that is STOKER. -/
def State.stoker (s : State) : Option Nat :=
  if s.crank.roleA == .stoker then some 0 else if s.crank.roleB == .stoker then some 1 else none

/-- A seat is to boot or synchronise. -/
def State.askRejoin (s : State) (seat : Nat) : State :=
  { s with crank := { s.crank with rejoin := s.crank.rejoin.filter (· != seat) ++ [seat] } }

/-- R716, R717, R719: what a window of `seat` leads to. -/
def heartbeatWindow (seat : Nat) (copy wire : Bool) (s : State) : State :=
  let w := (if seat = 1 then s.crank.watchB else s.crank.watchA).window copy wire
  let s := { s with crank := if seat = 1 then { s.crank with watchB := w } else { s.crank with watchA := w } }
  let s := if w.copyLost = 8 then
      let s := s.pathLost F.CRK_ERR_COPY_PATH
      if s.crank.detached then s else s.detach
    else s
  let s := if w.wireLost = 8 then s.pathLost F.CRK_ERR_WIRE_PATH else s
  let s := match s.stoker with
    | some st => if s.crank.detached && w.copyOk == 8 then s.askRejoin st else s
    | none => s
  if w.silent = 8 ∧ s.bit R.CRK_CFG F.CRK_CFG_DETECT = false then
    if s.role seat == .captain then s.seatFails (other seat) else s.decideTakeover seat
  else s

/-- HEARTBEAT_WINDOW (R716, R717, R719, R723): a window of a seat ends; whether it saw a heartbeat on the copy link and on
the wire. -/
def execHeartbeatWindow (seat : Nat) (copy wire : Bool) (s : State) : Host.Outcome State Fault Refusal :=
  let live (x : Nat) : Bool := s.role x == .captain || s.role x == .stoker
  .next (whenDue (s.live && decide (seat < 2) && live 0 && live 1 && !s.crank.gap && !s.crank.halted && s.crank.taking.isNone) s
    (heartbeatWindow seat copy wire s))

/-- R718: the grant of a seat. -/
def State.grant (s : State) (seat : Nat) : Bool :=
  if s.bit R.CRK_CFG F.CRK_CFG_ARB_SRC then
    s.bit R.CRK_ARB (if seat = 1 then F.CRK_ARB_GRANT_B else F.CRK_ARB_GRANT_A)
  else if seat = 1 then s.pins.grantB else s.pins.grantA

/-- R718: what grants that have stood for 2 µs decide. -/
def State.arbitrate (s : State) : State :=
  match s.captain, s.stoker with
  | some cap, some st =>
    if s.bit R.CRK_CFG F.CRK_CFG_DETECT && s.grant st && !s.grant cap && s.crank.synced && !s.crank.detached
        && s.crank.taking.isNone && !s.crank.gap then s.decideTakeover st
    else s
  | _, _ => s

/-- GRANT_CHANGE (R708, R718): the grant pins have stood at these levels for 2 µs. -/
def execGrantChange (a b : Bool) (s : State) : Host.Outcome State Fault Refusal :=
  let s' : State := { s with pins := { s.pins with grantA := a, grantB := b } }
  .next (if s.live then s'.arbitrate else s')

/-! ### Taking over (R720, R721) -/

/-- R729: the activation that takes over changes `CMD_MAJOR` and is disruptive. -/
def State.disrupts (s : State) : Bool :=
  match s.crank.act with
  | some (key, _, 2) =>
    bitAt ((Tab.at s.cmds key).p 0 1) 0 && fieldAt s.crank.fw 5 1 != fieldAt s.firmware 5 1
  | _ => false

/-- R729: entries below a tail that have not started complete with `FW_CHANGED`, those not yet fetched as they are. -/
def State.overtake (s : State) : State :=
  let mark (q : Queue) : Queue :=
    if q.submits then { q with fwMark := q.passed + occupancy q.n q.head q.tail } else q
  let s : State := { s with queues := s.queues.map fun e => (e.1, mark e.2) }
  let es := s.cmds.filter fun e => !e.2.mgmt && !e.2.isOpen && !e.2.started && !e.2.finished
  es.foldl (fun s e => s.finishCmd e.1 Status.fwChanged) s

/-- R710, R720, R721: the seat raises its claim and the stages hold. The unreleased instructions are those the replay
creates again: they carry the new claim and the first stroke the new captain ends. -/
def takeover (seat : Nat) (s : State) : State :=
  let c := s.claimOf (other seat) + 1
  let s := (s.setClaim seat c).setFld R.CRK_AUTH F.CRK_AUTH_AUTH c
  let k := s.crank
  let k' : Crank := { k with gap := true, gapStart := s.tb.mono, copied := k.stroke, acked := k.released }
  let out := s.outbox.map fun o => { o with claim := c, stroke := k.stroke }
  let s := { s with crank := k', outbox := out }.bump R.CRK_TAKEOVERS
  if s.disrupts then s.overtake else s

/-- TAKEOVER (R482, R607, R710, R714, R720, R721, R723, R753). -/
def execTakeover (s : State) : Host.Outcome State Fault Refusal :=
  match s.crank.taking with
  | some seat => .next (whenDue (s.live && !s.crank.gap && !s.crank.halted && s.role seat == .stoker) s (takeover seat s))
  | none => .next s

/-- R724: supervisor cycles of a gap of `ns`. -/
def gapCycles (ns : Nat) : Nat := min 65535 (ns * 6 / 5)

/-- R783: a commanded repair of a seat is done, or could not be: detail 0 a reboot, 1 a take-over. -/
def State.seatRepaired (s : State) (seat detail status : Nat) : State :=
  if s.ras.repairing.any fun e => e.1 == 8 && e.2.1 == seat && e.2.2.1 == detail then
    let s := if status = Status.ok then s.repairMade 8 seat detail seat (other seat) (s.repairBy 8 seat detail) else s
    s.repairOver 8 seat detail status
  else s

/-- R714, R720: the gap ends: roles change, the switch-over is journalled, latched doorbells are applied in order. -/
def releaseGap (seat : Nat) (s : State) : State :=
  let cyc := gapCycles (s.tb.mono - s.crank.gapStart)
  let s := { s with crank := { s.crank with gap := false, taking := none } }
  let s := (s.setFld R.CRK_GAP F.CRK_GAP_LAST cyc).setFld R.CRK_GAP F.CRK_GAP_MAX (max cyc (s.fld R.CRK_GAP F.CRK_GAP_MAX))
  let s := (s.setRole seat .captain).seatFails (other seat)
  let s := s.journalRec { action := 0x13, old := s.claimOf (other seat), new := s.claimOf seat }
  let s := s.seatRepaired (other seat) 1 Status.ok
  let ds := s.crank.latched
  ds.foldl State.applyDoorbell { s with crank := { s.crank with latched := [] } }

/-- RELEASE_GAP (R478, R607, R714, R720, R724). -/
def execReleaseGap (s : State) : Host.Outcome State Fault Refusal :=
  match s.crank.taking with
  | some seat => .next (whenDue (s.live && s.crank.gap && !s.crank.halted) s (releaseGap seat s))
  | none => .next s

/-! ### Images in the flash (R818, R819) -/

/-- R819: the bytes of the image in a flash slot, as its header gives its length. -/
def State.slotImage (s : State) (n : Nat) : List Byte :=
  let base := n * 0x1000000
  cellsRead s.flash base (max 64 (min 0x1000000 (leNat (cellsRead s.flash (base + 20) 4))))

/-- R758: `FW_VERSION` of an image. -/
def fwVersion (img : List Byte) : Nat := fieldAt img 8 8

/-- R818: the flash slots tried, in order. -/
def State.bootSlots (s : State) : List Nat :=
  match s.fld R.TOP_STRAP F.TOP_STRAP_BOOT_MODE with
  | 0 => if leNat (cellsRead s.flash 8 8) < leNat (cellsRead s.flash 0x1000008 8) then [1, 0] else [0, 1]
  | 1 => [0]
  | 2 => [1]
  | _ => []

/-- R722, R759: the image a seat's ROM boots from the flash. -/
def State.romImage (s : State) : Option (List Byte) := (s.bootSlots.map s.slotImage).find? s.verifyFw

/-- The image a seat runs. -/
def State.setImage (s : State) (seat : Nat) (img : List Byte) : State :=
  { s with crank := if seat = 1 then { s.crank with imageB := img } else { s.crank with image := img } }

/-! ### Rejoining (R722) -/

/-- R722: a seat is synchronised and attached as stoker. -/
def State.synchronise (s : State) (seat : Nat) : State :=
  let s := s.setRole seat .stoker
  let s := { s with crank := { s.crank with synced := true, detached := false, rejoin := s.crank.rejoin.filter (· != seat),
                                            watchA := {}, watchB := {} } }.bump R.CRK_REJOINS
  s.seatRepaired seat 0 Status.ok

/-- R722, R728: the image a seat boots to rejoin: the staged one in an activation, the running one after an abandoned
activation, else what its ROM finds. -/
def State.rejoinImage (s : State) (seat : Nat) : Option (List Byte) :=
  match s.crank.act with
  | some (_, _, 0) | some (_, _, 3) => if s.verifyFw s.crank.fw then some s.crank.fw else none
  | _ => if s.role seat == .booting then some s.firmware else s.romImage

/-- R719, R722, R728: a seat boots and verifies its firmware, takes a full copy and a stroke copy, and is STOKER; a
detached stoker only synchronises. -/
def rejoin (seat : Nat) (s : State) : State :=
  if s.role seat == .stoker then s.synchronise seat
  else match s.rejoinImage seat with
  | none => { s with crank := { s.crank with rejoin := s.crank.rejoin.filter (· != seat) } }.seatRepaired seat 0
      Status.uncorrectable
  | some img =>
    let s := (s.setImage seat img).synchronise seat
    match s.crank.act with
    | some (key, t, 0) => { s with crank := { s.crank with act := some (key, t, 1) } }
    | some (_, _, 3) => { s with crank := { s.crank with act := none } }
    | _ => s

/-- REJOIN (R719, R722, R728). -/
def execRejoin (seat : Nat) (s : State) : Host.Outcome State Fault Refusal :=
  match s.captain with
  | some cap =>
    .next (whenDue (s.live && decide (seat = other cap) && !s.crank.gap && !s.crank.halted && s.crank.rejoin.contains seat) s
      (rejoin seat s))
  | none => .next s

/-- R722: a write of `CRK_CTL`: `REJOIN` reboots a FAILED seat; `LOCK` is set by a 1. -/
def crkCtlWrite (val : Nat) (s : State) : State :=
  let s := if bitAt val 63 then s.setFld R.CRK_CTL F.CRK_CTL_LOCK 1 else s
  if bitAt val 0 then
    if s.role 0 == .failed then s.askRejoin 0 else if s.role 1 == .failed then s.askRejoin 1 else s
  else s

/-- CRK_REJOIN_WRITE (R722). -/
def execCrkRejoinWrite (who : Who) (val : Nat) (s : State) : Host.Outcome State Fault Refusal :=
  .next (whenDue (s.live && reaches who && bitAt val 0) s ((crkCtlWrite val s).journalView who R.CRK_CTL
    (s.rd R.CRK_CTL) ((crkCtlWrite val s).rd R.CRK_CTL)))

/-! ### Changing the firmware (R725 to R730) -/

/-- R725, R726: `FW_STAGE`; `bytes` are what the read of `ADDR` returned, none when it failed. -/
def fwStage (key : Nat) (bytes : Option (List Byte)) (c : Cmd) (s : State) : State :=
  let len := c.p 8 4
  let k := s.crank
  let had := if k.fwNew then [] else k.fw
  let drop (s : State) : State := { s with crank := { s.crank with fw := [], fwNew := true, fwStaged := false } }
  if !hostFits (c.p 0 8) len then s.completeCmd key Status.invalidField (c.fieldResidue 0)
  else if 16777216 < had.length + len then (drop s).completeCmd key Status.invalidField (c.fieldResidue 8)
  else match bytes with
  | none => (s.cplFail (Tab.at s.queues c.g).port).completeCmd key Status.linkLost
  | some b =>
    let img := had ++ padTo b len
    let last := bitAt (c.p 12 1) 0
    if !last then
      { s with crank := { k with fw := img, fwNew := false, fwStaged := false } }.completeCmd key Status.ok 0 img.length
    else if s.verifyFw img then
      { s with crank := { k with fw := img, fwNew := true, fwStaged := true } }.completeCmd key Status.ok 0 img.length
    else (drop s).completeCmd key Status.authFailed

/-- FW_STAGE (R725, R726, R755, R759). -/
def execFwStage (key : Nat) (bytes : Option (List Byte)) (s : State) : Host.Outcome State Fault Refusal :=
  match s.cmdDue key 0x18 with
  | some c => .next (fwStage key bytes c s)
  | none => .next s

/-- R727: why `FW_ACTIVATE` is refused. -/
def State.activateRefused (s : State) (c : Cmd) : Option Nat :=
  let k := s.crank
  if !k.fwStaged then some Status.authFailed
  else if !(s.stoker.isSome && k.synced && !k.detached) || k.act.isSome then some Status.busy
  else if fieldAt k.fw 5 1 ≠ fieldAt s.firmware 5 1 ∧ bitAt (c.p 0 1) 0 = false
      ∧ s.queues.any (fun e => e.1 != 0 && e.2.st != .absent && !s.queueIdle e.1) then some Status.queuesNotIdle
  else none

/-- R823: the flash slot that takes the activated image. -/
def State.flashTarget (s : State) : Nat :=
  if !s.verifyFw (s.slotImage 0) then 0
  else if !s.verifyFw (s.slotImage 1) then 1
  else if fwVersion (s.slotImage 0) < fwVersion (s.slotImage 1) then 0 else 1

/-- R823: the activated image is written to the flash; a write that fails leaves its slot's header open. -/
def State.flashImage (s : State) (img : List Byte) (ok : Bool) : State :=
  let base := s.flashTarget * 0x1000000
  if ok then { s with flash := cellsWrite s.flash base img }
  else
    let d := s.draw
    { d.2 with flash := cellsWrite d.2.flash base (le d.1 64) }.raise R.TOP_ERR F.TOP_ERR_FLASH

/-- R728 step 1: the stoker takes the role BOOTING. -/
def State.activate (s : State) (key st : Nat) : State :=
  let s := (s.beginCmd key).setRole st .booting
  let s := { s with crank := { s.crank with synced := false, act := some (key, s.tb.mono, 0) } }
  (s.askRejoin st).freeStrokes

/-- R730: the activation is done; the old captain rejoins (R728 step 4). -/
def State.activated (s : State) (key : Nat) (c : Cmd) (flash : Bool) : State :=
  let old := match s.captain with | some cap => if cap = 1 then s.crank.image else s.crank.imageB | none => []
  let t := (s.crank.act.getD (key, 0, 2)).2.1
  let s := { s with crank := { s.crank with act := some (key, t, 3), fwNew := true } }
  let s := s.journalRec (c.journal 0x0E 0xFFFF 0 (fwVersion old) (fwVersion s.crank.fw))
  (s.finishCmd key Status.ok).flashImage s.crank.fw flash

/-- R727 to R730: `FW_ACTIVATE` begins; once its stoker is synchronised, that seat takes over; after the gap it is done. -/
def fwActivate (key : Nat) (flash : Bool) (c : Cmd) (s : State) : State :=
  if !c.started then
    match s.activateRefused c, s.stoker with
    | some st, _ => s.completeCmd key st
    | none, some st => s.activate key st
    | none, none => s
  else match s.crank.act, s.stoker with
    | some (k, t, 1), some st =>
      if k ≠ key then s else { s with crank := { s.crank with act := some (key, t, 2), taking := some st } }
    | some (k, _, 2), _ => if k ≠ key ∨ s.crank.gap ∨ s.crank.taking.isSome then s else s.activated key c flash
    | _, _ => s

/-- FW_ACTIVATE (R727 to R730, R823): `flash` says whether the write of the image to the flash verifies. -/
def execFwActivate (key : Nat) (flash : Bool) (s : State) : Host.Outcome State Fault Refusal :=
  match s.cmdDue key 0x19 with
  | some c => .next (fwActivate key flash c s)
  | none => .next s

/-- R730: the activation is abandoned; the stoker reboots the running image. -/
def fwAbandon (key : Nat) (s : State) : State :=
  let st := match s.captain with | some cap => other cap | none => 1
  let s := (s.setRole st .booting).askRejoin st
  let s := { s with crank := { s.crank with act := none, synced := false } }
  (s.raise R.CRK_ERR F.CRK_ERR_FW_FAIL).freeStrokes.finishCmd key Status.uncorrectable

/-- FW_ACTIVATE_TIMEOUT (R730): the first two steps have not ended within 2,000 ms. -/
def execFwActivateTimeout (s : State) : Host.Outcome State Fault Refusal :=
  match s.crank.act with
  | some (key, t, 0) => .next (whenDue (s.serving && decide (t + 2000000000 ≤ s.tb.mono)) s (fwAbandon key s))
  | _ => .next s

/-! ### Registers -/

/-- `CRK_STAT`. -/
def State.crkStat (s : State) : Nat :=
  s.crank.roleA.code + 4 * s.crank.roleB.code + 16 * b2n s.crank.gap + 32 * b2n (s.crank.synced && !s.crank.detached)
    + 64 * b2n s.crank.fwStaged + 128 * b2n s.crank.act.isSome + 256 * b2n s.pins.grantA + 512 * b2n s.pins.grantB

end Sys2Proof.Machine
end

