-- ==== Sys2Proof/Machine/ChainOps.lean ====
section
/-! DEFINITION. The Chain without its accesses: descriptors, bursts, the states of a channel, read-backs (R678 to R688,
R702; 15_memory_chain_sconce.md). -/
namespace Sys2Proof.Machine

/-! ### Descriptors -/

/-- A field of word `j` of the active set of channel `c`. -/
def State.chnA (s : State) (c j lo n : Nat) : Nat := bitsOf (s.rd (R.CHN_A c j)) lo n

/-- R678: the counts n0, n1 and n2 and `ELEM`. -/
def State.chnElem (s : State) (c : Nat) : Nat := s.chnA c 6 32 13
def State.chnN0 (s : State) (c : Nat) : Nat := s.chnA c 5 0 32 + 1
def State.chnN1 (s : State) (c : Nat) : Nat := s.chnA c 5 32 32 + 1
def State.chnN2 (s : State) (c : Nat) : Nat := s.chnA c 6 0 32 + 1

/-- The bytes of the transfer. -/
def State.chnTotal (s : State) (c : Nat) : Nat := s.chnElem c * s.chnN0 c * s.chnN1 c * s.chnN2 c

/-- Whether the source (`dst` false) or destination lies in the host space. -/
def State.chnHost (s : State) (c : Nat) (dst : Bool) : Bool := (if dst then s.chnA c 7 2 2 else s.chnA c 7 0 2) == 1

/-- `PORT`, `INSTANCE` and `GENERATION`. -/
def State.chnPort (s : State) (c : Nat) : Nat := s.chnA c 7 4 3
def State.chnInst (s : State) (c : Nat) : Nat := s.chnA c 7 8 11
def State.chnGen (s : State) (c : Nat) : Nat := s.chnA c 7 32 16

/-- The loop indices of element `e`. -/
def State.chnIndex (s : State) (c e : Nat) : Nat × Nat × Nat :=
  (e % s.chnN0 c, e / s.chnN0 c % s.chnN1 c, e / s.chnN0 c / s.chnN1 c)

/-- R678: the address of element `e` in the source or the destination. -/
def State.chnAddr (s : State) (c : Nat) (dst : Bool) (e : Nat) : Int :=
  let i := s.chnIndex c e
  let stride := fun j => sgn 32 (s.chnA c j (if dst then 32 else 0) 32)
  (s.rd (R.CHN_A c (if dst then 1 else 0)) : Int) + i.1 * stride 2 + i.2.1 * stride 3 + i.2.2 * stride 4

/-- R679: `len` bytes from an address stay in their space. -/
def inSpace (host : Bool) (a : Int) (len : Nat) : Bool :=
  decide (0 ≤ a ∧ a + len ≤ if host then (2 : Int) ^ 64 else (2 : Int) ^ 40)

/-- A piece of a burst as it stands in the transfer: addresses may leave their space. -/
structure RawPiece where
  src : Int
  dst : Int
  len : Nat
deriving DecidableEq, Repr

/-- R680: the pieces of the burst at byte `pos`, `room` bytes left in it, at most `fuel` of them; `at_` is the
destination the next byte must have, once a byte is taken. -/
def State.chnPieces (s : State) (c : Nat) : Nat → Nat → Nat → Option Int → List RawPiece
  | 0, _, _, _ => []
  | fuel + 1, pos, room, at_ =>
    let el := s.chnElem c
    if room = 0 ∨ s.chnTotal c ≤ pos then []
    else
      let e := pos / el
      let o := pos % el
      let d := s.chnAddr c true e + o
      let src := s.chnAddr c false e + o
      let page := (4096 - d % 4096).toNat
      let go := match at_ with | none => true | some x => d == x && decide (d % 4096 ≠ 0)
      if !go then []
      else
        let toPage := if s.chnHost c false then (4096 - src % 4096).toNat else 4096
        let n := min (min (el - o) toPage) (min room page)
        { src := src, dst := d, len := n } :: s.chnPieces c fuel (pos + n) (room - n) (some (d + n))

/-- R680: neighbouring pieces whose sources follow each other within a 4 KiB page are one piece. -/
def joinPieces : List RawPiece → List RawPiece
  | a :: b :: r =>
    match joinPieces (b :: r) with
    | b' :: r' =>
      if a.src + a.len = b'.src ∧ b'.src % 4096 ≠ 0 then { a with len := a.len + b'.len } :: r' else a :: b' :: r'
    | [] => [a]
  | l => l

/-- The next burst of a channel. -/
def State.chnBurst (s : State) (c pos : Nat) : List RawPiece :=
  let fuel := if s.chnHost c false then 256 else 4096
  joinPieces (s.chnPieces c fuel pos 4096 none)

/-! ### States -/

/-- `STATE` of a channel. -/
def State.chnState (s : State) (c : Nat) : Nat := s.fld (R.CHN_CSTAT c) F.CHN_CSTAT_STATE

/-- What a channel is doing, changed. -/
def State.setChain' (s : State) (c : Nat) (f : ChainRun → ChainRun) : State := { s with chains := Tab.upd s.chains c f }

/-- Reads of host memory that are outstanding for a channel answer nothing: source reads, or with `all` its read-back
as well. -/
def State.chnForget (s : State) (c : Nat) (all : Bool := true) : State :=
  { s with mrds := s.mrds.map fun m => if m.chan = some c ∧ (all || !m.readBack) then { m with chan := none } else m }

/-- R683: a transition into IDLE (0) or HALTED (3): residue and position are latched, and the interrupt is set. -/
def State.chnStop (s : State) (c st last done : Nat) : State :=
  let el := s.chnElem c
  let i := s.chnIndex c (done / max el 1)
  let s := s.wr (R.CHN_RESIDUE c) ((s.chnTotal c - done) % 2 ^ 64)
  let s := s.wr (R.CHN_POS0 c) (i.1 + i.2.1 * 2 ^ 32)
  let s := s.wr (R.CHN_POS1 c) (i.2.2 % 2 ^ 32 + done % max el 1 * 2 ^ 32)
  let s := (s.setFld (R.CHN_CSTAT c) F.CHN_CSTAT_STATE st).setFld (R.CHN_CSTAT c) F.CHN_CSTAT_LAST last
  let s := if s.chnA c 7 7 1 = 1 then s.wr R.CHN_IRQ (s.rd R.CHN_IRQ ||| 2 ^ c) else s
  { s.chnForget c with chains := Tab.del s.chains c }

/-- R682: the shadow set is copied into the active set, and the copy starts. -/
def State.chnStart (s : State) (c : Nat) (chained : Bool) : State :=
  let s := (List.range 8).foldl (fun s j => s.wr (R.CHN_A c j) (s.rd (R.CHN_D c j))) s
  let s := (s.setFld (R.CHN_CSTAT c) F.CHN_CSTAT_ARMED 0).setFld (R.CHN_CSTAT c) F.CHN_CSTAT_STATE 1
  let s := s.setFld (R.CHN_CSTAT c) F.CHN_CSTAT_CHAINED (b2n chained)
  { s with chains := Tab.put s.chains c {} }

/-- R682: an IDLE channel whose shadow set is armed starts. -/
def State.chnIdle (s : State) (c : Nat) : State :=
  if s.chnState c = 0 ∧ s.bit (R.CHN_CSTAT c) F.CHN_CSTAT_ARMED then s.chnStart c false else s

/-- R685: a bus error. -/
def State.chnError (s : State) (c addr dir cause : Nat) (host : Bool) (done : Nat) : State :=
  let s := s.wr (R.CHN_FAILADDR c) (addr % 2 ^ 64)
  let s := s.wr (R.CHN_FAILDIR c) (dir + 4 * cause + 32 * b2n host)
  (s.chnStop c 3 3 done)

/-- R683: the transfer is complete. -/
def State.chnDone (s : State) (c : Nat) : State :=
  let done := s.chnTotal c
  if s.bit (R.CHN_CSTAT c) F.CHN_CSTAT_ARMED then
    let s := s.setFld (R.CHN_CSTAT c) F.CHN_CSTAT_LAST 1
    (s.chnForget c).chnStart c true
  else s.chnStop c 0 1 done

/-- R687: the descriptor's generation is no longer current. -/
def State.chnStale (s : State) (c : Nat) : State :=
  let s' := { s with held := s.held.filter fun h => h.what != HeldFor.chain c }
  (s'.chnStop c 0 4 (Tab.at s.chains c).pos).chnIdle c

/-- R687: the channels whose descriptors name an instance become IDLE, with `LAST` STALE. -/
def State.chainsStale (s : State) (inst : Nat) : State :=
  s.chains.foldl (fun s e => if s.chnInst e.1 = inst ∧ !s.fresh inst (s.chnGen e.1) then s.chnStale e.1 else s) s

/-- R682 to R684, R688: a write of `CHN_CCTLc`. -/
def chainCtlWrite (c val : Nat) (s : State) : State :=
  let armed := s.bit (R.CHN_CSTAT c) F.CHN_CSTAT_ARMED
  let s := if bitAt val 2 ∧ s.chnState c = 3 then
      let s := s.setFld (R.CHN_CSTAT c) F.CHN_CSTAT_STATE 0
      (if s.chnA c 7 7 1 = 1 then s.wr R.CHN_IRQ (s.rd R.CHN_IRQ ||| 2 ^ c) else s).chnIdle c
    else s
  let s := if bitAt val 1 ∧ s.chnState c = 1 then
      let s := (s.setFld (R.CHN_CSTAT c) F.CHN_CSTAT_STATE 2).setFld (R.CHN_CSTAT c) F.CHN_CSTAT_ARMED 0
      (s.chnForget c false).setChain' c fun k => { k with burst := [], want := [] }
    else s
  if bitAt val 0 then
    if armed then s.raise R.CHN_ERR F.CHN_ERR_SHADOW_BUSY
    else (s.setFld (R.CHN_CSTAT c) F.CHN_CSTAT_ARMED 1).chnIdle c
  else s

/-- R17, R688, R702: a write of word `j` of a shadow set. -/
def chainWordWrite (c j val : Nat) (s : State) : State :=
  let off := R.CHN_D c j
  let old := s.rd off
  if s.bit (R.CHN_CSTAT c) F.CHN_CSTAT_ARMED then s.raise R.CHN_ERR F.CHN_ERR_SHADOW_BUSY
  else if j = 6 then
    s.wr off (val % 2 ^ 45)
  else if j = 7 then
    let v := putBits (val % 2 ^ 48) 19 13 0
    let keep := fun (v : Nat) (f : Nat × Nat) (bad : Bool) => if bad then putBits v f.1 f.2 (bitsOf old f.1 f.2) else v
    let b0 := decide (2 ≤ bitsOf v 0 2)
    let b1 := decide (2 ≤ bitsOf v 2 2)
    let b2 := decide (6 ≤ bitsOf v 4 3)
    let s := s.wr off (keep (keep (keep v (0, 2) b0) (2, 2) b1) (4, 3) b2)
    if b0 || b1 || b2 then s.raise R.CHN_ERR F.CHN_ERR_BADCFG else s
  else s.wr off val

/-! ### Read-backs (R681, R684, R686) -/

/-- The host address of the last byte a channel has written. -/
def State.chnLast (s : State) (c : Nat) : Nat :=
  let p := (Tab.at s.chains c).pos - 1
  let el := max (s.chnElem c) 1
  (s.chnAddr c true (p / el) + (p % el : Nat)).toNat % 2 ^ 64

/-- R681, R684: the writes of a channel to the host are all issued and wait for the read-back. -/
def State.chnAskDue (s : State) (c : Nat) : Bool :=
  let k := Tab.at s.chains c
  s.chnHost c true && !k.asked && k.burst.isEmpty && decide (0 < k.pos)
    && (s.chnState c == 2 || (s.chnState c == 1 && k.pos == s.chnTotal c))

/-- R681: the last byte written is read back. -/
def State.chnAsk (s : State) (c : Nat) : State :=
  if s.chnAskDue c && s.hostUp (s.chnPort c) then
    match s.sendMrd (s.chnPort c) (s.chnLast c) 1 (s.chnInst c) (s.chnGen c) { chan := some c } with
    | some (_, s) => s.setChain' c fun k => { k with asked := true }
    | none => s
  else s

/-- R681, R684: the read-back of a channel has come with success. -/
def State.chnConfirmed (s : State) (c : Nat) : State :=
  let s := { s with held := s.held.filter fun h => h.what != HeldFor.chain c }
  if s.chnState c = 1 then s.chnDone c
  else if s.chnState c = 2 then s.chnStop c 0 2 (Tab.at s.chains c).pos
  else s

/-- R639, R685: a read of host memory of a channel has failed: a source read or its read-back. -/
def State.chnReadFailed (s : State) (c : Nat) (m : Mrd) : State :=
  let k := Tab.at s.chains c
  let s := { s with held := s.held.filter fun h => h.what != HeldFor.chain c }
  if m.readBack then s.chnError c (s.chnLast c) 3 2 true k.start
  else s.chnError c ((k.burst.getD m.key {}).src) 1 2 true k.pos

/-- R680: source bytes of a burst have come. -/
def State.chnFill (s : State) (c i : Nat) (bytes : List Byte) : State :=
  s.setChain' c fun k => { k with want := k.want.map fun w => if w.1 = i then (i, bytes) else w }

end Sys2Proof.Machine
end

