-- ==== Sys2Proof/Machine/Exchange.lean ====
section
/-! DEFINITION. Exchanges: sending records, flits and credits, landing blocks, and the Paceline (R322 to R334, R650 to
R656; 07_joins_exchanges.md, 14_molmi_link.md). -/
namespace Sys2Proof.Machine

/-! ### Routes -/

/-- R651: the device's own Paceline id. -/
def State.ownDev (s : State) : Nat := s.fld R.MLK0_PACE F.MLK0_PACE_DEVICE_ID

/-- R653: the port of a device's route, when the route entry is valid. -/
def State.routeOf (s : State) (d : Nat) : Option Nat :=
  if d < 16 ∧ s.bit (R.MLK0_ROUTE d) F.MLK0_ROUTE_VALID then some (s.fld (R.MLK0_ROUTE d) F.MLK0_ROUTE_PORT) else none

/-- R654: the peer's instance and generation bound to an instance on a device. -/
def State.bindOf (s : State) (inst d : Nat) : Option (Nat × Nat) :=
  ((List.range 64).find? fun k =>
    s.bit (R.MLK0_BIND k) F.MLK0_BIND_VALID && s.fld (R.MLK0_BIND k) F.MLK0_BIND_LOCAL_INST == inst
      && s.fld (R.MLK0_BIND k) F.MLK0_BIND_PEER_DEV == d).map fun k =>
    (s.fld (R.MLK0_BIND k) F.MLK0_BIND_PEER_INST, s.fld (R.MLK0_BIND k) F.MLK0_BIND_PEER_GEN)

/-- The port is ACTIVE in PEER mode (R653). -/
def State.peerUp (s : State) (port : Nat) : Bool :=
  decide (port < 6) && s.fld (R.MLK_STAT port) F.MLK_STAT_STATE == 5 && s.fld (R.MLK_CFG port) F.MLK_CFG_MODE == 1

/-! ### Credits and flits -/

/-- R330: the key of a credit account. -/
def creditKey (dest frm : Nat) : Nat := 74 * dest + frm

/-- R330: credits left of the 8 that lantern `to` grants port `frm`. -/
def State.creditsLeft (s : State) (dest frm : Nat) : Nat := 8 - Tab.at s.credits (creditKey dest frm)

/-- Record bytes cut into flits of 112 bytes. -/
def flitPieces (bs : List Byte) : List (List Byte) :=
  (List.range (ceilDiv bs.length 112)).map fun i => slice bs (112 * i) 112

/-- R330: flits handed to the spoke network, one credit each. -/
def State.putFlits (s : State) (f : XFlit) : State :=
  let ps := flitPieces f.bytes
  { s with flits := s.flits ++ ps.map fun b => { f with bytes := b },
           credits := Tab.edit s.credits (creditKey f.dest f.frm) fun n => n + ps.length }

/-- R330, R654: the 128 bytes of an exchange flit: a header that names the exchange, task, epoch, instance and
generation (its layout is the model's, log entry 60), then the record bytes. -/
def flitBytes (exch task epoch inst gen : Nat) (bs : List Byte) : List Byte :=
  le exch 2 ++ le epoch 1 ++ le bs.length 1 ++ le task 4 ++ le inst 2 ++ le gen 2 ++ zeros 4 ++ padTo bs 112

/-- R633: a `PEER_XCH` packet sent on a port. -/
def State.sendPeer (s : State) (p : Sent) : State :=
  let s : State := { s with sent := s.sent ++ [p] }
  match p with
  | .peer port kind src dst hops inst gen slot task exch epoch lost flits bytes =>
    s.transmit port 0 (packet 9 0 (src + 16 * dst + 256 * hops) gen
      [(8, 1, kind), (10, 1, slot), (12, 4, task), (16, 2, exch), (18, 1, epoch), (20, 1, lost), (24, 4, flits)]
      (if kind = 1 then flitBytes exch task epoch inst gen bytes else []))
  | _ => s

/-! ### Sending -/

/-- R322, R331: the port's bytes read into whole records: slots are freed as their bytes are taken. -/
def drawRecord (s : State) (pos lx : Nat) (p : Port) : Nat → Port
  | 0 => p
  | fuel + 1 =>
    if lx ≤ p.carry.length ∨ p.filled = 0 then p
    else
      let n := p.counts.headD 32
      let bs := s.peek (waxKey pos (p.slotEa 0)) n
      drawRecord s pos lx { p with carry := p.carry ++ bs, head := (p.head + 1) % p.len, filled := p.filled - 1,
                                   counts := p.counts.drop 1 } fuel

/-- R324: the record's way: a lantern on the device, a peer device with its port and binding, or nowhere. -/
inductive Route where
  | lantern (n slot : Nat)
  | peer (dev port inst gen slot : Nat)
  | nowhere

/-- R323, R324, R654: where a record with hash `h` goes under exchange descriptor `d`. -/
def State.recordRoute (s : State) (img : List Byte) (d h inst : Nat) : Route :=
  let slot := Img.xch img d (32 + h % 64) 1
  let dev := Img.xch img d (96 + (h / 2 ^ Img.xch img d 4 1) % 64) 1
  if dev = s.ownDev then
    match s.lanternOf slot with | some n => .lantern n slot | none => .nowhere
  else match s.routeOf dev, s.bindOf inst dev with
    | some port, some (pi, pg) => .peer dev port pi pg slot
    | _, _ => .nowhere

/-- R655: flits sent to a peer are counted for the commit marker. -/
def addPeer (ps : List (Nat × Nat × Bool × Bool)) (dev n : Nat) : List (Nat × Nat × Bool × Bool) :=
  if ps.any (·.1 == dev) then ps.map fun p => if p.1 = dev then (dev, p.2.1 + n, p.2.2) else p else ps ++ [(dev, n, false, false)]

/-- R323, R331, R333: one record of the port leaves, when there is a whole one and its destination has credit. -/
def exchangeSend (pos p stall : Nat) (s : State) : State :=
  let k := s.wick pos
  let n := pos / 17
  let c := Tab.at s.ctxs k.ctx
  let img := s.imgOf (Tab.at s.runs c.run)
  let d := Img.st img c.stage (192 + p) 1
  let lx := Img.xch img d 2 2
  let s := s.bump (R.LAN_XCH_STALLS n) stall
  let port := drawRecord s pos lx (k.port (0x020 + p)) 1024
  let keep (s : State) (port : Port) : State := s.setWick pos fun k => k.setPort (0x020 + p) fun _ => port
  if port.carry.length < lx ∨ lx = 0 then
    (keep s (if k.st = 3 ∧ port.filled = 0 then { port with carry := [] } else port)).settleWick pos
  else
    let rec_ := port.carry.take lx
    let sent : Port := { port with carry := port.carry.drop lx, stream := port.stream + lx }
    let f : XFlit := { frm := n, run := c.run, desc := d, task := k.ctx, epoch := c.epoch, inst := c.inst, gen := c.gen,
                       dev := s.ownDev, bytes := rec_ }
    match s.recordRoute img d (fieldAt rec_ 0 8) c.inst with
    | .nowhere =>
      ((keep s port).raise (R.LAN_XCH_ERR n) F.LAN_XCH_ERR_BAD_ROUTE).trapAt pos (s.codeWord n k.pc) 1 port.stream false
    | .lantern dest _ =>
      if s.creditsLeft dest n < (flitPieces rec_).length then keep s port
      else ((keep (s.putFlits { f with dest := dest }) sent).bump (R.LAN_XCH_RECS_OUT n)).settleWick pos
    | .peer dev mp pi pg slot =>
      if !s.peerUp mp then keep s port
      else
        let ps := flitPieces rec_
        let s := ps.foldl (fun s b => s.sendPeer (.peer mp 1 s.ownDev dev 3 pi pg slot k.ctx (Img.xch img d 0 2) c.epoch 0 0 b)) s
        let s := s.setCtx k.ctx fun c => { c with peers := addPeer c.peers dev ps.length }
        let s := s.tallyAdd c.inst fun x => { x with link := x.link + 128 * ps.length }
        ((keep s sent).bump (R.LAN_XCH_RECS_OUT n)).settleWick pos

/-- EXCHANGE_SEND (R322 to R324, R330, R331, R333): the engine of wick `w`'s lantern reads port 0x020 + `p`, after
`stall` core cycles without a credit. -/
def execExchangeSend (w p stall : Nat) (s : State) : Host.Outcome State Fault Refusal :=
  let k := s.wick w
  .next (whenDue (s.live && decide (k.st = 1 ∨ k.st = 3) && decide (p < 16) && k.ports.any (·.num == 0x020 + p)
      && s.bit (R.LAN_XCH_CTL (w / 17)) F.LAN_XCH_CTL_EN) s (exchangeSend w p stall s))

/-! ### Landing -/

/-- R325: the header of a landing block. -/
def blockHeader (exch : Nat) (b : Block) : List Byte :=
  le exch 2 ++ le b.part 1 ++ le b.epoch 1 ++ le b.task 4 ++ le b.inst 2 ++ le b.gen 2 ++ le b.bytes 4 ++ le b.st 1
    ++ le b.dev 1 ++ zeros 46

/-- Bytes written to a landing block's memory: the lantern store, or HBM through the lantern's Sconce (R689). -/
def State.blockWrite (s : State) (b : Block) (a : Nat) (bs : List Byte) : State :=
  if b.hbm then s.sconceWrite b.lantern a bs else s.poke a bs

/-- R326: a free landing block in the landing area of exchange descriptor `d` in the store of lantern `n`. -/
def State.freeHere (s : State) (run d n : Nat) : Option Nat :=
  let img := s.imgOf (Tab.at s.runs run)
  ((List.range (Img.xch img d 12 2)).map fun i => lstoreKey n (Img.xch img d 8 4 + 4096 * i)).find? fun a =>
    (Tab.get s.blocks a).isNone

/-- R326: a free landing block in the spill area of exchange descriptor `d`. -/
def State.freeSpill (s : State) (run d : Nat) : Option Nat :=
  let r := Tab.at s.runs run
  let no := Img.xch (s.imgOf r) d 6 2
  match r.area no with
  | none => none
  | some (base, size) =>
    if size < 4096 * (s.spillUse run no + 1) then none
    else ((List.range (size / 4096)).map fun i => base + 4096 * i).find? fun a => (Tab.get s.blocks a).isNone

/-- R350: partition `part` of exchange descriptor `d` is the probe side of a spilled partition. -/
def State.probeSpills (s : State) (run d part : Nat) : Bool :=
  let r := Tab.at s.runs run
  let img := s.imgOf r
  r.rounds.any fun x => x.part == part && (List.range (Img.stages img)).any fun j =>
    Img.st img j 234 2 == x.hash && Img.st img j 1 1 == 2 && Img.st img j 32 2 == Img.xch img d 0 2

/-- R326, R350: the free landing block an engine takes: in the landing area of its lantern store, else in the spill area;
a probe record of a spilled partition goes to the spill area. -/
def State.freeLanding (s : State) (run d n part : Nat) : Option (Nat × Bool) :=
  match if s.probeSpills run d part then none else s.freeHere run d n with
  | some a => some (a, false)
  | none => (s.freeSpill run d).map fun a => (a, true)

/-- R325, R326: a whole record written to a landing block of its producer and partition; `none` when no block is free. -/
def State.landRecord (s : State) (n slot : Nat) (f : XFlit) (rec_ : List Byte) : Option State :=
  let img := s.imgOf (Tab.at s.runs f.run)
  let part := fieldAt rec_ 0 8 % 64
  let exch := Img.xch img f.desc 0 2
  let fits (b : Block) : Bool :=
    b.run == f.run && b.desc == f.desc && b.lantern == n && b.part == part && b.epoch == f.epoch && b.task == f.task
      && b.dev == f.dev && b.st == 1 && b.round == 0 && decide (b.bytes + rec_.length ≤ 4032)
  let fill (s : State) (a : Nat) (b : Block) : State :=
    let b' := { b with bytes := b.bytes + rec_.length }
    let s := (s.blockWrite b (a + 64 + b.bytes) rec_).blockWrite b a (blockHeader exch b')
    let s := if b.hbm then s.tallyAdd f.inst fun c => { c with hbmWritten := c.hbmWritten + rec_.length } else s
    { s with blocks := Tab.put s.blocks a b' }.bump (R.LAN_XCH_RECS_IN n)
  match s.blocks.find? fun e => fits e.2 with
  | some (a, b) => some (fill s a b)
  | none =>
    match s.freeLanding f.run f.desc n part with
    | none => none
    | some (a, hbm) =>
      let b : Block := { run := f.run, desc := f.desc, lantern := n, slot := slot, part := part, epoch := f.epoch,
                         task := f.task, inst := f.inst, gen := f.gen, dev := f.dev, hbm := hbm }
      let s := if hbm then s.bump (R.LAN_XCH_SPILLED n) else s
      some (fill s a b)

/-- Two flits of one sender, producer and exchange. -/
def sameFlow (a b : XFlit) : Bool :=
  a.frm == b.frm && a.dest == b.dest && a.run == b.run && a.desc == b.desc && a.task == b.task && a.epoch == b.epoch
    && a.dev == b.dev && a.inst == b.inst && a.gen == b.gen

/-- R325, R328: whole records of the bytes at hand, in order; the bytes left. -/
def State.landAll (s : State) (n slot lx : Nat) (f : XFlit) : Nat → List Byte → State × List Byte
  | 0, bs => (s, bs)
  | fuel + 1, bs =>
    if bs.length < lx then (s, bs)
    else if f.gen ≠ s.genOf f.inst then (s.bump (R.LAN_XCH_STALE n)).landAll n slot lx f fuel (bs.drop lx)
    else match s.landRecord n slot f (bs.take lx) with
      | some s => s.landAll n slot lx f fuel (bs.drop lx)
      | none => ((s.raise (R.LAN_XCH_ERR n) F.LAN_XCH_ERR_SPILL_FULL).failRun f.run Status.spillFull, [])

/-- R655: a peer is answered once every flit its marker counts is written. -/
def State.markReady (s : State) (p : PeerIn) : State :=
  match p.mark with
  | some m =>
    if p.flits < m then s
    else
      let mine := fun (b : Block) => b.dev == p.dev && b.dev != s.ownDev && b.task == p.task
      let old := s.blocks.filter fun e => mine e.2 && e.2.epoch != p.epoch && e.2.st != 3
      let s := old.foldl (fun s e => s.freeBlock e.1) s
      let good := s.blocks.filter fun e => mine e.2 && e.2.epoch == p.epoch
      let s := good.foldl (fun s e => s.blockWrite e.2 (e.1 + 16) [3]) s
      let s := { s with blocks := s.blocks.map fun (e : Nat × Block) => if mine e.2 ∧ e.2.epoch = p.epoch then (e.1, { e.2 with st := 3 }) else e,
                        peerIns := s.peerIns.filter fun q => !(q.dev == p.dev && q.task == p.task && q.epoch == p.epoch) }
      match s.routeOf p.dev with
      | some port => s.sendPeer (.peer port 3 s.ownDev p.dev 3 0 0 0 p.task 0 p.epoch 0 0 [])
      | none => s
  | none => s

/-- R655: a change to what has arrived of a peer's task. -/
def State.peerIn (s : State) (dev task epoch port : Nat) (f : PeerIn → PeerIn) : State :=
  let is (q : PeerIn) : Bool := q.dev == dev && q.task == task && q.epoch == epoch
  let p := f ((s.peerIns.find? is).getD { dev := dev, task := task, epoch := epoch, port := port })
  { s with peerIns := s.peerIns.filter (fun q => !is q) ++ [p] }.markReady p

/-- R325 to R332: a flit's bytes reach landing blocks, and its credit returns. -/
def flitReceive (i : Nat) (f : XFlit) (s : State) : State :=
  let s := { s with flits := s.flits.eraseIdx i, credits := Tab.edit s.credits (creditKey f.dest f.frm) fun n => n - 1 }
  let r := Tab.at s.runs f.run
  let img := s.imgOf r
  let part := (s.xparts.find? (sameFlow f)).getD f
  let bs := (if (s.xparts.any (sameFlow f)) then part.bytes else []) ++ f.bytes
  let s := { s with xparts := s.xparts.filter fun x => !sameFlow f x }
  if !r.active then s
  else
    let lx := Img.xch img f.desc 2 2
    let out := s.landAll f.dest ((s.slotOf f.dest).getD 0) lx f 64 bs
    let s := if out.2.isEmpty then out.1 else { out.1 with xparts := out.1.xparts ++ [{ f with bytes := out.2 }] }
    if f.dev = s.ownDev then s
    else s.peerIn f.dev f.task f.epoch (f.frm - 68) fun p => { p with flits := p.flits + 1 }

/-- EXCHANGE_FLIT_RECEIVE (R325 to R332): flit `i` of the spoke network, the first of its sender to its lantern. -/
def execExchangeFlitReceive (i : Nat) (s : State) : Host.Outcome State Fault Refusal :=
  match s.flits[i]? with
  | none => .next s
  | some f =>
    .next (whenDue (s.live && s.bit (R.LAN_XCH_CTL f.dest) F.LAN_XCH_CTL_EN
        && !((s.flits.take i).any fun e => e.frm == f.frm && e.dest == f.dest)) s (flitReceive i f s))

/-! ### The Paceline -/

/-- R653: a packet for another device is forwarded with `HOPS` reduced, or discarded and its sender told. -/
def State.forwardPeer (s : State) (port kind src dst hops inst gen slot task exch epoch lost flits : Nat)
    (bytes : List Byte) : State :=
  let via := match s.routeOf dst with | some p => if s.peerUp p ∧ 0 < hops then some p else none | none => none
  match via with
  | some p =>
    (s.sendPeer (.peer p kind src dst (hops - 1) inst gen slot task exch epoch lost flits bytes)).bump (R.MLK_FORWARDS port)
  | none =>
    let s := s.bump (R.MLK_HOP_DROPS port)
    match s.routeOf src with
    | some p => s.sendPeer (.peer p 4 s.ownDev src 3 0 0 0 0 0 0 dst 0 [])
    | none => s

/-- R634: peer packets are taken on an ACTIVE peer port. -/
def State.peerDue (s : State) (port : Nat) : Bool := s.live && s.peerUp port

/-- R653, R654: the run of the own device that an arriving flit serves. -/
def State.runFor (s : State) (inst exch : Nat) : Option (Nat × Nat) :=
  s.runs.findSome? fun e =>
    if e.2.inst = inst ∧ e.2.active then (Img.xchOf (s.imgOf e.2) exch).map fun d => (e.1, d) else none

/-- R653: the packet is delivered to its slot as an exchange flit. -/
def recordsDeliver (port src inst gen slot task exch epoch : Nat) (bytes : List Byte) (s : State) : State :=
  match s.lanternOf slot, s.runFor inst exch with
  | some n, some (run, d) =>
    if s.creditsLeft n (68 + port) = 0 then s
    else
      let s := s.tallyAdd inst fun x => { x with link := x.link + 128 }
      s.putFlits { frm := 68 + port, dest := n, run := run, desc := d, task := task, epoch := epoch, inst := inst, gen := gen,
                   dev := src, bytes := bytes.take 112 }
  | _, _ => s

/-- RECORDS (R325, R326, R333, R653): a `PEER_XCH RECORDS` packet on a port. -/
def execRecordsPacket (port src dst hops inst gen slot task exch epoch : Nat) (bytes : List Byte) (s : State) :
    Host.Outcome State Fault Refusal :=
  .next (whenDue (s.peerDue port) s
    (if dst = s.ownDev then recordsDeliver port src inst gen slot task exch epoch bytes s
     else s.forwardPeer port 1 src dst hops inst gen slot task exch epoch 0 0 bytes))

/-- MARK (R655): a commit marker. -/
def execMarkPacket (port src dst hops task epoch flits : Nat) (s : State) : Host.Outcome State Fault Refusal :=
  .next (whenDue (s.peerDue port) s
    (if dst = s.ownDev then s.peerIn src task epoch port fun p => { p with mark := some flits, port := port }
     else s.forwardPeer port 2 src dst hops 0 0 0 task 0 epoch 0 flits []))

/-- R655: the peer has acknowledged the marker of a task's run. -/
def markAck (src task epoch : Nat) (s : State) : State :=
  s.setCtx task fun c =>
    if c.epoch = epoch then { c with peers := c.peers.map fun p => if p.1 = src then (p.1, p.2.1, true, p.2.2.2) else p }
    else c

/-- MARK_ACK (R334, R655). -/
def execMarkAck (port src dst hops task epoch : Nat) (s : State) : Host.Outcome State Fault Refusal :=
  .next (whenDue (s.peerDue port) s
    (if dst = s.ownDev then markAck src task epoch s
     else s.forwardPeer port 3 src dst hops 0 0 0 task 0 epoch 0 0 []))

/-- R334, R656: the runs that still depend on a lost device fail with `LINK_LOST`. -/
def State.peerLost (s : State) (p : Ctx → Bool) : State :=
  let hit := s.ctxs.filter fun e => e.2.st != .free && e.2.st != .committed && p e.2
  let s := hit.foldl (fun s e =>
    match s.lanternOf e.2.slot with
    | some n => s.raise (R.LAN_XCH_ERR n) F.LAN_XCH_ERR_PEER_LOST
    | none => s) s
  ((hit.map fun e => e.2.run).eraseDups).foldl (fun s r => s.failRun r Status.linkLost) s

/-- UNREACHABLE (R656): `lost` cannot be reached. -/
def execUnreachable (port src dst hops lost : Nat) (s : State) : Host.Outcome State Fault Refusal :=
  .next (whenDue (s.peerDue port) s
    (if dst = s.ownDev then s.peerLost fun c => c.peers.any (·.1 == lost)
     else s.forwardPeer port 4 src dst hops 0 0 0 0 0 0 lost 0 []))

end Sys2Proof.Machine
end

