-- ==== Sys2Proof/Machine/Link.lean ====
section
/-! DEFINITION. Molmi Link: training, lane repair, flits, replay, completions, losing the link (R609 to R659, R853, R854;
14_molmi_link.md). Flits and packets that arrive, measured lanes and what a partner announces are operands. -/
namespace Sys2Proof.Machine

/-! ### States of a port (R616) -/

/-- A port enters a state. -/
def State.portEnter (s : State) (p st : Nat) : State :=
  (s.setFld (R.MLK_STAT p) F.MLK_STAT_STATE st).setPort p fun m => { m with entered := s.tb.mono }

/-- R640, R657, R854: a port leaves ACTIVE: the loss is stamped, and no outstanding read-back confirms anything. -/
def State.portLeave (s : State) (p st : Nat) : State :=
  let s := s.wr (R.MLK_LOSS p) s.now
  let s := (s.portEnter p st).setPort p fun m =>
    { m with lostAt := some s.tb.mono, waiting := [], swapRx := none, swapTx := none, timeouts := [], nak := false }
  let lost := s.mrds.filter fun m => m.port == p && m.readBack
  let s := lost.foldl (fun s m => match m.chan with
    | some c => s.setChain' c fun k => { k with asked := false }
    | none => s) s
  let held := s.held.map fun h => if h.port = p then { h with tag := none, failedAt := none } else h
  { s with held := held, mrds := s.mrds.map fun m => if m.port = p ∧ m.readBack then { m with chan := none } else m }

/-- R616, R639: a port retrains. -/
def State.portRetrain (s : State) (p : Nat) : State := if s.portActive p then s.portLeave p 6 else s

/-- R627: every unacknowledged flit is sent again; when 8 replays in a row bring no advance, the port retrains. -/
def State.replay (s : State) (p : Nat) : State :=
  let m := s.port p
  match m.unacked with
  | [] => s
  | f :: _ =>
    let s := (s.bump (R.MLK_REPLAYS p)).bump (R.MLK_FLITS_TX p) m.unacked.length
    let s : State := { s with sent := s.sent ++ [.replay p f.seq] }
    let n := m.replays + 1
    let s := s.setPort p fun m => { m with replays := n, ackAt := s.tb.mono }
    if 8 ≤ n then (s.setPort p fun m => { m with replays := 0 }).portRetrain p else s

/-- The flits that an `ACK` releases: those up to the number it names (R628). -/
def ackCount (m : MPort) (ack : Nat) : Nat :=
  match m.unacked with
  | [] => 0
  | f :: _ =>
    let n := (ack + 1 + 4096 - f.seq) % 4096
    if n ≤ m.unacked.length then n else 0

/-- R627, R628: `ACK` releases the buffered flits it covers. -/
def State.takeAck (s : State) (p ack : Nat) : State :=
  let n := ackCount (s.port p) ack
  if n = 0 then s
  else s.setPort p fun m => { m with unacked := m.unacked.drop n, ackAt := s.tb.mono, replays := 0 }

/-- R622, R627, R628: an IDLE flit that reports e − 1, with or without `NAK`, and returns credits. -/
def State.sendAck (s : State) (p : Nat) (nak : Bool) : State :=
  let e := s.fld (R.MLK_STAT p) F.MLK_STAT_RX_EXPECT
  let m := s.port p
  let s : State := { s with sent := s.sent ++ [.ack p ((e + 4095) % 4096) nak m.owed] }
  s.setPort p fun m => { m with fresh := 0, reportAt := s.tb.mono, owed := [0, 0, 0, 0], nak := m.nak || nak }

/-- R657, R686, R853: the port is ACTIVE. Its replay buffer is replayed from the partner's `ACK`, unconfirmed writes are
issued again, the Chain reads back again, and whatever waits goes on. -/
def State.portActivate (s : State) (p ack : Nat) (resume : Bool) : State :=
  let s := (s.portEnter p 5).setPort p fun m => { m with lostAt := none, resume := true, ackAt := s.tb.mono }
  let s := if resume then
      let s := s.takeAck p ack
      if (s.port p).unacked.isEmpty then s else s.replay p
    else s
  let s := s.pump p
  if s.fld (R.MLK_CFG p) F.MLK_CFG_MODE = 0 then
    let s := s.reissue p fun _ => true
    s.chains.foldl (fun s c => if s.chnPort c.1 = p then s.chnAsk c.1 else s) s
  else s

/-! ### Training (R611, R615 to R618, R630, R650 to R652) -/

/-- R616: a write of `EN` has an effect in DISABLED, ACTIVE and FAILED. -/
def State.portEnable (s : State) (p : Nat) (en : Bool) : State :=
  let st := s.portState p
  let s := s.setFld (R.MLK_CTL p) F.MLK_CTL_EN (b2n en)
  if en ∧ st = 0 then s.portEnter p 1
  else if !en ∧ st = 5 then s.portLeave p 0
  else if !en ∧ st = 7 then s.portEnter p 0
  else s

/-- PORT_ENABLE (R616): a write of `MLKn_CTL` that sets or clears `EN`. -/
def execPortEnable (who : Who) (p : Nat) (en : Bool) (s : State) : Host.Outcome State Fault Refusal :=
  .next (whenDue (s.live && decide (p < 6)) s (s.journalCsr (s.portEnable p en) who (R.MLK_CTL p)))

/-- RETRAIN (R616): `MLKn_CTL.RETRAIN` written 1, or the partner's request. -/
def execRetrain (p : Nat) (s : State) : Host.Outcome State Fault Refusal :=
  .next (whenDue (s.live && s.portActive p) s (s.portRetrain p))

/-- TRAINING_FRAMES (R616): the partner's frames are seen on `lanes` lanes. -/
def execTrainingFrames (p lanes : Nat) (s : State) : Host.Outcome State Fault Refusal :=
  .next (whenDue (s.live && decide (p < 6 ∧ 4 ≤ lanes ∧ lanes ≤ 9) && s.portState p == 1) s (s.portEnter p 2))

/-- R617: the lanes as EQUALISE measured them. -/
def equaliseDone (p good : Nat) (s : State) : State :=
  let s := s.setFld (R.MLK_STAT p) F.MLK_STAT_LANE_GOOD (good % 512)
  let s := (List.range 9).foldl (fun s l =>
    s.setFld (R.MLK_LANE_STAT p l) F.MLK_LANE_STAT_LOCK (bitsOf good l 1)) s
  if s.portState p = 2 then s.portEnter p 3 else s

/-- EQUALISE_DONE (R616, R617): every lane has settled, or 50 ms have passed; `good` has a bit per physical lane. In
RETRAIN the port stays there. -/
def execEqualiseDone (p good : Nat) (settled : Bool) (s : State) : Host.Outcome State Fault Refusal :=
  .next (whenDue (s.live && decide (p < 6) && (s.portState p == 2 || s.portState p == 6)
      && (settled || decide ((s.port p).entered + 50000000 ≤ s.tb.mono))) s (equaliseDone p good s))

/-- R615: what the receiver has learned of each physical lane: inversion, logical lane, skew. -/
def alignDone (p : Nat) (lanes : List (Bool × Nat × Nat)) (s : State) : State :=
  let s := ((List.range 9).zip lanes).foldl (fun s x =>
    let off := R.MLK_LANE_STAT p x.1
    ((s.setFld off F.MLK_LANE_STAT_INVERTED (b2n x.2.1)).setFld off F.MLK_LANE_STAT_LOGICAL x.2.2.1).setFld off
      F.MLK_LANE_STAT_SKEW x.2.2.2) s
  if s.portState p = 3 then s.portEnter p 4 else s

/-- ALIGN_DONE (R615, R616). -/
def execAlignDone (p : Nat) (lanes : List (Bool × Nat × Nat)) (s : State) : Host.Outcome State Fault Refusal :=
  .next (whenDue (s.live && decide (p < 6) && (s.portState p == 3 || s.portState p == 6)
      && lanes.all fun x => decide ((x.2.1 ≤ 8 ∨ x.2.1 = 15) ∧ x.2.2 ≤ 255)) s (alignDone p lanes s))

/-- R618: the layout of a direction with `n` good lanes: 0 NORMAL, 1 SPARE, 2 X4. -/
def State.layoutFor (s : State) (p n : Nat) : Option Nat :=
  if n = 9 then some 0 else if n = 8 then some 1
  else if 4 ≤ n ∧ s.bit (R.MLK_CTL p) F.MLK_CTL_X4_EN then some 2 else none

/-- The logical lane that lane 8 carries in SPARE: the one bad lane, when it is not lane 8 itself. -/
def swappedLane (layout good : Nat) : Nat :=
  if layout = 1 then ((List.range 8).find? fun l => !bitAt good l).getD 15 else 15

/-- What a partner announces at CONFIG. -/
structure Partner where
  mode : Nat
  dev : Nat
  /-- Its good lanes, and its buffers per channel. -/
  good : Nat
  credits : List Nat
  /-- Whether it resumes the link-layer state, and the last flit it accepted. -/
  resume : Bool
  ack : Nat

/-- R618, R630, R657: layouts are chosen and the port is ACTIVE; link-layer state resumes when both ends keep it. -/
def State.configure (s : State) (p tx rx : Nat) (a : Partner) : State :=
  let off := R.MLK_STAT p
  let good := s.fld off F.MLK_STAT_LANE_GOOD
  let s := (s.setFld off F.MLK_STAT_TX_LAYOUT tx).setFld off F.MLK_STAT_RX_LAYOUT rx
  let s := (s.setFld off F.MLK_STAT_TX_SWAPPED (swappedLane tx a.good)).setFld off F.MLK_STAT_RX_SWAPPED (swappedLane rx good)
  let resume := a.resume && (s.port p).resume
  let s := if resume then s
    else
      let s := (s.setFld off F.MLK_STAT_TX_SEQ 0).setFld off F.MLK_STAT_RX_EXPECT 0
      s.setPort p fun m =>
        { m with credit := a.credits, owed := [0, 0, 0, 0], unacked := [], tx := [], starts := [], rx := [], seek := [],
                 nak := false, fresh := 0, replays := 0 }
  let s := s.portActivate p a.ack resume
  (s.ras.repairing.filter fun e => e.1 == 7 && e.2.1 == p).foldl (fun s e => s.repairOver 7 p e.2.2.1 Status.ok) s

/-- R616, R618, R650 to R652: CONFIG ends. -/
def configAgreement (p : Nat) (a : Partner) (s : State) : State :=
  let peer := s.fld (R.MLK_CFG p) F.MLK_CFG_MODE
  let own := s.fld R.MLK0_PACE F.MLK0_PACE_DEVICE_ID
  let s := if a.mode = 1 then s.setFld (R.MLK_STAT p) F.MLK_STAT_PARTNER_DEV a.dev else s
  if a.mode ≠ peer then (s.raise (R.MLK_ERR p) F.MLK_ERR_MODE_MISMATCH).portEnter p 7
  else if peer = 1 ∧ a.dev = own then (s.raise (R.MLK_ERR p) F.MLK_ERR_ID_CLASH).portEnter p 7
  else
    let bits := fun n => ((List.range 9).filter fun l => bitAt n l).length
    match s.layoutFor p (bits a.good), s.layoutFor p (bits (s.fld (R.MLK_STAT p) F.MLK_STAT_LANE_GOOD)) with
    | some tx, some rx => s.configure p tx rx a
    | _, _ => s.portEnter p 1

/-- CONFIG_AGREEMENT (R616, R618, R630, R640, R650 to R652, R657, R686, R853): the control flits of CONFIG have been
exchanged; the operands are what the partner announces. -/
def execConfigAgreement (p mode dev good : Nat) (credits : List Nat) (resume : Bool) (ack : Nat) (s : State) :
    Host.Outcome State Fault Refusal :=
  .next (whenDue (s.live && decide (p < 6 ∧ mode < 2 ∧ dev < 16 ∧ credits.length = 4 ∧ ack < 4096)
      && (s.portState p == 4 || s.portState p == 6)) s
    (configAgreement p { mode := mode, dev := dev, good := good % 512, credits := credits, resume := resume, ack := ack } s))

/-- TRAIN_TIMEOUT (R617): 250 ms in EQUALISE, ALIGN, CONFIG or RETRAIN. -/
def execTrainTimeout (p : Nat) (s : State) : Host.Outcome State Fault Refusal :=
  .next (whenDue (s.live && decide (p < 6) && [2, 3, 4, 6].contains (s.portState p)
      && decide ((s.port p).entered + 250000000 ≤ s.tb.mono)) s
    ((s.portEnter p 1).bump (R.MLK_TRAIN_FAILS p)))

/-- REFCLK_LOSS (R611): the reference of port `p` is lost; an ACTIVE port goes back to DETECT. -/
def execRefclkLoss (p : Nat) (s : State) : Host.Outcome State Fault Refusal :=
  .next (whenDue (s.live && decide (p < 6) && s.bit (R.MLK_CTL p) F.MLK_CTL_EN) s
    (let s := s.raise (R.MLK_ERR p) F.MLK_ERR_REFCLK
     if s.portActive p then s.portLeave p 1 else s))

/-! ### Lane repair (R619 to R621) -/

/-- A CONTROL message is sent and waits for its answer: kind 0 `SWAP_REQ`, 1 `SWAP_AT`. -/
def State.sendControl (s : State) (p kind arg : Nat) (wait : Bool) : State :=
  let s : State := { s with sent := s.sent ++ [.control p kind arg] }
  if wait then s.setPort p fun m => { m with waiting := m.waiting ++ [(kind, arg, s.tb.mono)] } else s

/-- R619: the receiver asks for logical lane `k` to be swapped. -/
def State.askSwap (s : State) (p k : Nat) : State :=
  if (s.port p).swapRx.isSome then s
  else (s.setPort p fun m => { m with swapRx := some k }).sendControl p 0 k true

/-- The physical lane that carries a logical lane. -/
def State.laneOf (s : State) (p k : Nat) : Option Nat :=
  (List.range 9).find? fun l => s.fld (R.MLK_LANE_STAT p l) F.MLK_LANE_STAT_LOGICAL == k

/-- R619, R621: the lanes are judged over 1 ms: corrected symbols per physical lane, and lanes that lost lock. -/
def laneErrorWindow (p : Nat) (counts : List Nat) (unlocked : Nat) (s : State) : State :=
  let th := s.fld (R.MLK_CFG p) F.MLK_CFG_LANE_TH
  let s := s.setPort p fun m => { m with laneAt := s.tb.mono }
  let s := ((List.range 9).zip counts).foldl (fun s x => s.bump (R.MLK_LANE_FEC p x.1) x.2) s
  let isBad (l : Nat) : Bool := bitAt unlocked l || decide (th < counts.getD l 0)
  let used := (List.range 9).filter fun l => s.fld (R.MLK_LANE_STAT p l) F.MLK_LANE_STAT_LOGICAL != 15
  let bad := used.filter isBad
  let s := bad.foldl (fun s l =>
    let s := if bitAt unlocked l then s.setFld (R.MLK_LANE_STAT p l) F.MLK_LANE_STAT_LOCK 0 else s
    s.setFld (R.MLK_STAT p) F.MLK_STAT_LANE_GOOD (putBits (s.fld (R.MLK_STAT p) F.MLK_STAT_LANE_GOOD) l 1 0)) s
  let logical := (bad.map fun l => s.fld (R.MLK_LANE_STAT p l) F.MLK_LANE_STAT_LOGICAL)
  let spareGood := !(bad.any fun l => s.fld (R.MLK_LANE_STAT p l) F.MLK_LANE_STAT_LOGICAL == 8)
  if s.fld (R.MLK_STAT p) F.MLK_STAT_RX_LAYOUT ≠ 0 then (if bad.isEmpty then s else s.portRetrain p)
  else match logical.find? (· < 8) with
    | some k =>
      if !spareGood then s.portRetrain p
      else if s.bit (R.MLK_CTL p) F.MLK_CTL_SWAP_EN then s.askSwap p k else s
    | none => s

/-- LANE_ERROR_WINDOW (R616, R619, R621): 1 ms of rack time has passed on an ACTIVE port. -/
def execLaneErrorWindow (p : Nat) (counts : List Nat) (unlocked : Nat) (s : State) : Host.Outcome State Fault Refusal :=
  .next (whenDue (s.live && s.portActive p && decide ((s.port p).laneAt + 1000000 ≤ s.tb.mono ∧ counts.length ≤ 9)) s
    (laneErrorWindow p counts unlocked s))

/-- SWAP_REQ (R620): the partner asks for logical lane `k`; group `g` is announced. -/
def execSwapReq (p k g : Nat) (s : State) : Host.Outcome State Fault Refusal :=
  .next (whenDue (s.live && s.portActive p && decide (k < 8) && s.fld (R.MLK_STAT p) F.MLK_STAT_TX_LAYOUT == 0) s
    ((s.setPort p fun m => { m with swapTx := some k }).sendControl p 1 g false))

/-- R620: a direction is in SPARE from the announced group on. -/
def State.swapDone (s : State) (p k : Nat) (tx : Bool) : State :=
  let off := R.MLK_STAT p
  let s := s.bump (R.MLK_SWAPS p)
  if tx then
    ((s.setFld off F.MLK_STAT_TX_LAYOUT 1).setFld off F.MLK_STAT_TX_SWAPPED k).setPort p fun m => { m with swapTx := none }
  else
    let old := s.laneOf p k
    let s := (s.setFld off F.MLK_STAT_RX_LAYOUT 1).setFld off F.MLK_STAT_RX_SWAPPED k
    let s := s.setPort p fun m => { m with swapRx := none, waiting := m.waiting.filter fun w => w.1 != 0 }
    let s := match old with | some l => s.setFld (R.MLK_LANE_STAT p l) F.MLK_LANE_STAT_LOGICAL 15 | none => s
    let s := match s.laneOf p 8 with | some l => s.setFld (R.MLK_LANE_STAT p l) F.MLK_LANE_STAT_LOGICAL k | none => s
    let s := s.repairMade 7 p k k 8 (s.repairBy 7 p k)
    s.repairOver 7 p k Status.ok

/-- SWAP_AT (R620): the announced group has come in one direction. -/
def execSwapAt (p : Nat) (tx : Bool) (s : State) : Host.Outcome State Fault Refusal :=
  match if tx then (s.port p).swapTx else (s.port p).swapRx with
  | some k => .next (whenDue (s.live && s.portActive p) s (s.swapDone p k tx))
  | none => .next s

/-- CONTROL_RESEND (R625): message `n` of those that wait has had no answer for 10 µs. -/
def execControlResend (p n : Nat) (s : State) : Host.Outcome State Fault Refusal :=
  match (s.port p).waiting[n]? with
  | some (kind, arg, t) =>
    .next (whenDue (s.live && s.portActive p && decide (t + 10000 ≤ s.tb.mono)) s
      (let s : State := { s with sent := s.sent ++ [.control p kind arg] }
       s.setPort p fun m => { m with waiting := m.waiting.set n (kind, arg, s.tb.mono) }))
  | none => .next s

/-! ### Flits (R622 to R631) -/

/-- R624: a flit that is handled as a CRC failure, and whether it is answered with `NAK` (R627): one that fails its `CRC`
or has a reserved `KIND` cannot be trusted. -/
def flitBad (b : List Byte) : Option Bool :=
  let kind := fieldAt b 0 1
  if fieldAt b 248 8 ≠ crc64 (b.take 248) ∨ 3 ≤ kind then some true
  else if fieldAt b 1 1 / 4 ≠ 0 ∨ fieldAt b 2 2 / 4096 ≠ 0 ∨ fieldAt b 4 2 / 8192 ≠ 0 ∨ 236 < fieldAt b 10 1 then
    some (kind == 1)
  else none

/-- R633: what a packet type that the device receives may hold: whether `DATA_LEN` fits, and the listed bytes of its
type fields. -/
def packetShape (b : List Byte) : Option (Bool × List Nat) :=
  let n := fieldAt b 2 2
  let local_ := [14, 15, 24, 25, 26, 27]
  match fieldAt b 0 1 with
  | 3 => some (decide (n ≤ 4096), [8, 9])
  | 4 => some (n == 0, local_)
  | 5 => some (n == 64 * fieldAt b 12 1, 12 :: local_)
  | 7 => some (decide (1 ≤ n ∧ n ≤ 4096), [8, 9, 10, 11, 12] ++ local_)
  | 9 => some (n == (if fieldAt b 8 1 = 1 then 128 else 0), [8, 10, 12, 13, 14, 15, 16, 17, 18, 20, 24, 25, 26, 27])
  | 10 => some (decide (n ≤ 64), [8])
  | _ => none

/-- R634: the port of a mode carries a packet type. -/
def carries (mode typ : Nat) : Bool := if mode = 1 then typ == 9 || typ == 10 else decide (1 ≤ typ ∧ typ ≤ 8) || typ == 10

/-- R635: the packet is malformed. -/
def packetBad (peer : Bool) (b : List Byte) : Bool :=
  match packetShape b with
  | none => true
  | some (lenOk, used) =>
    let typ := fieldAt b 0 1
    let flags := fieldAt b 1 1
    let inst := fieldAt b 4 2
    let kind := fieldAt b 8 1
    !lenOk || decide (8 ≤ flags ∨ flags / 2 % 4 = 3) || decide ((if peer then 1024 else 2048) ≤ inst)
      || ((List.range 24).any fun i => !used.contains (8 + i) && fieldAt b (8 + i) 1 != 0)
      || (typ == 9 && decide (kind = 0 ∨ 4 < kind)) || (typ == 10 && decide (kind = 0 ∨ 3 < kind))

/-- R629, R634, R635: whole packets leave a channel's stream. `early` bytes of it came in earlier flits; `first` is the
`FIRST_OFF` of the flit that brought the rest. What is left of the stream, whether a packet start is looked for, packets
of another port's type, malformed packets. -/
def unpack (mode first : Nat) : Nat → List Byte → Nat → Nat → Nat → List Byte × Bool × Nat × Nat
  | 0, bs, _, other, bad => (bs, false, other, bad)
  | fuel + 1, bs, early, other, bad =>
    if bs.length < 32 then (bs, false, other, bad)
    else
      let len := 32 + fieldAt bs 2 2
      if !carries mode (fieldAt bs 0 1) && (packetShape bs).isSome then
        if bs.length < len then (bs, false, other, bad)
        else unpack mode first fuel (bs.drop len) (early - len) (other + 1) bad
      else if packetBad (mode == 1) bs then
        if 0 < early ∧ first ≠ 255 then unpack mode first fuel (bs.drop (early + first)) 0 other (bad + 1)
        else ([], true, other, bad + 1)
      else if bs.length < len then (bs, false, other, bad)
      else unpack mode first fuel (bs.drop len) (early - len) other bad

/-- R629, R635: the bytes of an accepted DATA flit join their channel. -/
def State.takePayload (s : State) (p vc first : Nat) (pay : List Byte) : State :=
  let m := s.port p
  let seeking := m.seek.contains vc
  if seeking ∧ first = 255 then s
  else
    let old := if seeking then [] else Tab.at m.rx vc
    let new := if seeking then pay.drop first else pay
    let u := unpack (s.fld (R.MLK_CFG p) F.MLK_CFG_MODE) first 300 (old ++ new) old.length 0 0
    let s := s.bump (R.MLK_MALFORMED p) (u.2.2.1 + u.2.2.2)
    let s := if u.2.2.2 = 0 then s else s.raise (R.MLK_ERR p) F.MLK_ERR_MALFORMED
    s.setPort p fun m =>
      { m with rx := Tab.put m.rx vc u.1, seek := if u.2.1 then m.seek.filter (· != vc) ++ [vc] else m.seek.filter (· != vc) }

/-- R626 to R628, R630: a DATA flit that passes R624. -/
def dataFlit (p : Nat) (b : List Byte) (s : State) : State :=
  let e := s.fld (R.MLK_STAT p) F.MLK_STAT_RX_EXPECT
  let q := fieldAt b 2 2
  let vc := fieldAt b 1 1 % 4
  if q = e then
    let s := (s.setFld (R.MLK_STAT p) F.MLK_STAT_RX_EXPECT ((e + 1) % 4096)).bump (R.MLK_FLITS_RX p)
    let s := s.setPort p fun m =>
      { m with nak := false, fresh := m.fresh + 1, owed := m.owed.set vc (m.owed.getD vc 0 + 1) }
    let s := s.takePayload p vc (fieldAt b 11 1) (slice b 12 (fieldAt b 10 1))
    if 64 ≤ (s.port p).fresh then s.sendAck p false else s
  else
    let back := (e + 4096 - q) % 4096
    if 1 ≤ back ∧ back ≤ 2048 then s
    else if (s.port p).nak then s else s.sendAck p true

/-- R624, R627, R628, R630: a flit arrives: judged, its `ACK` and `CREDIT` taken, its `NAK` answered by a replay. -/
def flitArrive (p : Nat) (b : List Byte) (s : State) : State :=
  match flitBad b with
  | some nak =>
    let s := s.bump (R.MLK_CRC_ERRS p)
    if nak && !(s.port p).nak then s.sendAck p true else s
  | none =>
    let s := s.takeAck p (fieldAt b 4 2 % 4096)
    let s := s.setPort p fun m =>
      { m with credit := (List.range 4).map fun v => m.credit.getD v 0 + fieldAt b (6 + v) 1 }
    let s := if bitAt (fieldAt b 4 2) 12 then s.replay p else s
    let s := if s.portActive p then s.pump p else s
    if fieldAt b 0 1 = 1 ∧ s.portActive p then dataFlit p b s else s

/-- FLIT_RECEIVE (R616, R624, R626 to R628, R630, R634, R635): a flit reaches port `p`; `uncorr` codewords before it could
not be corrected. What a packet in it does is that packet's own row. -/
def execFlitReceive (p : Nat) (bytes : List Byte) (uncorr : Nat) (s : State) : Host.Outcome State Fault Refusal :=
  .next (whenDue (s.live && s.portActive p && bytes.length == 256) s
    (flitArrive p bytes (s.bump (R.MLK_FEC_UNCORR p) uncorr)))

/-- REPLAY_TIMEOUT (R627): `ACK` has not advanced for `REPLAY_TO`. -/
def execReplayTimeout (p : Nat) (s : State) : Host.Outcome State Fault Refusal :=
  .next (whenDue (s.live && s.portActive p && !(s.port p).unacked.isEmpty
      && decide ((s.port p).ackAt + 100 * s.fld (R.MLK_CFG p) F.MLK_CFG_REPLAY_TO ≤ s.tb.mono)) s (s.replay p))

/-- ACK_REPORT (R628): e − 1 is reported, at least once per µs. -/
def execAckReport (p : Nat) (s : State) : Host.Outcome State Fault Refusal :=
  .next (whenDue (s.live && s.portActive p && (decide (0 < (s.port p).fresh ∨ (s.port p).reportAt + 1000 ≤ s.tb.mono))) s
    (s.sendAck p false))

/-! ### Host memory (R637 to R640, R854) -/

/-- The write that a read-back is to confirm. -/
def State.heldBy (s : State) (p tag : Nat) : Option Held := s.held.find? fun h => h.port == p && h.tag == some tag

/-- R640: a held write is confirmed. One of a stale generation is only dropped (R580). -/
def State.confirm (s : State) (h : Held) : State :=
  if !s.fresh h.inst h.gen then { s with held := s.held.erase h }
  else match h.what with
  | .data key => s.confirmData h key
  | .swx ctx => s.swxSaved h ctx
  | .ring _ _ run =>
    let s := s.confirmPublication h
    if run = 0 then s else s.endWritten (run - 1)
  | _ => s.confirmPublication h

/-- R639, R854: the read-back of a held write has failed. -/
def State.unconfirmed (s : State) (h : Held) : State :=
  match h.what with
  | .data key => s.loseData key
  | .swx ctx => s.swxLost ctx
  | w =>
    let s := match w with | .mirror _ => s.raise R.QM_ERR F.QM_ERR_MIRROR_FAIL | _ => s
    let h' : Held := { h with tag := none, failedAt := some s.tb.mono }
    { s with held := s.held.map fun x => if x == h then h' else x }

/-- An `MRD` is no longer outstanding. -/
def State.dropMrd (s : State) (m : Mrd) : State :=
  { s with mrds := s.mrds.filter fun x => !(x.port == m.port && x.tag == m.tag) }

/-- R639: an `MRD` fails, and its requester acts. -/
def State.mrdFailed (s : State) (m : Mrd) : State :=
  let s := (s.dropMrd m).cplFail m.port
  match m.chan with
  | some c => s.chnReadFailed c m
  | none => match s.heldBy m.port m.tag with
    | some h => s.unconfirmed h
    | none => s

/-- R637: an `MRD` is answered with success. -/
def State.mrdAnswered (s : State) (m : Mrd) (bytes : List Byte) : State :=
  let s := s.dropMrd m
  match m.chan with
  | some c => if m.readBack then s.chnConfirmed c else s.chnFill c m.key bytes
  | none => match s.heldBy m.port m.tag with
    | some h => s.confirm h
    | none => s

/-- R633: the bytes an `MRD` asks for. -/
def State.mrdLen (s : State) (m : Mrd) : Nat :=
  match m.chan with
  | some c => if m.readBack then 1 else ((Tab.at s.chains c).burst.getD m.key {}).len
  | none => 1

/-- R635, R637, R639: a completion. -/
def cplArrive (p tag st : Nat) (bytes : List Byte) (s : State) : State :=
  match s.mrds.find? fun m => m.port == p && m.tag == tag with
  | none => s.bump (R.MLK_MALFORMED p)
  | some m =>
    let odd := m.readBack || m.chan.isSome
    if st = 3 ∨ (odd ∧ bytes.length ≠ if st = 0 then s.mrdLen m else 0) then
      (s.bump (R.MLK_MALFORMED p)).raise (R.MLK_ERR p) F.MLK_ERR_MALFORMED
    else if st = 0 then s.mrdAnswered m bytes
    else s.mrdFailed m

/-- CPL (R538, R637, R639, R640, R748, R854): a completion on a host port: tag, `CPL_STATUS`, bytes. -/
def execCpl (p tag st : Nat) (bytes : List Byte) (s : State) : Host.Outcome State Fault Refusal :=
  .next (whenDue (s.live && s.hostUp p) s (cplArrive p tag st bytes s))

/-- R639: a completion has not come for 50 ms of ACTIVE time; a port with 8 such timeouts in 1 s retrains. -/
def cplTimeout (m : Mrd) (s : State) : State :=
  let p := m.port
  let s := s.mrdFailed m
  let ts := (s.port p).timeouts.filter (fun t => s.tb.mono < t + 1000000000) ++ [s.tb.mono]
  let s := s.setPort p fun x => { x with timeouts := ts }
  if 8 ≤ ts.length then (s.setPort p fun x => { x with timeouts := [] }).portRetrain p else s

/-- CPL_TIMEOUT (R616, R639, R854). -/
def execCplTimeout (p tag : Nat) (s : State) : Host.Outcome State Fault Refusal :=
  match s.mrds.find? fun m => m.port == p && m.tag == tag with
  | some m => .next (whenDue (s.live && s.portActive p && decide (50000000 ≤ m.age)) s (cplTimeout m s))
  | none => .next s

/-- R854: a publication write whose read-back failed 1 ms ago. -/
def State.reissueDue (s : State) (h : Held) : Bool :=
  h.what.publication && match h.failedAt with | some t => decide (t + 1000000 ≤ s.tb.mono) | none => false

/-- PUBLICATION_REISSUE (R854). -/
def execPublicationReissue (p : Nat) (s : State) : Host.Outcome State Fault Refusal :=
  .next (whenDue (s.live && s.hostUp p) s (s.reissue p s.reissueDue))

/-! ### Losing the link (R657, R658) -/

/-- R658: the transactions of a port that has not returned. -/
def State.portGone (s : State) (p : Nat) : State :=
  let writes := s.writes.filter fun e => (Tab.at s.queues (Tab.at s.cmds e.1).g).port == p && !e.2.reqs.isEmpty && !e.2.arrived
  let s := writes.foldl (fun s e =>
    { s with writes := Tab.del s.writes e.1 }.finishCmd e.1 Status.linkLost) s
  let mine := s.mrds.filter fun m => m.port == p
  let s := mine.foldl (fun s m =>
    let s := s.dropMrd m
    match m.chan with
    | some c => (s.cplFail p).chnReadFailed c m
    | none => s) s
  let waits := s.chains.filter fun c => s.chnPort c.1 == p && s.chnAskDue c.1
  let s := waits.foldl (fun s c => (s.cplFail p).chnReadFailed c.1 { port := p }) s
  let lost := s.held.filter fun h => h.port == p
  let s := lost.foldl (fun s h => match h.what with
    | .data key => if s.held.contains h then (s.cplFail p).loseData key else s
    | .swx ctx => if s.held.contains h then (s.cplFail p).swxLost ctx else s
    | _ => s) s
  s.peerLost fun c => c.peers.any fun d => d.2.2.2 && !d.2.2.1 && s.routeOf d.1 == some p

/-- R658: the port discards its replay buffer. -/
def linkLost (p : Nat) (s : State) : State :=
  let s := (s.raise (R.MLK_ERR p) F.MLK_ERR_LINK_LOST).bump (R.MLK_LINK_LOSTS p)
  let s := s.setPort p fun m =>
    { m with unacked := [], tx := [], starts := [], rx := [], seek := [], resume := false, lostAt := none, replays := 0 }
  s.portGone p

/-- LINK_LOST (R334, R658, R853, R854): 2,000,000,000 ns since the port left ACTIVE. -/
def execLinkLost (p : Nat) (s : State) : Host.Outcome State Fault Refusal :=
  match (s.port p).lostAt with
  | some t => .next (whenDue (s.live && decide (p < 6 ∧ t + 2000000000 ≤ s.tb.mono)) s (linkLost p s))
  | none => .next s

/-! ### Link management (R635) -/

/-- HELLO (R635): the partner repeats its CONFIG values after a change of its configuration. -/
def execHello (p mode dev : Nat) (s : State) : Host.Outcome State Fault Refusal :=
  .next (whenDue (s.live && s.portActive p && decide (mode < 2 ∧ dev < 16)) s
    (if mode = 1 then s.setFld (R.MLK_STAT p) F.MLK_STAT_PARTNER_DEV dev else s))

/-- ECHO (R635): answered with an `ECHO_REPLY` of the same bytes. -/
def execEcho (p : Nat) (bytes : List Byte) (s : State) : Host.Outcome State Fault Refusal :=
  .next (whenDue (s.live && s.portActive p && decide (bytes.length ≤ 64)) s
    (({ s with sent := s.sent ++ [Sent.mgmt p 3 bytes] } : State).transmit p 2 (packet 10 0 0 0 [(8, 1, 3)] bytes)))

/-- ECHO_REPLY (R635): a round trip is measured; no register shows it. -/
def execEchoReply (_p : Nat) (_bytes : List Byte) (s : State) : Host.Outcome State Fault Refusal := .next s

end Sys2Proof.Machine
end

