-- ==== Sys2Proof/Machine/Sconce.lean ====
section
/-! DEFINITION. The Sconce as far loads use it, its write-backs, its maintenance operations and its locks (R689 to R702;
15_memory_chain_sconce.md). -/
namespace Sys2Proof.Machine

/-- A way of a Sconce. -/
def State.way (s : State) (n w : Nat) : Way := (Tab.at s.sconces n).ways.getD w {}

/-- A way changed in place. -/
def State.setWay (s : State) (n w : Nat) (v : Way) : State :=
  s.sconce n fun c => { c with ways := c.ways.set w v }

/-- The lines that an access of `len` bytes touches. -/
def linesOf (a len : Nat) : List Nat := (List.range ((a + len + 127) / 128 - a / 128)).map fun i => a / 128 + i

/-- The bytes of an access when every line it touches is valid in lantern `n`'s Sconce. -/
def State.sconceBytes (s : State) (n a len : Nat) : Option (List Byte) :=
  let c := Tab.at s.sconces n
  let parts := (linesOf a len).map fun l => (c.find l).map fun w => (c.ways.getD w {}).data
  if parts.any Option.isNone then none
  else some (slice (parts.map fun p => p.getD []).flatten (a % 128) len)

/-- A waiting access of a wick answered with its bytes. -/
def State.answerLoad (s : State) (pos n j : Nat) (bs : List Byte) : State :=
  { s with wicks := Tab.upd s.wicks pos fun k =>
      { k with loads := (List.range k.loads.length).zipWith (fun i l =>
          if i = n then { l with got := l.got.set j (some bs) } else l) k.loads } }

/-- The accesses through lantern `n`'s Sconce that wait: wick, load, access, device address, bytes. -/
def State.sconceWaits (s : State) (n : Nat) : List (Nat × Nat × Nat × Nat × Nat) :=
  (s.wicks.filter fun e => e.1 / 17 == n && e.2.st != 0).flatMap fun e =>
    ((List.range e.2.loads.length).zip e.2.loads).flatMap fun x =>
      if !x.2.hbm || x.2.arrived then [] else
        ((List.range x.2.addrs.length).zip (x.2.addrs.zip x.2.got)).filterMap fun y =>
          if y.2.2.isNone then some (e.1, x.1, y.1, y.2.1, x.2.wid) else none

/-- R690: every waiting access whose lines are all valid is answered. -/
def State.answerWaits (s : State) (n : Nat) : State :=
  (s.sconceWaits n).foldl (fun s x =>
    match s.sconceBytes n x.2.2.2.1 x.2.2.2.2 with
    | some bs => s.answerLoad x.1 x.2.1 x.2.2.1 bs
    | none => s) s

/-- A task fails wherever it stands: on its wick, or after its run ended and before it passed. -/
def State.failCtx (s : State) (i status : Nat) : State :=
  match s.wickOf i with
  | some pos => if (s.wick pos).st = 3 then s.setCtx i fun c => { c with failed := status } else s.failTask pos status
  | none => s.setCtx i fun c => if c.st = .ended ∧ c.failed = 0 then { c with failed := status } else c

/-- R701: the task whose staged output a line holds, if one does. -/
def State.lineOwner (s : State) (line : Nat) : Option Nat :=
  let inside := fun (a n : Nat) => decide (a < 128 * line + 128 ∧ 128 * line < a + n)
  match s.blocks.find? fun b => b.2.hbm && inside b.1 4096 with
  | some b => some b.2.task
  | none => (s.sruns.find? fun r => inside r.1 (64 + 64 * r.2.records)).map fun r => r.2.ctx

/-- R701: an upset met in a way: 1 in a clean line or a tag, more in a dirty line beyond correction. -/
def State.wayUpset (s : State) (n w upset : Nat) : State :=
  let v := s.way n w
  let s := (s.setWay n w {}).raise (R.LAN_SCN_ERR n) F.LAN_SCN_ERR_PARITY
  if 2 ≤ upset ∧ v.dirty then
    match s.lineOwner v.line with
    | some i => s.failCtx i Status.uncorrectable
    | none => s
  else s

/-- R690 to R693: one line asked for: a hit, a line reinstated, a miss that starts a fill, or a wait. -/
def State.askLine (s : State) (n line : Nat) : State :=
  let c := Tab.at s.sconces n
  match c.find line with
  | some w => (s.sconce n fun c => { c with plru := plruTouch c.plru w }).bump (R.LAN_SCN_HITS n)
  | none =>
    if c.ways.any fun v => v.filling && v.line == line then s
    else
      let w := s.victim n line
      let v := s.way n w
      if v.filling || (v.valid && v.dirty && decide (4 ≤ c.evict.length)) then s
      else match c.evict.find? (·.line == line) with
        | some _ => (s.sconceGet n line).2
        | none =>
          let s := (s.vacate n w).bump (R.LAN_SCN_MISSES n)
          s.setWay n w { line := line, filling := true }

/-- A poisoned line reached a far load: the task fails (R673). -/
def State.farPoison (s : State) (pos a : Nat) : State :=
  (s.noteUE a 2).failTask pos Status.uncorrectable

/-- R689 to R693, R702: access `a` of far load `n` of a wick goes to the Sconce. With `EN` 0 a miss allocates no way. -/
def sconceRequest (pos n j a len upset : Nat) (s : State) : State :=
  let lan := pos / 17
  let c := Tab.at s.sconces lan
  let s := if upset = 0 then s else
    match c.find (a / 128) with | some w => s.wayUpset lan w upset | none => s
  if (s.wick pos).st = 0 then s
  else
    let c := Tab.at s.sconces lan
    let held := (linesOf a len).all fun l => (c.find l).isSome || c.evict.any (·.line == l)
    let busy := (linesOf a len).any fun l => c.ways.any fun v => v.filling && v.line == l
    if !s.bit (R.LAN_SCN_CTL lan) F.LAN_SCN_CTL_EN && !held && !busy then
      let s := (linesOf a len).foldl (fun s l => if (c.find l).isSome then s else
        match c.evict.find? (·.line == l) with | some _ => (s.sconceGet lan l).2 | none => s) s
      let s := s.bump (R.LAN_SCN_MISSES lan)
      let i := (Tab.at s.ctxs (s.wick pos).ctx).inst
      let s := s.tallyAdd i fun t => { t with hbmRead := t.hbmRead + len }
      if s.poisoned a len then s.farPoison pos a
      else
        let c := Tab.at s.sconces lan
        let lay (bs : List Byte) (v : Way) : List Byte :=
          if v.valid then (List.range len).zipWith (fun x b =>
            if (a + x) / 128 = v.line then v.data.getD ((a + x) % 128) 0 else b) bs else bs
        s.answerLoad pos n j (c.ways.foldl lay (s.hbmRead a len))
    else
      let s := (linesOf a len).foldl (fun s l => s.askLine lan l) s
      match s.sconceBytes lan a len with
      | some bs => s.answerLoad pos n j bs
      | none => s

/-- SCONCE_REQUEST (R380, R671 to R673, R689 to R694, R701): access `j` of far load `n` of wick `w`. -/
def execSconceRequest (w n j upset : Nat) (s : State) : Host.Outcome State Fault Refusal :=
  match (s.wick w).loads[n]? with
  | none => .next s
  | some l =>
    match l.addrs[j]?, l.got[j]? with
    | some a, some none => .next (whenDue (s.live && l.hbm && !l.arrived) s (sconceRequest w n j a l.wid upset s))
    | _, _ => .next s

/-- R690, R671 to R673: the beats of a line arrive in the way that waits for it. -/
def sconceFill (n w : Nat) (faults : List (Nat × Nat × Nat)) (s : State) : State :=
  let v := s.way n w
  let a := 128 * v.line
  let first := (s.sconceWaits n).find? fun x => (linesOf x.2.2.2.1 x.2.2.2.2).contains v.line
  let s := match first with
    | some x => s.tallyAdd (Tab.at s.ctxs (s.wick x.1).ctx).inst fun t => { t with hbmRead := t.hbmRead + 128 }
    | none => s
  if v.valid then (s.setWay n w { v with filling := false }).answerWaits n
  else
    let s := s.beatFaults a 128 faults
    if s.poisoned a 128 then
      let hit := (s.sconceWaits n).filter fun x => (linesOf x.2.2.2.1 x.2.2.2.2).contains v.line
      let s := (s.setWay n w {}).noteUE a 2
      ((hit.map (·.1)).eraseDups).foldl (fun s p => s.failTask p Status.uncorrectable) s
    else
      (s.place_ n w { line := v.line, valid := true, data := s.hbmRead a 128 }).answerWaits n

/-- SCONCE_FILL (R690, R691): way `w` of lantern `n`; `faults` is what the SECDED finds. -/
def execSconceFill (n w : Nat) (faults : List (Nat × Nat × Nat)) (s : State) : Host.Outcome State Fault Refusal :=
  .next (whenDue (s.live && (s.way n w).filling) s (sconceFill n w faults s))

/-- SCONCE_WRITE_BACK (R692, R694). -/
def execSconceWriteBack (n : Nat) (s : State) : Host.Outcome State Fault Refusal :=
  .next (whenDue (s.live && (Tab.at s.sconces n).evict.any (·.dirty)) s (s.drainOne n))

/-! ### Maintenance -/

/-- R695: a dirty way is written back and stays valid and clean. -/
def State.cleanWay (s : State) (n w : Nat) : State :=
  let v := s.way n w
  if v.valid && v.dirty then
    ((s.poke (128 * v.line) v.data).setWay n w { v with dirty := false }).bump (R.LAN_SCN_WRITEBACKS n)
  else s

/-- R695, R698: a way cleaned (`op` bit 0) and invalidated (`op` bit 1); a covered locked way is counted. -/
def State.maintWay (s : State) (n w op : Nat) : State :=
  let s := if bitAt op 0 then s.cleanWay n w else s
  if bitAt op 1 then
    let s := if (s.way n w).valid then s.setWay n w {} else s
    if (s.lockOf n w).isSome then
      s.setFld (R.LAN_SCN_STAT n) F.LAN_SCN_STAT_LOCK_HITS (s.fld (R.LAN_SCN_STAT n) F.LAN_SCN_STAT_LOCK_HITS + 1)
    else s
  else s

/-- R694, R695: the line of an address cleaned and invalidated wherever it is held. -/
def State.maintLine (s : State) (n line op : Nat) : State :=
  let c := Tab.at s.sconces n
  let s := c.evict.foldl (fun s e =>
    if e.line = line then
      let s := if bitAt op 0 ∧ e.dirty then (s.poke (128 * line) e.data).bump (R.LAN_SCN_WRITEBACKS n) else s
      s.sconce n fun c => { c with evict := c.evict.erase e }
    else s) s
  match c.find line with
  | some w => s.maintWay n w op
  | none =>
    match (List.range 8).find? fun w => s.lockOf n w == some line with
    | some w => s.maintWay n w op
    | none => s

/-- R696: no task runs on the lantern. -/
def State.lanternQuiet (s : State) (n : Nat) : Bool := s.fld (R.LAN_MON_STAT n) F.LAN_MON_STAT_RUNNING == 0

/-- R696, R698: a range operation over `len` lines from `line`. -/
def State.maintRange (s : State) (n line len op : Nat) : State :=
  let inRange := fun l => decide (line ≤ l ∧ l < line + len)
  let c := Tab.at s.sconces n
  let s := (c.evict.map (·.line)).foldl (fun s l => if inRange l then s.maintLine n l op else s) s
  (List.range 32).foldl (fun s w =>
    let v := s.way n w
    let lock := match s.lockOf n w with | some l => inRange l | none => false
    if (v.valid && inRange v.line) || lock then s.maintWay n w op else s) s

/-- R695, R696, R702: a write of `LANnn_SCN_MAINT`. -/
def scnMaintWrite (n val : Nat) (s : State) : State :=
  let op := bitsOf val 0 2
  let by_ := bitAt val 2
  let range := bitAt val 3
  if by_ && range then s.raise (R.LAN_SCN_ERR n) F.LAN_SCN_ERR_BADCFG
  else if op = 0 then s
  else
    let line := s.fld (R.LAN_SCN_ADDR n) F.LAN_SCN_ADDR_LINE
    if range && !s.lanternQuiet n then s.raise (R.LAN_SCN_ERR n) F.LAN_SCN_ERR_RANGE_REFUSED
    else
      let s := s.setFld (R.LAN_SCN_STAT n) F.LAN_SCN_STAT_LOCK_HITS 0
      if range then s.maintRange n line (s.fld (R.LAN_SCN_RANGE n) F.LAN_SCN_RANGE_LENGTH) op
      else if by_ then
        let w := bitsOf val 4 5
        s.maintWay n w op
      else s.maintLine n line op

/-- R694: the line or way that a maintenance write names is not being filled. -/
def State.maintReady (s : State) (n val : Nat) : Bool :=
  let line := s.fld (R.LAN_SCN_ADDR n) F.LAN_SCN_ADDR_LINE
  let c := Tab.at s.sconces n
  if bitAt val 3 then !c.ways.any (·.filling)
  else if bitAt val 2 then !(s.way n (bitsOf val 4 5)).filling
  else !(c.ways.any fun v => v.filling && v.line == line)

/-- A maintenance write by a requester, journalled as R596 gives. -/
def maintCmd (who : Who) (n val op : Nat) (range : Bool) (s : State) : State :=
  whenDue (s.live && decide (n < 68) && decide (bitsOf val 0 2 = op) && (bitAt val 3 == range) && s.maintReady n val) s
    (s.journalCsr (scnMaintWrite n val s) who (R.LAN_SCN_MAINT n))

/-- SCN_CLEAN (R694, R695): `OP` 1. -/
def execScnClean (who : Who) (n val : Nat) (s : State) : Host.Outcome State Fault Refusal :=
  .next (maintCmd who n val 1 false s)

/-- SCN_INVALIDATE (R695, R698): `OP` 2. -/
def execScnInvalidate (who : Who) (n val : Nat) (s : State) : Host.Outcome State Fault Refusal :=
  .next (maintCmd who n val 2 false s)

/-- SCN_CLEAN_INVALIDATE (R695, R698): `OP` 3. -/
def execScnCleanInvalidate (who : Who) (n val : Nat) (s : State) : Host.Outcome State Fault Refusal :=
  .next (maintCmd who n val 3 false s)

/-- SCN_RANGE (R696, R698, R702): `RANGE` 1, with any `OP`. -/
def execScnRange (who : Who) (n val : Nat) (s : State) : Host.Outcome State Fault Refusal :=
  .next (maintCmd who n val (bitsOf val 0 2) true s)

/-- R697: a write of `LANnn_SCN_LOCKw`. -/
def scnLockWrite (n w val : Nat) (s : State) : State :=
  let line := bitsOf val 7 33
  let s := if bitAt val 0 then
      let s := s.maintWay n w 3
      let s := match (Tab.at s.sconces n).find line with | some o => s.maintWay n o 3 | none => s
      let c := Tab.at s.sconces n
      c.evict.foldl (fun s e => if e.line = line ∧ e.dirty then
          let s := (s.poke (128 * line) e.data).bump (R.LAN_SCN_WRITEBACKS n)
          s.sconce n fun c => { c with evict := c.evict.erase e }
        else s) s
    else s
  (s.setFld (R.LAN_SCN_LOCK n w) F.LAN_SCN_LOCK_LOCKED (bitsOf val 0 1)).setFld (R.LAN_SCN_LOCK n w) F.LAN_SCN_LOCK_LINE line

/-- SCN_LOCK (R697). -/
def execScnLock (who : Who) (n w val : Nat) (s : State) : Host.Outcome State Fault Refusal :=
  .next (whenDue (s.live && decide (n < 68 ∧ w < 8) && !(s.way n w).filling) s
    (s.journalCsr (scnLockWrite n w val s) who (R.LAN_SCN_LOCK n w)))

/-- R699: the lantern's Sconce cleans and invalidates every way as a stage starts. -/
def State.sconceFlush (s : State) (n : Nat) : State :=
  let s := s.setFld (R.LAN_SCN_STAT n) F.LAN_SCN_STAT_LOCK_HITS 0
  let s := (List.range 4).foldl (fun s _ => if (Tab.at s.sconces n).evict.any (·.dirty) then s.drainOne n else s) s
  (List.range 32).foldl (fun s w => if (s.way n w).filling then s else s.maintWay n w 3) s

/-- What `LANnn_SCN_STAT` reads. -/
def State.scnStat (s : State) (n : Nat) : Nat :=
  let c := Tab.at s.sconces n
  let bits := fun (m : Nat) (p : Nat → Bool) => (List.range m).foldl (fun a w => if p w then a + 2 ^ w else a) 0
  bits 32 (fun w => (c.ways.getD w {}).valid)
    + (c.ways.filter (·.dirty)).length * 2 ^ 33
    + bits 8 (fun w => (s.lockOf n w).isSome) * 2 ^ 39
    + s.fld (R.LAN_SCN_STAT n) F.LAN_SCN_STAT_LOCK_HITS * 2 ^ 47

end Sys2Proof.Machine
end

