-- ==== Sys2Proof/Machine/Rounds.lean ====
section
/-! DEFINITION. Spilled partitions and their rounds (R342, R349 to R353; 07_joins_exchanges.md): which partitions spill at
a build barrier, the copies of build and probe rows a round reads, and when a round may begin on a slot. -/
namespace Sys2Proof.Machine

/-- The list cut into pieces of `k`. -/
def piecesOf {α : Type} (k : Nat) (l : List α) : List (List α) :=
  (List.range (ceilDiv l.length k)).map fun i => (l.drop (i * k)).take k

/-- R337, R434: the lowest stage that names a hash-table plan builds it. -/
def Img.buildStage (img : List Byte) (h : Nat) : Option Nat :=
  (List.range (Img.stages img)).find? fun j => Img.st img j 234 2 == h

/-- R445: the exchange descriptor that a `BLOCKS` stage consumes. -/
def Img.source (img : List Byte) (j : Nat) : Option Nat :=
  if Img.st img j 1 1 = 2 then Img.xchOf img (Img.st img j 32 2) else none

/-- R342: the rows a directory of plan `h` may hold: 3 × 2^b. -/
def Img.hashRows (img : List Byte) (h : Nat) : Nat := 3 * 2 ^ Img.hash img h 4 1

/-- R349: the COMMITTED landing blocks of partition `p` of exchange descriptor `d`, in address order. -/
def State.partBlocks (s : State) (run d p : Nat) : List (Nat × Block) :=
  s.blocks.filter fun e => e.2.run == run && e.2.desc == d && e.2.part == p && e.2.st == 3 && e.2.round == 0

/-- R325: the records of a landing block. -/
def State.blockRecs (s : State) (lx : Nat) (e : Nat × Block) : List (List Byte) :=
  piecesOf lx (s.hbmRead (e.1 + 64) e.2.bytes)

/-- The records of a partition in landing order: by block address, then as they lie in the block (DEDUCED). -/
def State.partRecs (s : State) (run d p : Nat) : List (List Byte) :=
  let lx := Img.xch (s.imgOf (Tab.at s.runs run)) d 2 2
  (s.partBlocks run d p).flatMap (s.blockRecs lx)

/-- R350: the sub-partition of a record: h[54:55 − s]. -/
def subOf (s : Nat) (r : List Byte) : Nat := bitsOf (fieldAt r 0 8) (55 - s) s

/-- How many records lie in each sub-partition. -/
def subCounts (s : Nat) (rs : List (List Byte)) : List Nat := (List.range (2 ^ s)).map fun q => (rs.filter (subOf s · == q)).length

/-- R350, R351: the rounds of a spilled partition: s, q, first row, rows, and what `ROUND` shows. -/
def roundsOf (limit : Nat) (rs : List (List Byte)) : List (Nat × Nat × Nat × Nat × Nat) :=
  match (List.range 6).find? fun i => (subCounts (i + 1) rs).all (· ≤ limit) with
  | some i => (subCounts (i + 1) rs).zipIdx.map fun n => (i + 1, n.2, 0, n.1, n.2)
  | none =>
    (subCounts 6 rs).zipIdx.flatMap fun n =>
      if n.1 ≤ limit then [(6, n.2, 0, n.1, n.2)]
      else (List.range (ceilDiv n.1 limit)).map fun i => (6, n.2, i * limit, min limit (n.1 - i * limit), i)

/-- R349: partition `p` of the build exchange is spilled. -/
def State.spills (s : State) (run d p limit : Nat) : Bool :=
  decide (limit < (s.partRecs run d p).length) || (s.partBlocks run d p).any (·.2.hbm)

/-- R353: a run that a full spill area fails. -/
def State.spillFail (s : State) (run slot : Nat) : State :=
  let s := match s.lanternOf slot with
    | some n => s.raise (R.LAN_XCH_ERR n) F.LAN_XCH_ERR_SPILL_FULL
    | none => s
  s.failRun run Status.spillFull

/-- A landing block moved to the spill area; none when that is full. -/
def State.moveOut (s : State) (e : Nat × Block) : Option State :=
  (s.freeSpill e.2.run e.2.desc).map fun a =>
    let s := s.poke a (s.peek e.1 4096)
    { s with blocks := Tab.put (Tab.del s.blocks e.1) a { e.2 with hbm := true } }

/-- R350: the blocks of a spilled partition leave the lantern store. -/
def State.moveAll (s : State) : List (Nat × Block) → Option State
  | [] => some s
  | e :: r => if e.2.hbm then s.moveAll r else (s.moveOut e).bind fun s => s.moveAll r

/-- R349 to R351: the rounds of partition `p` are fixed at the build barrier; rounds on one slot run in order. -/
def State.planRounds (s : State) (run h d p : Nat) : State :=
  let img := s.imgOf (Tab.at s.runs run)
  let slot := Img.xch img d (32 + p) 1
  if (Tab.at s.runs run).failing || !s.spills run d p (Img.hashRows img h) then s
  else
    let rs := s.partRecs run d p
    match s.moveAll (s.partBlocks run d p) with
    | none => s.spillFail run slot
    | some s =>
      let before := ((Tab.at s.runs run).rounds.filter fun x => x.slot == slot).length
      let new := (roundsOf (Img.hashRows img h) rs).zipIdx.map fun x =>
        { hash := h, part := p, slot := slot, no := before + 1 + x.2, shown := x.1.2.2.2.2, q := x.1.2.1, s := x.1.1,
          first := x.1.2.2.1, count := x.1.2.2.2.1 : Round }
      s.setRun run fun r => { r with rounds := r.rounds ++ new }

/-- R349: the build exchange that stage `b` consumes is judged, partition by partition. -/
def State.judgeBuild (s : State) (run b : Nat) : State :=
  let img := s.imgOf (Tab.at s.runs run)
  let h := Img.st img b 234 2
  match Img.source img b with
  | some d =>
    if h < Img.entries img 5 16 ∧ Img.buildStage img h = some b then
      (List.range 64).foldl (fun s p => s.planRounds run h d p) s
    else s
  | none => s

/-- R350: the rows of a round among some records. -/
def Round.rows (x : Round) (rs : List (List Byte)) : List (List Byte) := rs.filter (subOf x.s · == x.q)

/-- R350, R351: copies of records written as COMMITTED blocks of a round, in the lantern store (`far` false) or the spill
area; the blocks' addresses, none when no room is left. -/
def State.putCopies (s : State) (run d n : Nat) (x : Round) (far : Bool) : List (List (List Byte)) → Option (List Nat × State)
  | [] => some ([], s)
  | rs :: rest =>
    match if far then s.freeSpill run d else s.freeHere run d n with
    | none => none
    | some a =>
      let r := Tab.at s.runs run
      let bs := rs.flatten
      let b : Block := { run := run, desc := d, lantern := n, slot := x.slot, part := x.part, inst := r.inst, gen := r.gen,
                         bytes := bs.length, st := 3, dev := s.ownDev, hbm := far, round := x.no }
      let s := s.poke a (blockHeader (Img.xch (s.imgOf r) d 0 2) b ++ bs)
      match { s with blocks := Tab.put s.blocks a b }.putCopies run d n x far rest with
      | some (as, s) => some (a :: as, s)
      | none => none

/-- R351: the blocks of the match map of a round that joins in blocks: one bit per probe row. -/
def State.putMap (s : State) (run d n : Nat) (x : Round) (rows : Nat) : Option State :=
  let same := (Tab.at s.runs run).rounds.filter fun y => y.hash == x.hash && y.part == x.part && y.q == x.q
  if 1 < same.length ∧ x.first = 0 then
    (s.putCopies run d n x true ((List.range (ceilDiv rows 32768)).map fun _ => [])).map (·.2)
  else some s

/-- The blocks of earlier rounds on a slot return to FREE, those of one exchange descriptor. -/
def State.dropCopies (s : State) (run d slot below : Nat) : State :=
  { s with blocks := s.blocks.filter fun e =>
      !(e.2.run == run && e.2.desc == d && e.2.slot == slot && e.2.round != 0 && decide (e.2.round < below)) }

/-- R338: every bucket of the directory of plan `h` zeroed on a slot. -/
def State.zeroDirectory (s : State) (run h slot : Nat) : State :=
  let img := s.imgOf (Tab.at s.runs run)
  match s.lanternOf slot with
  | some n => s.wipe (lstoreKey n (Img.hash img h 0 4)) (64 * 2 ^ Img.hash img h 4 1)
  | none => s

/-- The next round of a slot that has not begun. -/
def Run.nextRound (r : Run) (slot : Nat) : Option Round := r.rounds.find? fun x => x.slot == slot && !x.begun

/-- The tasks a stage still has in lower rounds of a slot. -/
def State.roundOpen (s : State) (run j slot no : Nat) : Bool :=
  !(s.ctxsOf run fun c => c.stage == j && c.slot == slot && decide (c.round < no) && c.st != .committed).isEmpty

/-- R350: the build and probe stages of a round's plan have finished everything of the rounds before it on its slot. -/
def State.roundDue (s : State) (run : Nat) (x : Round) : Bool :=
  let r := Tab.at s.runs run
  let img := s.imgOf r
  (List.range (Img.stages img)).all fun j =>
    Img.st img j 234 2 != x.hash ||
      (let st := r.stages.getD j {}
       decide (1 ≤ st.st) && st.created == st.total && !s.roundOpen run j x.slot x.no)

/-- R350: the round of a probe task has its rows built. -/
def State.roundReady (s : State) (c : Ctx) : Bool :=
  let r := Tab.at s.runs c.run
  let img := s.imgOf r
  let h := Img.st img c.stage 234 2
  c.round == 0 || Img.buildStage img h == some c.stage ||
    ((r.rounds.any fun x => x.slot == c.slot && x.no == c.round && x.begun)
      && (match Img.buildStage img h with
          | some b => (s.ctxsOf c.run fun e => e.stage == b && e.slot == c.slot && e.round == c.round && e.st != .committed).isEmpty
          | none => true))

/-- R443, R445, R350: what the tasks of a `BLOCKS` stage consume, by task number: block, number of the round, what
`ROUND` shows. -/
def State.blockInputs (s : State) (run j : Nat) : Option (List (List Nat) × State) :=
  let r := Tab.at s.runs run
  let img := s.imgOf r
  match Img.source img j with
  | none => some ([], s)
  | some d =>
    let h := Img.st img j 234 2
    let build := Img.buildStage img h == some j
    let mine := fun p => r.rounds.filter fun x => x.hash == h && x.part == p
    let before (a b : Nat × Block) : Bool :=
      let k := fun (e : Nat × Block) => ((e.2.slot * 2 ^ 32 + e.2.task) * 256 + e.2.epoch) * 2 ^ 48 + e.1
      decide (k a ≤ k b)
    let here := (s.blocks.filter fun e => e.2.run == run && e.2.desc == d && e.2.st == 3 && e.2.round == 0
      && (mine e.2.part).isEmpty).mergeSort before
    let plain := here.map fun e => [e.1, 0, 0]
    let lx := Img.xch img d 2 2
    if build then some (plain, s)
    else
      let spilled := r.rounds.filter (·.hash == h)
      spilled.foldl (fun acc x =>
        acc.bind fun (ins, s) =>
          let rows := x.rows (s.partRecs run d x.part)
          let n := (s.lanternOf x.slot).getD 0
          (s.putMap run d n x rows.length).bind fun s =>
            (s.putCopies run d n x true (piecesOf (4032 / lx) rows)).map fun (as, s) =>
              (ins ++ as.map fun a => [a, x.no, x.shown], s)) (some (plain, s))

/-- R350: the build rows of a round are copied into the lantern store: the inputs of its build tasks. -/
def State.beginRound (s : State) (run j d : Nat) (x : Round) : Option (List (List Nat) × State) :=
  let img := s.imgOf (Tab.at s.runs run)
  let rows := ((x.rows (s.partRecs run d x.part)).drop x.first).take x.count
  let s := (s.dropCopies run d x.slot x.no).zeroDirectory run (Img.st img j 234 2) x.slot
  let s := s.setRun run fun r =>
    { r with rounds := r.rounds.map fun y => if y.slot == x.slot && y.no == x.no then { y with begun := true } else y }
  let n := (s.lanternOf x.slot).getD 0
  (s.putCopies run d n x false (piecesOf (4032 / Img.xch img d 2 2) rows)).map fun (as, s) =>
    (as.map fun a => [a, x.no, x.shown], s)

end Sys2Proof.Machine
end

