-- ==== Sys2Proof/Machine/Runs.lean ====
section
/-! DEFINITION. Runs and their stages: `QUERY_RUN`, the start of a run and of a stage, the barrier, `QUERY_ABORT`,
`QUERY_STATUS` and deadlines (R438 to R446, R458, R475 to R477, R560, R563; 10_pipelines.md). -/
namespace Sys2Proof.Machine

/-! ### QUERY_RUN -/

/-- R560: the run that a `QUERY_RUN` asks for. -/
def Cmd.run (c : Cmd) (g : Nat) : Run :=
  { tag := c.tag, pipe := c.p 0 2, inst := c.inst, gen := c.gen, resultG := g, delivery := c.p 4 1, batch := c.p 5 1,
    hold := c.p 6 1 == 1, stall := c.p 12 4, deadline := c.p 16 8, rowLimit := c.p 24 8, order := c.seq,
    scans := (List.range (c.p 7 1)).map fun j => (c.p (40 + 16 * j) 4, c.p (48 + 16 * j) 8),
    regions := (List.range (c.p 8 1)).map fun j => c.p (296 + 4 * j) 4,
    params := slice c.prm 360 (c.p 10 2) }

/-- R438: `QUERY_RUN` queues a run; an earlier completed run of its queue and tag is forgotten. -/
def queryRun (key : Nat) (c : Cmd) (s : State) : State :=
  match Tab.get s.pipes (c.p 0 2), s.globalOf c.inst (c.p 2 2) with
  | some p, some g =>
    if p.inst ≠ c.inst then s.completeCmd key Status.invalidField (c.fieldResidue 0)
    else if (Tab.at s.queues g).typ ≠ 2 then s.completeCmd key Status.invalidQueue
    else
      let old := s.runs.filter fun e => !(e.1 / 65536 == key / 65536 && e.2.tag == c.tag && e.2.st == 3)
      { s with runs := Tab.put old key (c.run g) }.beginCmd key
  | some p, none =>
    if p.inst ≠ c.inst then s.completeCmd key Status.invalidField (c.fieldResidue 0)
    else s.completeCmd key Status.invalidQueue
  | none, _ => s.completeCmd key Status.invalidField (c.fieldResidue 0)

/-- QUERY_RUN (R438, R560). -/
def execQueryRun (key : Nat) (s : State) : Host.Outcome State Fault Refusal :=
  match s.cmdDue key 0x4A with
  | some c => .next (whenDue (!c.started) s (queryRun key c s))
  | none => .next s

/-! ### RUN_START -/

/-- R439: another run of the pipeline is in progress or comes first. -/
def State.runWaits (s : State) (key : Nat) : Bool :=
  let r := Tab.at s.runs key
  s.runs.any fun e => e.1 != key && e.2.pipe == r.pipe && e.2.st != 3 && (e.2.st != 0 || e.2.failing || decide (e.2.order < r.order))

/-- R441: the length of the scan list at an offset of a region; none when it breaks R441. -/
def State.scanList (s : State) (g : Region) (off : Nat) : Option Nat :=
  let h := s.hbmRead (g.base + off) 16
  let n := fieldAt h 0 4
  let c := fieldAt h 4 1
  let len := 16 + n * (16 + 8 * c)
  if g.size < off + 16 ∨ n < 1 ∨ 65536 < n ∨ c < 1 ∨ 64 < c ∨ fieldAt h 5 11 ≠ 0 ∨ g.size < off + len then none
  else if (List.range n).all fun r =>
      let e := s.hbmRead (g.base + off + 16 + r * (16 + 8 * c)) 16
      decide (1 ≤ fieldAt e 8 4 ∧ fieldAt e 8 4 ≤ 1048576) && fieldAt e 12 4 == 0 then some len
  else none

/-- R442, R511: the first offence of the run's regions, scan lists and windows, as a residue. -/
def State.runOffence (s : State) (c : Cmd) (r : Run) (img : List Byte) : Option Nat :=
  let own := fun n => match Tab.get s.regions n with | some g => if g.inst = r.inst then some g else none | none => none
  let scan := (List.range r.scans.length).find? fun j =>
    match own (r.scans.getD j (0, 0)).1 with
    | some g => (s.scanList g (r.scans.getD j (0, 0)).2).isNone
    | none => true
  let region := (List.range r.regions.length).find? fun j => (own (r.regions.getD j 0)).isNone
  match scan, region with
  | some j, _ => some (c.fieldResidue (40 + 16 * j))
  | none, some j => some (c.fieldResidue (296 + 4 * j))
  | none, none =>
    (List.range (Img.stages img)).findSome? fun j =>
      let src := Img.st img j 32 2
      let scanBad :=
        if Img.st img j 1 1 ≠ 1 then none
        else match r.scans[src]? with
          | none => some (c.fieldResidue 7)
          | some (n, off) =>
            let cols := match own n with | some g => fieldAt (s.hbmRead (g.base + off) 16) 4 1 | none => 0
            let rcp := match Img.byId img 3 (Img.st img j 6 2) with | some x => slice img x.off x.len | none => []
            if (Rcp.withOp rcp 1).any fun k => decide (cols ≤ Rcp.b rcp k) then some (c.fieldResidue (40 + 16 * src)) else none
      let winBad := (List.range 8).any fun i =>
        let w := Img.win img j i
        w.kind == 2 && !bitAt w.flags 1 && (match r.regions[w.source]? with
          | some n => (match own n with | some g => decide (g.size < w.off + w.len) | none => true)
          | none => true)
      if scanBad.isSome then scanBad else if winBad then some (c.fieldResidue 8) else none

/-- What a step of the start answers when it cannot go on: the picks do not fit (none), or the run fails with a status. -/
abbrev Setup := Except (Option Nat)

/-- R440: the memory-plan areas are taken at picked places, and zeroed. -/
def State.takeAreas (s : State) (key : Nat) : List (Nat × Nat × Nat) → List Nat → Setup State
  | [], _ => .ok s
  | (no, kind, size) :: rest, picks =>
    if !s.memRoom 4096 size then .error (some Status.noResource)
    else match picks with
    | [] => .error none
    | a :: picks =>
      if a % 4096 ≠ 0 ∨ !s.memFree a size then .error none
      else ((s.wipe a size).setRun key fun r => { r with areas := r.areas ++ [(no, kind, a, size)] }).takeAreas key rest picks

/-- The firmware region's part for scan-list copies. -/
def scanSpace : Nat × Nat := (0x46C0000000, 0x4780000000)

/-- R442: every scan list is copied into the firmware region at picked places. -/
def State.takeScans (s : State) (key : Nat) : List (Nat × Nat) → List Nat → Setup State
  | [], _ => .ok s
  | _ :: _, [] => .error none
  | (n, off) :: rest, a :: picks =>
    let g := Tab.at s.regions n
    let len := (s.scanList g off).getD 0
    let clear := s.runs.all fun e => e.2.scanAt.all fun x => decide (a + len ≤ x.1 ∨ x.1 + x.2 ≤ a)
    if a < scanSpace.1 ∨ scanSpace.2 < a + len ∨ !clear then .error none
    else match s.poisonIn (g.base + off) len with
    | some _ => .error (some Status.uncorrectable)
    | none =>
      let s := s.poke a (s.hbmRead (g.base + off) len)
      let s := s.tallyAdd (Tab.at s.runs key).inst fun t => { t with hbmRead := t.hbmRead + len }
      (s.setRun key fun r => { r with scanAt := r.scanAt ++ [(a, len)] }).takeScans key rest picks

/-- R362: fold table `t` is set up from its plan at a picked device address: registers, shares, then `VALID`. -/
def State.openFold (s : State) (key p t a : Nat) : Setup State :=
  let r := Tab.at s.runs key
  let img := s.imgOf r
  let s := s.wr (R.FOLD_TBL_CFG t) (Img.fold img p 0 8)
  let s := s.wr (R.FOLD_TBL_CELLS t) (Img.fold img p 8 8)
  let s := s.wr (R.FOLD_TBL_PREC t) (Img.fold img p 16 8)
  let s := s.wr (R.FOLD_TBL_BASE t) (a / 128)
  let x := s.foldTab t
  let size := 128 * roundUp (x.entry * 2 ^ x.share) 256
  if !s.memRoom 32768 size then .error (some Status.noResource)
  else if a % 32768 ≠ 0 ∨ !s.memFree a size then .error none
  else
    let s := (s.wipe a size).setRun key fun r => { r with shares := r.shares ++ [(a, size)] }
    let s := s.setFld (R.FOLD_TBL_CFG t) F.FOLD_TBL_CFG_INSTANCE r.inst
    .ok ((s.setFld (R.FOLD_TBL_CFG t) F.FOLD_TBL_CFG_GENERATION r.gen).setFld (R.FOLD_TBL_CFG t) F.FOLD_TBL_CFG_VALID 1)

/-- R362: every fold table of the pipeline. -/
def State.takeFolds (s : State) (key : Nat) : List (Nat × Nat) → List Nat → Setup State
  | [], _ => .ok s
  | (p, t) :: rest, picks =>
    match s.openFold key p t (picks.headD 1) with
    | .error e => .error e
    | .ok s => s.takeFolds key rest picks.tail

/-- R445: the morsels of a `SCAN` stage in task order: address of the range entry's copy, first row, rows. -/
def State.morsels (s : State) (r : Run) (img : List Byte) (j : Nat) : List (Nat × Nat × Nat) :=
  let a := (r.scanAt.getD (Img.st img j 32 2) (0, 0)).1
  let cols := fieldAt (s.peek a 16) 4 1
  let m := Img.st img j 24 4
  (List.range (fieldAt (s.peek a 16) 0 4)).flatMap fun i =>
    let e := a + 16 + i * (16 + 8 * cols)
    let rows := fieldAt (s.peek e 16) 8 4
    (List.range (ceilDiv rows m)).map fun k => (e, k * m, min m (rows - k * m))

/-- R143: the ledger entries of a `SCAN` stage take the tasks that read each chunk. -/
def State.planLedger (s : State) (key j : Nat) : State :=
  let r := Tab.at s.runs key
  let img := s.imgOf r
  if Img.st img j 1 1 ≠ 1 then s
  else
    let src := Img.st img j 32 2
    let rcp := match Img.byId img 3 (Img.st img j 6 2) with | some x => slice img x.off x.len | none => []
    let cols := (Rcp.withOp rcp 1).map fun k => Rcp.b rcp k
    let ms := (s.morsels r img j).zipIdx
    ((ms.map (·.1.1)).eraseDups).foldl (fun s e =>
      let tasks := (ms.filter fun m => m.1.1 == e).map fun m => j * 2 ^ 32 + m.2
      cols.foldl (fun s c =>
        match s.ledgerOpen key (r.scans.getD src (0, 0)).1 (leNat (s.peek (e + 16 + 8 * c) 8)) with
        | (some k, s) => s.setLedger k fun x => x.plan tasks
        | (none, s) => s) s) s

/-- R440 to R443, R476: the run starts, fails, or (the picks do not fit) waits. -/
def runStart (key : Nat) (areas scans folds : List Nat) (r : Run) (s : State) : State :=
  let c := Tab.at s.cmds key
  let img := s.imgOf r
  let t := s.setRun key fun r =>
    { r with st := 1, startT := s.now, stages := List.replicate (Img.stages img) {} }
  let fail (status : Nat) (residue : Nat := 0) : State :=
    (s.setRun key fun r => { r with st := 1, startT := s.now }).failRun key status 0 0 residue
  if r.deadline ≠ 0 ∧ r.deadline ≤ s.now then fail Status.deadlineMissed
  else match s.runOffence c r img with
  | some residue => fail Status.invalidField residue
  | none =>
    if !s.memQuota r.inst (total ((Img.areas img).map (·.2.2))) then fail Status.quotaExceeded
    else
      let done := (t.takeAreas key (Img.areas img) areas).bind fun t =>
        (t.takeScans key r.scans scans).bind fun t => t.takeFolds key (Tab.at s.pipes r.pipe).foldTabs folds
      match done with
      | .ok t => (List.range (Img.stages img)).foldl (fun t j => t.planLedger key j) t
      | .error (some status) => fail status
      | .error none => s

/-- RUN_START (R143, R272, R362, R439 to R442, R476, R511, R591): the next run of a pipeline starts, its areas, scan-list
copies and fold-table shares at picked places. -/
def execRunStart (key : Nat) (areas scans folds : List Nat) (s : State) : Host.Outcome State Fault Refusal :=
  match Tab.get s.runs key with
  | some r => .next (whenDue (s.serving && r.st == 0 && !r.failing && !s.runWaits key) s (runStart key areas scans folds r s))
  | none => .next s

/-! ### STAGE_START -/

/-- A stage of a run changed. -/
def State.setStage (s : State) (key j : Nat) (f : StageRun → StageRun) : State :=
  s.setRun key fun r => { r with stages := r.stages.set j (f (r.stages.getD j {})) }

/-- R443: every stage that stage `j` waits on has completed. -/
def Run.waitsOver (r : Run) (img : List Byte) (j : Nat) : Bool :=
  (Img.waits img j).all fun i => (r.stages.getD i {}).st == 2

/-- R445: the runs of stage `SOURCE`, in ascending producer task number. -/
def State.runsOf (s : State) (key src : Nat) : List Nat :=
  ((s.sruns.filter fun e => e.2.run == key && e.2.stage == src && e.2.st == 3).mergeSort fun a b =>
    decide (a.2.taskNo * 2 ^ 48 + a.1 ≤ b.2.taskNo * 2 ^ 48 + b.1)).map (·.1)

/-- The bytes taken of a memory-plan area. -/
def Run.takenOf (r : Run) (no : Nat) : Nat := match r.taken.find? (·.1 == no) with | some x => x.2 | none => 0

/-- R445: what the tasks of a `MERGE` stage merge: every run for each key range, or groups of `FANIN` runs. -/
def State.mergeInputs (s : State) (key j : Nat) : Option (List (List Nat)) :=
  let r := Tab.at s.runs key
  let img := s.imgOf r
  let l := Img.st img j 232 2
  let runs := s.runsOf key (Img.st img j 32 2)
  let split := Img.ladder img l 18 2
  if split = 0xFFFF then some (piecesOf (Img.ladder img l 2 2) runs)
  else if 1024 < runs.length then none
  else some (List.replicate (r.takenOf split / 64 + 1) runs)

/-- R443, R445: what the tasks of stage `j` consume, as many as there are tasks; none when the run must fail. -/
def State.stageInputs (s : State) (key j : Nat) : Except Nat (List (List Nat) × State) :=
  let r := Tab.at s.runs key
  let img := s.imgOf r
  match Img.st img j 1 1 with
  | 1 => .ok ((s.morsels r img j).map fun _ => [], s)
  | 2 => (match s.blockInputs key j with | some x => .ok x | none => .error Status.spillFull)
  | 3 => (match s.mergeInputs key j with | some x => .ok (x, s) | none => .error Status.noResource)
  | _ => .ok (List.replicate (Img.st img j 28 4) [], s)

/-- R459, R699: the slots of a stage are made ready: Sconces cleaned and invalidated, owned windows zeroed, and (R338) the
directory of a plan that the stage builds. -/
def State.openSlots (s : State) (key j : Nat) : State :=
  let img := s.imgOf (Tab.at s.runs key)
  let h := Img.st img j 234 2
  (Img.slots img j).foldl (fun s m =>
    let s := match s.lanternOf m with | some n => s.sconceFlush n | none => s
    let s := s.zeroOwned img j m
    if h < Img.entries img 5 16 ∧ Img.buildStage img h = some j then s.zeroDirectory key h m else s) s

/-- R448: the window of a stage that reaches `n` bytes at a device address or lantern-store offset: number, offset. A block
that no window reaches has no stated offset or number: free values. -/
def State.inWindow (s : State) (r : Run) (img : List Byte) (j kind a n : Nat) : Nat × Nat × State :=
  let ws := s.windows r img j
  match (List.range 8).find? fun i =>
      let w := ws.getD i (0, 0, 0)
      w.1 == kind && decide (w.2.1 ≤ a ∧ a + n ≤ w.2.1 + w.2.2) with
  | some i => (i, a - (ws.getD i (0, 0, 0)).2.1, s)
  | none =>
    let x := s.draw
    let y := x.2.draw
    (x.1, y.1, y.2)

/-- R448: the morsel descriptor of task `t` of stage `j`. -/
def State.morselOf (s : State) (key j t : Nat) : List Byte × State :=
  let r := Tab.at s.runs key
  let img := s.imgOf r
  match Img.st img j 1 1 with
  | 1 =>
    let m := (s.morsels r img j).getD t (0, 0, 0)
    (le m.1 8 ++ le m.2.1 4 ++ le m.2.2 4, s)
  | 2 =>
    let a := (((r.stages.getD j {}).inputs.getD t []).headD 0)
    let b := Tab.at s.blocks a
    let lx := Img.xch img b.desc 2 2
    let w := if b.hbm then s.inWindow r img j 2 a 4096 else s.inWindow r img j 1 (a - lstoreKey b.lantern 0) 4096
    (le w.2.1 8 ++ le w.1 4 ++ le (b.bytes / lx) 4, w.2.2)
  | _ => (zeros 16, s)

/-- R205: the kernel header of a stage. -/
def Img.kernel (img : List Byte) (j : Nat) : List Byte :=
  match Img.byId img 2 (Img.st img j 4 2) with | some x => slice img x.off 384 | none => []

/-- R445, R446, R451, R513: task `t` of a stage is created in context `i` on a slot, and is READY. -/
def State.createTask (s : State) (key j t i slot : Nat) : State :=
  let r := Tab.at s.runs key
  let img := s.imgOf r
  let m := s.morselOf key j t
  let c : Ctx := { taskNo := t, stage := j, slot := slot, inst := r.inst, gen := r.gen, prio := Img.st img j 2 1,
                   preempt := bitAt (fieldAt (Img.kernel img j) 6 1) 0,
                   gated := !(Img.list img j 216 16).isEmpty && !Img.noGate img j, pipe := r.pipe, morsel := m.1, run := key,
                   round := ((r.stages.getD j {}).inputs.getD t []).getD 1 0 }
  ({ m.2 with ctxs := Tab.put m.2.ctxs i c }.setStage key j fun x => { x with created := x.created + 1 }).makeReady i

/-- R449: task `t` of stage `j` may be placed on a slot. -/
def State.placeOk (s : State) (r : Run) (img : List Byte) (j t slot : Nat) : Bool :=
  if Img.st img j 1 1 = 2 then (Tab.at s.blocks (((r.stages.getD j {}).inputs.getD t []).headD 0)).slot == slot
  else (Img.slots img j).contains slot && (s.lanternOf slot).isSome

/-- R446: how many task contexts are FREE. -/
def State.freeContexts (s : State) : Nat := 2097152 - s.ctxs.length

/-- R445, R446: tasks are created under picked contexts and slots; a pick that does not fit ends them. -/
def State.createTasks (s : State) (key j : Nat) : List (Nat × Nat) → State
  | [] => s
  | (i, slot) :: rest =>
    let r := Tab.at s.runs key
    let x := r.stages.getD j {}
    if x.total ≤ x.created ∨ 2097152 ≤ i ∨ (Tab.get s.ctxs i).isSome ∨ !s.placeOk r (s.imgOf r) j x.created slot then s
    else (s.createTask key j x.created i slot).createTasks key j rest

/-- R446: the picks name a context for every task that can have one now. -/
def State.picksWhole (s : State) (key j : Nat) (picks : List (Nat × Nat)) : Bool :=
  let x := (Tab.at s.runs key).stages.getD j {}
  picks.length == min (x.total - x.created) s.freeContexts

/-- R443, R445, R446: a stage starts, goes on creating its tasks, or (R350) begins the next round of a slot. -/
def stageStart (key j : Nat) (picks : List (Nat × Nat)) (r : Run) (s : State) : State :=
  let img := s.imgOf r
  let x := r.stages.getD j {}
  let go (s : State) : State := if s.picksWhole key j picks then s.createTasks key j picks else s
  if x.st = 0 then
    if !r.waitsOver img j then s
    else match s.stageInputs key j with
    | .error status => if status = Status.spillFull then s.spillFail key 0 else s.failRun key status
    | .ok (ins, s') =>
      let t := (s'.openSlots key j).setStage key j fun x => { x with st := 1, total := ins.length, inputs := ins }
      if t.picksWhole key j picks then t.createTasks key j picks else s
  else if x.created < x.total then go s
  else match Img.source img j, r.rounds.find? fun y => !y.begun && s.roundDue key y && Img.buildStage img y.hash == some j
      && (r.nextRound y.slot == some y) with
  | some d, some y =>
    (match s.beginRound key j d y with
     | none => s.spillFail key y.slot
     | some (ins, t) =>
       let t := t.setStage key j fun x =>
         { x with total := x.total + ins.length, inputs := x.inputs ++ ins, slotsDone := x.slotsDone.filter (· != y.slot) }
       if t.picksWhole key j picks then t.createTasks key j picks else s)
  | _, _ => s

/-- STAGE_START (R329, R338, R350, R443, R445, R446, R449, R459, R513, R699): stage `stage` of run `key` starts, or goes on
creating tasks; `picks` are the context and slot of each. -/
def execStageStart (key stage : Nat) (picks : List (Nat × Nat)) (s : State) : Host.Outcome State Fault Refusal :=
  match Tab.get s.runs key with
  | some r => .next (whenDue (s.live && r.active && decide (stage < r.stages.length)) s (stageStart key stage picks r s))
  | none => .next s

/-! ### STAGE_BARRIER -/

/-- R443: the emitted bytes of a stage's tasks, in ascending task number. -/
def State.outputOf (s : State) (key j : Nat) : List Byte :=
  ((s.ctxs.filter fun e => e.2.run == key && e.2.stage == j && e.2.st == .committed).mergeSort fun a b =>
    decide (a.2.taskNo ≤ b.2.taskNo)).flatMap fun e => e.2.emit

/-- R443, R464: the bytes are appended to the stage's `OUTPUT` area. -/
def State.concatOutput (s : State) (key j : Nat) : State :=
  let r := Tab.at s.runs key
  let img := s.imgOf r
  if !Img.emit img j || Img.emitting img j then s
  else
    let no := Img.st img j 34 2
    let bs := s.outputOf key j
    match r.area no with
    | none => s
    | some (a, size) =>
      if size < r.takenOf no + bs.length then s.failRun key Status.spillFull
      else
        let s := s.poke (a + r.takenOf no) bs
        let s := s.tallyAdd r.inst fun t => { t with hbmWritten := t.hbmWritten + bs.length }
        let s := s.setRun key fun r => { r with taken := r.taken.filter (·.1 != no) ++ [(no, r.takenOf no + bs.length)] }
        { s with ctxs := s.ctxs.map fun e => if e.2.run = key ∧ e.2.stage = j then (e.1, { e.2 with emit := [] }) else e }

/-- R443: the stages that wait on stage `j` and on nothing else that has not completed. -/
def Run.released (r : Run) (img : List Byte) (j : Nat) : List Nat :=
  (List.range (Img.stages img)).filter fun i =>
    (Img.waits img i).contains j && (Img.waits img i).all fun k => k == j || (r.stages.getD k {}).st == 2

/-- R282: the Chandelier tables to load at stage `j`'s barrier: 32c + t, and the `OUTPUT` area of the load array. -/
def State.loadsAt (s : State) (key j : Nat) : List (Nat × Nat) :=
  let r := Tab.at s.runs key
  let img := s.imgOf r
  let first (l : Nat) : Option Nat := (List.range (Img.stages img)).find? fun i => (Img.list img i 216 16).contains l
  let due := (List.range (Img.entries img 6 16)).filter fun l =>
    match first l with | some i => (r.released img j).contains i | none => false
  due.filterMap fun l =>
    ((Tab.at s.pipes r.pipe).chdTabs.find? (·.1 == l)).map fun t => (t.2, Img.chd img l 2 2)

/-- R346, R349 to R351: the build counts and rounds of the exchanges that released stages consume. -/
def State.buildWork (s : State) (key j rows nulls : Nat) : State :=
  let img := s.imgOf (Tab.at s.runs key)
  ((Tab.at s.runs key).released img j).foldl (fun s i =>
    (s.setStage key i fun x => { x with buildRows := rows, buildNulls := nulls }).judgeBuild key i) s

/-- R443: the barrier work of a stage begins. -/
def State.barrierBegin (s : State) (key j rows nulls : Nat) : State :=
  let s := s.concatOutput key j
  if (Tab.at s.runs key).failing then s
  else
    let s := s.buildWork key j rows nulls
    if (Tab.at s.runs key).failing then s
    else s.setStage key j fun x => { x with barrier := true, loads := s.loadsAt key j }

/-- R282: the next load of a barrier: `CLEAR`, then `GO` with the records of the load array. -/
def State.barrierLoad (s : State) (key : Nat) (l : Nat × Nat) : State :=
  let r := Tab.at s.runs key
  let c := l.1 / 32
  let n := r.takenOf l.2 / 64
  let s := s.clearTable c (l.1 % 32)
  if n = 0 then s
  else if 65536 < n then s.failRun key Status.tableLoadFailed
  else
    let s := s.wr (R.CHD_LOAD_ADDR c) ((r.area l.2).getD (0, 0)).1
    loadCtlWrite c (n + (l.1 % 32) * 2 ^ 17 + 2 ^ 22) s

/-- R443: the barrier of a stage advances: its loads one after another, one at a time on a Chandelier, then the stage is
complete. -/
def State.barrierStep (s : State) (key j : Nat) : State :=
  let x := (Tab.at s.runs key).stages.getD j {}
  match x.loads with
  | l :: rest =>
    if (s.chd (l.1 / 32)).load.isSome then s
    else
      let s := s.setStage key j fun x => { x with loads := rest }
      s.barrierLoad key l
  | [] =>
    if (s.loadsAt key j).any fun l => s.bit (R.CHD_TABLE (l.1 / 32) (l.1 % 32)) F.CHD_TABLE_LOADING then s
    else s.setStage key j fun x => { x with st := 2, barrier := false }

/-- R385, R443: the fold tables that stage `j` was the last to fold into are finished. -/
def State.foldsFinished (s : State) (key j : Nat) : Bool :=
  let r := Tab.at s.runs key
  (Img.list (s.imgOf r) j 208 8).all fun p =>
    !s.finishDue key p || (match (Tab.at s.pipes r.pipe).foldTabs.find? (·.1 == p) with
      | some (_, t) => (s.foldTab t).finished
      | none => true)

/-- STAGE_BARRIER (R282, R338, R342, R346, R349 to R351, R353, R385, R443, R459): the barrier work of a stage, one step of
it; `rows` and `nulls` are the committed build counts of R346. -/
def execStageBarrier (key stage rows nulls : Nat) (s : State) : Host.Outcome State Fault Refusal :=
  match Tab.get s.runs key with
  | some r =>
    let x := r.stages.getD stage {}
    .next (whenDue (s.serving && r.active && x.created == x.total && s.stageTasksDone key stage && s.foldsFinished key stage) s
      (if x.barrier then s.barrierStep key stage else s.barrierBegin key stage rows nulls))
  | none => .next s

/-! ### QUERY_ABORT, QUERY_STATUS and deadlines -/

/-- A queue and tag match an accepted `QUERY_RUN` that has not started. -/
def State.queuedRun (s : State) (g tag : Nat) : Option Nat :=
  (s.cmds.find? fun e => e.2.g == g && e.2.tag == tag && e.2.opcode == 0x4A && !e.2.started && !e.2.finished && !e.2.isOpen).map
    (·.1)

/-- The run of a queue and tag. -/
def State.runOfTag (s : State) (g tag : Nat) : Option (Nat × Run) :=
  match s.runs.find? fun e => e.1 / 65536 == g && e.2.tag == tag && e.2.st != 3 with
  | some e => some e
  | none => s.runs.find? fun e => e.1 / 65536 == g && e.2.tag == tag

/-- R458: `QUERY_ABORT`. -/
def queryAbort (key : Nat) (c : Cmd) (s : State) : State :=
  match s.globalOf c.inst (c.p 0 2) with
  | none => s.completeCmd key Status.invalidQueue
  | some g =>
    match s.runOfTag g (c.p 2 2), s.queuedRun g (c.p 2 2) with
    | some (k, r), q =>
      if r.st ≠ 3 then (s.failRun k Status.abortedHost).completeCmd key Status.ok 0 1
      else match q with
        | some k => (s.finishCmd k Status.abortedHost).completeCmd key Status.ok 0 1
        | none => s.completeCmd key Status.ok
    | none, some k => (s.finishCmd k Status.abortedHost).completeCmd key Status.ok 0 1
    | none, none => s.completeCmd key Status.ok

/-- QUERY_ABORT (R456, R458, R565). -/
def execQueryAbort (key : Nat) (s : State) : Host.Outcome State Fault Refusal :=
  match s.cmdDue key 0x4B with
  | some c => .next (queryAbort key c s)
  | none => .next s

/-- R563: the record of a run. -/
def Run.record (r : Run) : List Byte :=
  le r.st 1 ++ le (r.stages.filter (·.st == 2)).length 1 ++ le r.status 2 ++ le r.check 4 ++ le r.failOff 8
    ++ le r.committed 8 ++ le r.rows 8 ++ le r.startT 8 ++ le (if r.st = 3 then r.endT else 0) 8 ++ zeros 16

/-- R563: what `QUERY_STATUS` writes for a queue and tag. -/
def State.statusRecord (s : State) (g tag : Nat) : List Byte :=
  let queued := zeros 64
  match s.runOfTag g tag, s.queuedRun g tag with
  | some (_, r), q => if r.st = 3 ∧ q.isSome then queued else r.record
  | none, some _ => queued
  | none, none => le 0xFF 1 ++ zeros 63

/-- R563: `QUERY_STATUS`. -/
def queryStatus (key : Nat) (c : Cmd) (s : State) : State :=
  match s.globalOf c.inst (c.p 0 2) with
  | none => s.completeCmd key Status.invalidQueue
  | some g =>
    if !hostFits (c.p 8 8) 64 then s.completeCmd key Status.invalidField (c.fieldResidue 8)
    else ((s.beginCmd key).dataWrite key (c.p 8 8) (s.statusRecord g (c.p 2 2))).awaitData key 64

/-- QUERY_STATUS (R563, R565). -/
def execQueryStatus (key : Nat) (s : State) : Host.Outcome State Fault Refusal :=
  match s.cmdDue key 0x4C with
  | some c => .next (whenDue (!c.started) s (queryStatus key c s))
  | none => .next s

/-- DEADLINE_MISSED (R456, R475, R477, R478): rack time has reached the deadline of a run before its `END` entry was
written; during a switch-over gap it waits for the gap's end. -/
def execDeadlineMissed (key : Nat) (s : State) : Host.Outcome State Fault Refusal :=
  match Tab.get s.runs key with
  | some r => .next (whenDue (s.live && !s.crank.gap && decide (r.deadline ≠ 0 ∧ r.deadline ≤ s.now) && r.st != 3 && r.st != 0
      && !r.failing && !r.endWritten) s (s.failRun key Status.deadlineMissed))
  | none => .next s

end Sys2Proof.Machine
end

