-- ==== Sys2Proof/Machine/Sort.lean ====
section
/-! DEFINITION. The sort ladder, its run builder, the merge engine and the format slots (R403 to R421;
09_sorting.md). -/
namespace Sys2Proof.Machine

/-- The ladder of a wick, idle when its task has none. -/
def Wick.lad (k : Wick) : Ladder := k.ladder.getD {}

/-! ### The ladder -/

/-- R406: the wick of lantern `n` whose oldest unsorted sealed run carries the lowest seal number, with that number. -/
def State.oldestSeal (s : State) (n : Nat) : Option (Nat × Nat) :=
  s.wicks.foldl (fun best e =>
    if e.1 / 17 = n then
      match e.2.sealed.find? (!·.sorted), best with
      | some r, some b => if r.no < b.2 then some (e.1, r.no) else best
      | some r, none => some (e.1, r.no)
      | none, _ => best
    else best) none

/-- R416: a record offered to the heap of the `N` smallest, held ascending; whether one was discarded. -/
def heapOffer (n : Nat) (heap : List Nat) (r : Nat) : List Nat × Bool :=
  if heap.length < n then (insertRec r heap, false)
  else if r < heap.getLastD 0 then (insertRec r heap.dropLast, false)
  else (heap, true)

/-- R406, R407, R409, R416: the sorted run goes to `SLPOP`, to the run buffer in the lantern store, or to the heap. -/
def ladderSort (n pos no : Nat) (s : State) : State :=
  let k := s.wick pos
  let recs := sortRecs ((k.sealed.find? (·.no == no)).getD {}).recs
  let s := s.bump (R.LAN_SL_RUNS n)
  let rest := k.sealed.filter (·.no != no)
  if k.lad.mode = 2 then
    let b := k.bufRecs + recs.length
    (s.poke (lstoreKey n (k.lad.buf + 64 * k.bufRecs)) (bytesOfRecs recs)).setWick pos fun k =>
      { k with sealed := rest, bufRecs := b, closing := decide (k.lad.runRecords ≤ b) }
  else if k.lad.mode = 3 then
    let r := recs.foldl (fun (st : List Nat × Nat) x =>
      let o := heapOffer k.lad.topn st.1 x
      (o.1, if o.2 then st.2 + 1 else st.2)) (k.heap, 0)
    (s.setWick pos fun k => { k with sealed := rest, heap := r.1 }).bump (R.LAN_SL_TOPN_DROPS n) r.2
  else s.setWick pos fun k =>
    { k with sealed := k.sealed.map fun x => if x.no = no then { x with recs := recs, sorted := true } else x }

/-- R409: the run buffer of a `BUILD` task has room for its oldest sealed run. -/
def Wick.bufRoom (k : Wick) : Bool :=
  !k.closing && decide (k.bufRecs + (k.sealed.headD {}).recs.length ≤ k.lad.runRecords)

/-- LADDER_SORT (R406): the oldest sealed run of lantern `n` is sorted. `upset`: an upset was found in the run buffer
(`LANnn_SL_ERR.PARITY`), which fails the task. -/
def execLadderSort (n : Nat) (upset : Bool) (s : State) : Host.Outcome State Fault Refusal :=
  match s.oldestSeal n with
  | some (pos, no) =>
    .next (whenDue (s.live && (decide ((s.wick pos).lad.mode ≠ 2) || (s.wick pos).bufRoom)) s
      (if upset then (s.raise (R.LAN_SL_ERR n) F.LAN_SL_ERR_PARITY).failTask pos Status.uncorrectable
       else ladderSort n pos no s))
  | none => .next s

/-! ### Runs in HBM (R410, R411) -/

/-- Bytes a run of `n` records occupies. -/
def runBytes (n : Nat) : Nat := 64 + 64 * n

/-- R410: the header of a run. -/
def runHeader (r : SRun) : List Byte :=
  [0x50, 0x4B, 0x53, 0x52] ++ le r.st 1 ++ le r.epoch 1 ++ le r.gen 2 ++ le r.inst 2 ++ zeros 2 ++ le r.ctx 4
    ++ le r.records 4 ++ zeros 44

/-- A run of `n` records may be placed at `a` of a run area. -/
def State.runFits (s : State) (run : Nat) (l : Ladder) (n a : Nat) : Bool :=
  decide (a % 64 = 0 ∧ l.area ≤ a ∧ a + runBytes n ≤ l.area + l.areaSize) &&
    !(s.sruns.any fun e => e.2.run == run && decide (a < e.1 + runBytes e.2.records ∧ e.1 < a + runBytes n))

/-- R411: the run area has room somewhere for a run of `n` records: at its start, or at the end of some run. -/
def State.runRoom (s : State) (run : Nat) (l : Ladder) (n : Nat) : Bool :=
  s.runFits run l n l.area || s.sruns.any fun e => e.2.run == run && s.runFits run l n (e.1 + runBytes e.2.records)

/-- R411: a run of sorted records is written at `a`, and is STAGED. -/
def State.writeRun (s : State) (pos a : Nat) (recs : List Nat) : State :=
  let k := s.wick pos
  let c := Tab.at s.ctxs k.ctx
  let r : SRun := { run := c.run, stage := c.stage, areaNo := k.lad.areaNo, ctx := k.ctx, taskNo := c.taskNo,
                    epoch := c.epoch, inst := c.inst, gen := c.gen, records := recs.length, st := 2 }
  let bs := runHeader r ++ bytesOfRecs recs
  let s := s.sconceWrite (pos / 17) a bs
  let s := s.tallyAdd c.inst fun x => { x with hbmWritten := x.hbmWritten + bs.length }
  { s with sruns := Tab.put s.sruns a r, ctxs := Tab.upd s.ctxs k.ctx fun c => { c with runs := c.runs ++ [a] } }.bump
    (R.LAN_SL_CLOSES (pos / 17))

/-- R411, R464: the run area is full: the task fails with `SPILL_FULL`. -/
def State.runFull (s : State) (pos : Nat) : State :=
  (s.raise (R.LAN_SL_ERR (pos / 17)) F.LAN_SL_ERR_SPILL_FULL).failTask pos Status.spillFull

/-- R409, R416: the records a close is to write, when one is due. -/
def State.closeDue (s : State) (pos : Nat) : Option (List Nat) :=
  let k := s.wick pos
  let ended := decide (k.st = 3) && k.sealed.isEmpty
  let held := recsOf (s.peek (lstoreKey (pos / 17) k.lad.buf) (64 * k.bufRecs))
  if k.lad.mode = 2 ∧ k.bufRecs ≠ 0 ∧ (k.closing ∨ ended ∨ (!k.sealed.isEmpty && !k.bufRoom)) then some (sortRecs held)
  else if k.lad.mode = 3 ∧ ended ∧ !k.heap.isEmpty then some k.heap
  else none

/-- R409, R411, R416: the buffer or heap is written as one run at `a`. -/
def runClose (pos a : Nat) (recs : List Nat) (s : State) : State :=
  let s := s.writeRun pos a recs
  (s.setWick pos fun k => { k with bufRecs := 0, closing := false, heap := [] }).settleWick pos

/-- RUN_CLOSE (R409, R411, R416): wick `w`'s buffer or heap is written as a run at device address `a` of the run
area; the spec fixes no place within the area. -/
def execRunClose (w a : Nat) (s : State) : Host.Outcome State Fault Refusal :=
  match s.closeDue w with
  | some recs =>
    let run := (Tab.at s.ctxs (s.wick w).ctx).run
    if !s.live then .next s
    else if !s.runRoom run (s.wick w).lad recs.length then .next (s.runFull w)
    else .next (whenDue (s.runFits run (s.wick w).lad recs.length a) s (runClose w a recs s))
  | none => .next s

/-! ### Merge (R412 to R415) -/

/-- R414: the first listed run that may not be merged. -/
def State.badRun (s : State) (pos : Nat) : Option Nat :=
  let c := Tab.at s.ctxs (s.wick pos).ctx
  let l := (s.wick pos).lad.runList
  (List.range l.length).find? fun i =>
    match Tab.get s.sruns (l.getD i 0) with
    | some r => decide (r.st ≠ 3 ∨ r.inst ≠ c.inst ∨ r.gen ≠ c.gen)
    | none => true

/-- R413: the records of the listed runs within the bounds, ascending, up to the limit. -/
def State.mergeRecs (s : State) (pos : Nat) : List Nat :=
  let l := (s.wick pos).lad
  let recs := sortRecs (l.runList.flatMap fun a => recsOf (s.hbmRead (a + 64) (64 * (Tab.at s.sruns a).records)))
  let within := recs.filter fun r =>
    (match l.lo with | some b => decide (b ≤ r) | none => true) && (match l.hi with | some b => decide (r < b) | none => true)
  if l.limit = 0 then within else within.take l.limit

/-- R415: another wick of the lantern holds the merge engine: its merged stream is not yet read. -/
def State.mergeBusy (s : State) (pos : Nat) : Bool :=
  s.wicks.any fun e => e.1 / 17 == pos / 17 && e.1 != pos && e.2.lad.mode == 4 && e.2.merged && !e.2.sealed.isEmpty

/-- R413: the merged records go to `SLPOP`, or to a new run at `a`. -/
def sortMerge (pos a : Nat) (recs : List Nat) (s : State) : State :=
  let c := Tab.at s.ctxs (s.wick pos).ctx
  let s := s.bump (R.LAN_SL_MERGED (pos / 17)) recs.length
  let s := s.tallyAdd c.inst fun x => { x with hbmRead := x.hbmRead + 64 * recs.length }
  let l := (s.wick pos).lad
  let s := if l.output = 0 ∧ !recs.isEmpty then s.writeRun pos a recs else s
  (s.setWick pos fun k =>
    { k with merged := true,
             sealed := if l.output = 1 ∧ !recs.isEmpty then k.sealed ++ [{ no := s.sealCount, sorted := true, recs := recs }]
                       else k.sealed }).settleWick pos

/-- MERGE (R413 to R415): the merge task of wick `w` is served; an output run is placed at `a` of the run area. -/
def execSortMerge (w a : Nat) (s : State) : Host.Outcome State Fault Refusal :=
  let k := s.wick w
  if !s.live || !decide (k.st = 1 ∨ k.st = 3) || k.lad.mode != 4 || k.merged || s.mergeBusy w
      || !s.bit (R.LAN_SL_CTL (w / 17)) F.LAN_SL_CTL_EN then .next s
  else match s.badRun w with
  | some i => .next (s.trapAt w (s.codeWord (w / 17) k.pc) 1 i false)
  | none =>
    let recs := s.mergeRecs w
    let run := (Tab.at s.ctxs k.ctx).run
    if k.lad.output = 1 ∨ recs.isEmpty then .next (sortMerge w a recs s)
    else if !s.runRoom run k.lad recs.length then .next (s.runFull w)
    else .next (whenDue (s.runFits run k.lad recs.length a) s (sortMerge w a recs s))

/-! ### Format slots (R419 to R421) -/

/-- R420: `FMT_VALID` bits set or cleared by a write of `LANnn_SL_FMTCTL`. -/
def fmtCtl (n set clear : Nat) (s : State) : State :=
  let v := s.fld (R.LAN_SL_STAT n) F.LAN_SL_STAT_FMT_VALID
  s.setFld (R.LAN_SL_STAT n) F.LAN_SL_STAT_FMT_VALID ((v ||| set % 256) &&& (255 ^^^ (clear % 256)))

/-- FMTCTL_SET (R420). -/
def execFmtctlSet (who : Who) (n bits : Nat) (s : State) : Host.Outcome State Fault Refusal :=
  .next (whenDue (s.live && reaches who && decide (n < 68)) s (s.journalCsr (fmtCtl n bits 0 s) who (R.LAN_SL_STAT n)))

/-- FMTCTL_CLEAR (R420). -/
def execFmtctlClear (who : Who) (n bits : Nat) (s : State) : Host.Outcome State Fault Refusal :=
  .next (whenDue (s.live && reaches who && decide (n < 68)) s (s.journalCsr (fmtCtl n 0 bits s) who (R.LAN_SL_STAT n)))

/-- R419: the descriptor word holds a reserved `TYPE`, a `FLAGS` bit in [7:3], or an `ARG` outside R396. -/
def fmtReserved (val : Nat) : Bool :=
  let ty := bitsOf val 0 8
  let arg := bitsOf val 24 8
  decide (0x11 < ty) || decide (8 ≤ bitsOf val 16 8) ||
    (if ty = 0x10 then decide (arg < 1 ∨ 64 < arg) else if ty = 0x11 then decide (arg < 1 ∨ 32 < arg) else arg != 0)

/-- R421: a running task of lantern `n` uses a format slot. -/
def State.fmtInUse (s : State) (n f : Nat) : Bool :=
  s.wicks.any fun e => e.1 / 17 == n && e.2.st != 0 && e.2.ladder.isSome && e.2.lad.mode != 4 && e.2.lad.fmt == f

/-- R419, R421: a write of word `j` of the format window of lantern `n`. -/
def formatWrite (n j val : Nat) (s : State) : State :=
  if s.fmtInUse n (j / 8) then s.raise (R.LAN_SL_ERR n) F.LAN_SL_ERR_FMT_BUSY
  else if fmtReserved val then s.raise (R.LAN_SL_ERR n) F.LAN_SL_ERR_BADCFG
  else s.wr (R.LAN_SL_FMT n j) val

/-- FORMAT_WINDOW_WRITE (R419 to R421): word `j`, 0 to 63, of the window of lantern `n`. -/
def execFormatWindowWrite (who : Who) (n j val : Nat) (s : State) : Host.Outcome State Fault Refusal :=
  .next (whenDue (s.live && reaches who && decide (n < 68 ∧ j < 64)) s
    (s.journalCsr (formatWrite n j val s) who (R.LAN_SL_FMT n j)))

end Sys2Proof.Machine
end

