-- ==== Sys2Proof/Machine/Tasks.lean ====
section
/-! DEFINITION. Tasks on wicks: dispatch, preemption, resumption, the commit check, publication, the slot commit and
migration (R209, R213, R214, R447 to R455, R459 to R461, R479, R480, R513 to R518, R523; 10_pipelines.md,
11_derailleur_time.md). -/
namespace Sys2Proof.Machine

/-! ### What the Derailleur chooses (R514, R588) -/

/-- R588: wick time that an instance's share of a load window is worth, in core cycles (two per ns). -/
def State.shareCycles (s : State) (inst : Nat) : Nat :=
  s.capOf inst 0 * s.fld R.DRL_COGCFG F.DRL_COGCFG_LOADWIN * s.fld R.DRL_COGCFG F.DRL_COGCFG_PERIOD * 2

/-- R588: the instance received less than its share over the last completed load window. -/
def State.belowShare (s : State) (inst : Nat) : Bool := decide ((Tab.at s.insts inst).lastShare < s.shareCycles inst)

/-- R588: the instance received more than its share. -/
def State.overShare (s : State) (inst : Nat) : Bool := decide (s.shareCycles inst < (Tab.at s.insts inst).lastShare)

/-- R350, R469: a listed task may go to a wick now: its run is active, its stage does not wait on the result ring, its
round is built. -/
def State.eligible (s : State) (i : Nat) : Bool :=
  let c := Tab.at s.ctxs i
  let r := Tab.at s.runs c.run
  r.active && !(Img.emitting (s.imgOf r) c.stage && s.resultWaits c.run && c.st == .ready) && s.roundReady c

/-- R514: the eligible tasks of the highest-priority list of slot `m` that holds one. -/
def State.candidates (s : State) (m : Nat) : List Nat :=
  match (List.range 8).find? fun p => (Tab.at s.ready (8 * m + p)).any s.eligible with
  | some p => (Tab.at s.ready (8 * m + p)).filter s.eligible
  | none => []

/-- R514, R588: the Derailleur may choose task `i` for slot `m`: instances below their share come first. -/
def State.mayChoose (s : State) (m i : Nat) : Bool :=
  let cs := s.candidates m
  let owner := fun j => (Tab.at s.ctxs j).inst
  cs.contains i && (s.belowShare (owner i) || !(cs.any fun j => s.belowShare (owner j)))

/-- R24, R209, R514: the wick at a position is free and in service; the spare wick only while it replaces another. -/
def State.wickFree (s : State) (pos : Nat) : Bool :=
  (s.wick pos).st == 0 && (s.wickNum pos).isSome &&
    (decide (pos % 17 < 16) || decide (s.fld (R.LAN_REP_STAT (pos / 17)) F.LAN_REP_STAT_SPARE_FOR < 16))

/-- R523: a wait of `w` cogs is counted in its bin of slot `m`. -/
def State.countWait (s : State) (m w : Nat) : State :=
  let bin := if w = 0 then 0 else if 2 ^ 14 ≤ w then 15 else Nat.log2 w + 1
  s.bump (R.DRL_HIST (16 * m + bin))

/-! ### DISPATCH -/

/-- R447: the parameter block of a task, `n` slots of it. -/
def State.paramBlock (s : State) (i n : Nat) : List Byte :=
  let c := Tab.at s.ctxs i
  let r := Tab.at s.runs c.run
  let x := r.stages.getD c.stage {}
  let shown := (x.inputs.getD c.taskNo []).getD 2 0
  let task := le c.taskNo 4 ++ le c.stage 1 ++ le c.epoch 1 ++ le c.slot 1 ++ zeros 1 ++ c.morsel ++ le x.buildRows 8
    ++ le x.buildNulls 8 ++ le shown 4 ++ zeros 20
  (task ++ padTo r.params (32 * n - 64)).take (32 * n)

/-- R420: the format slot of lantern `n` that holds a format, or one that no running task uses. -/
def State.formatSlot (s : State) (n : Nat) (fmt : List Byte) : Option Nat :=
  let valid := fun f => bitAt (s.fld (R.LAN_SL_STAT n) F.LAN_SL_STAT_FMT_VALID) f
  match (List.range 8).find? fun f => valid f && s.fmtSlot n f == fmt with
  | some f => some f
  | none => (List.range 8).find? fun f => !s.fmtInUse n f

/-- R404, R412, R445: the ladder of a task: its descriptor, the format slot, the run area, and a merge's runs and bounds. -/
def State.ladderOf (s : State) (i n : Nat) : Option (Option (Ladder × List Byte)) :=
  let c := Tab.at s.ctxs i
  let r := Tab.at s.runs c.run
  let img := s.imgOf r
  let l := Img.st img c.stage 232 2
  if Img.ladders img ≤ l then some none
  else
    let f := fun o w => Img.ladder img l o w
    let fmt := Img.format img (f 1 1)
    let area := (r.area (f 16 2)).getD (0, 0)
    let split := f 18 2
    let cut := fun k => (r.area split).map fun a => beNat (s.hbmRead (a.1 + 64 * k) 64)
    let cuts := r.takenOf split / 64
    let base : Ladder := { mode := f 0 1, runRecords := f 4 4, topn := f 8 4, buf := f 12 4, area := area.1, areaSize := area.2,
                           areaNo := f 16 2, output := f 20 1, limit := f 24 8 }
    if f 0 1 = 4 then
      let ranged := decide (split ≠ 0xFFFF)
      some (some ({ base with
        runList := (r.stages.getD c.stage {}).inputs.getD c.taskNo [],
        lo := if ranged ∧ 0 < c.taskNo then cut (c.taskNo - 1) else none,
        hi := if ranged ∧ c.taskNo < cuts then cut c.taskNo else none }, []))
    else match s.formatSlot n fmt with
      | some g => some (some ({ base with fmt := g }, fmt))
      | none => none

/-- R420: a format is written to its slot, and the slot is valid. -/
def State.writeFormat (s : State) (n f : Nat) (fmt : List Byte) : State :=
  let s := (List.range 8).foldl (fun s j => s.wr (R.LAN_SL_FMT n (8 * f + j)) (fieldAt fmt (8 * j) 8)) s
  fmtCtl n (2 ^ f) 0 s

/-- R205, R206: the ports a kernel header binds. -/
def kernelBinds (h : List Byte) : List Port :=
  (List.range (fieldAt h 5 1)).map fun i =>
    { num := fieldAt h (64 + 8 * i) 2, base := fieldAt h (66 + 8 * i) 2, len := fieldAt h (68 + 8 * i) 2 }

/-- The wick as a dispatched task finds it (R209, R211, R273, R374, R511). -/
def State.freshWick (s : State) (pos i place : Nat) (h : List Byte) (lad : Option Ladder) : Wick :=
  let c := Tab.at s.ctxs i
  let r := Tab.at s.runs c.run
  let img := s.imgOf r
  let p := Tab.at s.pipes r.pipe
  let a := (List.replicate 16 0).set 0 (32 * fieldAt h 18 2) |>.set 15 (fieldAt h 24 4)
  let tab := fun (ts : List (Nat × Nat)) x => ((ts.find? (·.1 == x)).map (·.2)).getD 0
  { st := 1, ctx := i, a := a, lr := 0x3FFFF, pc := place + 384 + fieldAt h 12 4, codeBase := place + 384,
    codeLen := fieldAt h 8 4, waxSlots := fieldAt h 16 2, budget := fieldAt h 32 8, preempt := bitAt (fieldAt h 6 1) 0,
    wins := s.windows r img c.stage, chds := (Img.list img c.stage 216 16).map (tab p.chdTabs),
    folds := (Img.list img c.stage 208 8).map (tab p.foldTabs), ports := kernelBinds h,
    job := if Img.st img c.stage 1 1 = 1 then some {} else none, ladder := lad, since := s.cog,
    busy := (s.wick pos).busy, lastBusy := (s.wick pos).lastBusy }

/-- R209, R447, R515, R523: the task goes to the wick. -/
def State.dispatchTo (s : State) (pos i place : Nat) (h : List Byte) (lad : Option (Ladder × List Byte)) : State :=
  let n := pos / 17
  let c := Tab.at s.ctxs i
  let k := s.freshWick pos i place h (lad.map (·.1))
  let s := match lad with
    | some (l, fmt) => if fmt.isEmpty then s else s.writeFormat n l.fmt fmt
    | none => s
  let s := s.wipe (waxKey pos 0) 0x20000
  let s := s.poke (waxKey pos (32 * fieldAt h 18 2)) (s.paramBlock i (fieldAt h 20 2))
  let s := (s.unlist i).putWick pos k
  let s := s.setCtx i fun c =>
    { c with st := .running, wick := (s.wickNum pos).getD 0, pos := pos, runCog := s.cog, cycles := 0, failed := 0, check := 0,
             failOff := 0, emit := [], folds := [], runs := [], chunks := [], banks := [], peers := [] }
  (s.countWait c.slot ((s.cog + 2 ^ 32 - c.readyCog) % 2 ^ 32)).bump R.DRL_DISPATCHES

/-- R514, R515: what a dispatch needs besides its choice: the kernel's place on the slot, and the ladder's format slot. -/
def dispatch (pos i m : Nat) (s : State) : State :=
  let c := Tab.at s.ctxs i
  let r := Tab.at s.runs c.run
  let img := s.imgOf r
  match (Tab.at s.pipes r.pipe).kernels.find? (fun k => k.1 == m && k.2.1 == Img.st img c.stage 4 2), s.ladderOf i (pos / 17) with
  | some k, some lad => s.dispatchTo pos i k.2.2 (Img.kernel img c.stage) lad
  | _, _ => s

/-- DISPATCH (R209, R346, R447, R448, R469, R512, R514, R515, R523, R588): task `ctx` goes to wick `w`; which of the
tasks of one instance and which free wick the spec does not fix. `upset`: 1 an upset of the context cache, refilled from
the firmware region; 2 an uncorrectable error reading the context, which fails its run (R512). -/
def execDispatch (w ctx upset : Nat) (s : State) : Host.Outcome State Fault Refusal :=
  let t := if upset = 1 then s.raise R.DRL_ERR F.DRL_ERR_CACHE_PAR else s
  match s.slotOf (w / 17) with
  | some m => .next (whenDue (s.live && s.bit R.DRL_CTL F.DRL_CTL_EN && s.wickFree w && (Tab.at s.ctxs ctx).st == .ready
      && s.mayChoose m ctx) s
      (if upset = 2 then (s.raise R.DRL_ERR F.DRL_ERR_CTX_UE).failRun (Tab.at s.ctxs ctx).run Status.uncorrectable
       else dispatch w ctx m t))
  | none => .next s

/-! ### PREEMPT and RESUME_TASK -/

/-- The model's place of a save area's wax (R213). -/
def saveKey (save off : Nat) : Nat := 0xB000000000 + save * 0x40000 + off

/-- R516: the Derailleur preempts the task of a wick. -/
def State.preemptDue (s : State) (pos : Nat) : Bool :=
  let k := s.wick pos
  let n := pos / 17
  let c := Tab.at s.ctxs k.ctx
  let m := (s.slotOf n).getD 64
  let ran := (s.cog + 2 ^ 32 - k.since) % 2 ^ 32
  let listed := fun p => (Tab.at s.ready (8 * m + p)).filter s.eligible
  let higher := (List.range c.prio).any (fun p => !(listed p).isEmpty)
    && !((List.range 17).any fun i => s.wickFree (17 * n + i))
  let fairer := s.overShare c.inst && (List.range 8).any fun p => (listed p).any fun j =>
    (Tab.at s.ctxs j).inst != c.inst && s.belowShare (Tab.at s.ctxs j).inst
  k.st == 1 && k.preempt && k.atPoint && s.bit R.DRL_CTL F.DRL_CTL_PREEMPT_EN
    && decide (max 1 (s.fld R.DRL_CTL F.DRL_CTL_MIN_RUN) ≤ ran) && (higher || fairer)

/-- R213: the wick may leave its task: no far load is pending and every output ring is empty. -/
def Wick.settled (k : Wick) : Bool :=
  k.loads.isEmpty && k.ports.all fun p => !decide (0x020 ≤ p.num ∧ p.num ≤ 0x040) || p.filled == 0

/-- R213, R408, R517: the task's state is saved, and it is PREEMPTED at the tail of its list. -/
def preempt (pos save : Nat) (s : State) : State :=
  let k := s.wick pos
  let kept : Wick := { k with atPoint := false, job := k.job.map fun j => { j with slot := none } }
  let s := { s with mem := cellsCopy s.mem s.mem (waxKey pos 0) (saveKey save 0) (32 * k.waxSlots),
                    saves := Tab.put s.saves save kept }
  let s := s.putWick pos k.idle
  let s := s.setCtx k.ctx fun c =>
    { c with st := .preempted, saved := true, save := save, cycles := k.cycles, readyCog := s.cog }
  (s.readyPush k.ctx).bump R.DRL_PREEMPTS

/-- PREEMPT (R213, R248, R408, R516, R517): wick `w` saves its task to save area `save`, which Lamplighter has given it. -/
def execPreempt (w save : Nat) (s : State) : Host.Outcome State Fault Refusal :=
  .next (whenDue (s.live && s.preemptDue w && (s.wick w).settled && decide (0 < save ∧ save < 2 ^ 32)
      && (Tab.get s.saves save).isNone) s (preempt w save s))

/-- R214: the saved state returns to a wick of the same slot. -/
def resume (pos i : Nat) (k : Wick) (s : State) : State :=
  let c := Tab.at s.ctxs i
  let s := s.wipe (waxKey pos 0) 0x20000
  let s := { s with mem := cellsCopy s.mem s.mem (saveKey c.save 0) (waxKey pos 0) (32 * k.waxSlots),
                    saves := Tab.del s.saves c.save }
  let s := s.wipe (saveKey c.save 0) (32 * k.waxSlots)
  let old := s.wick pos
  let s := (s.unlist i).putWick pos { k with st := 1, since := s.cog, busy := old.busy, lastBusy := old.lastBusy }
  let s := s.setCtx i fun c =>
    { c with st := .running, saved := false, save := 0, wick := (s.wickNum pos).getD 0, pos := pos, runCog := s.cog }
  s.countWait c.slot ((s.cog + 2 ^ 32 - c.readyCog) % 2 ^ 32)

/-- RESUME_TASK (R214, R248, R408, R517, R523): preempted task `ctx` returns on wick `w`. -/
def execResumeTask (w ctx : Nat) (s : State) : Host.Outcome State Fault Refusal :=
  let c := Tab.at s.ctxs ctx
  match s.slotOf (w / 17), Tab.get s.saves c.save with
  | some m, some k =>
    .next (whenDue (s.live && s.bit R.DRL_CTL F.DRL_CTL_EN && s.wickFree w && c.st == .preempted && k.ctx == ctx
        && decide (c.slot = m) && s.mayChoose m ctx) s (resume w ctx k s))
  | _, _ => .next s

/-! ### The commit check (R454) -/

/-- The run of a context's task is discarded: what it staged is freed (R327, R376, R411, R453). -/
def State.discardTask (s : State) (i : Nat) : State :=
  ((s.freeStale i none).freeLocal i).setCtx i fun c => { c with st := .discarded }

/-- R148, R149: what the chunks a run read say: a FAILED one's check and offset, or whether all are verified. -/
def State.chunksSay (s : State) (c : Ctx) : Except (Nat × Nat) Bool :=
  let es := c.chunks.filterMap fun k => Tab.get s.ledger k
  match es.find? (·.st == 2) with
  | some e => .error (e.check, e.off)
  | none => .ok (es.all (·.st == 1))

/-- R305, R308: the scrub gate of a run is passed. -/
def State.gatePassed (s : State) (c : Ctx) : Bool :=
  !c.gated || c.banks.all fun b =>
    let done := s.fld (R.CHD_BSCRUB (b.1 / 32) (b.1 % 32)) F.CHD_BSCRUB_DONE
    decide ((done + 2 ^ 33 - (b.2 + 1)) % 2 ^ 32 < 2 ^ 31)

/-- R330, R454: records of the run are still on their way. -/
def State.recordsOut (s : State) (i epoch : Nat) : Bool :=
  (s.flits ++ s.xparts).any fun f => f.task == i && f.epoch == epoch && f.dev == s.ownDev

/-- R655: a `MARK` to every device that received the run's records and has had none. -/
def State.sendMarks (s : State) (i : Nat) : State :=
  let c := Tab.at s.ctxs i
  let s := (c.peers.filter fun p => !p.2.2.2).foldl (fun s p =>
    match s.routeOf p.1 with
    | some port => s.sendPeer (.peer port 2 s.ownDev p.1 3 0 0 0 i 0 c.epoch 0 p.2.1 [])
    | none => s) s
  s.setCtx i fun c => { c with peers := c.peers.map fun p => (p.1, p.2.1, p.2.2.1, true) }

/-- R327, R454: the run is PASSED: its blocks are STAGED, and what other epochs staged becomes FREE. -/
def State.passTask (s : State) (i : Nat) : State :=
  let c := Tab.at s.ctxs i
  let mine := s.blocks.filter fun e => e.2.task == i && e.2.dev == s.ownDev && e.2.epoch == c.epoch && e.2.st == 1
  let s := mine.foldl (fun s e =>
    { s.blockWrite e.2 (e.1 + 16) [2] with blocks := Tab.upd s.blocks e.1 fun b => { b with st := 2 } }) s
  (s.freeStale i (some c.epoch)).setCtx i fun c => { c with st := .passed }

/-- R454: the commit check of an ended run. -/
def commitPass (i : Nat) (c : Ctx) (s : State) : State :=
  if c.gen ≠ s.genOf c.inst then s.discardTask i
  else if c.failed ≠ 0 then (s.discardTask i).failRun c.run c.failed c.check c.failOff
  else if (s.wickOf i).isSome || s.recordsOut i c.epoch then s
  else match s.chunksSay c with
  | .error (check, off) => (s.discardTask i).failRun c.run Status.chunkCorrupt check off
  | .ok false => s
  | .ok true =>
    if !s.gatePassed c then s
    else if c.peers.any fun p => !p.2.2.2 then s.sendMarks i
    else if c.peers.any fun p => !p.2.2.1 then s
    else s.passTask i

/-- COMMIT_PASS (R148, R305, R308, R327, R334, R375, R376, R411, R454, R456, R480, R482, R655): Lamplighter takes the
commit check of context `ctx`, as far as its waits allow. -/
def execCommitPass (ctx : Nat) (s : State) : Host.Outcome State Fault Refusal :=
  let c := Tab.at s.ctxs ctx
  .next (whenDue (s.serving && !s.crank.gap && c.st == .ended) s (commitPass ctx c s))

/-! ### PUBLISH -/

/-- R700: a Sconce still holds a dirty line of a task's staged output in HBM. -/
def State.outputDirty (s : State) (i : Nat) : Bool :=
  let c := Tab.at s.ctxs i
  (s.blocks.any fun e => e.2.task == i && e.2.epoch == c.epoch && e.2.hbm && s.dirtyIn e.2.lantern e.1 4096)
    || s.sruns.any fun e => e.2.ctx == i && e.2.epoch == c.epoch && s.dirtyIn (c.pos / 17) e.1 (runBytes e.2.records)

/-- R376: the fold requests of a task, tagged with their table numbers. -/
def State.foldMessages (s : State) (i : Nat) : List FoldMsg :=
  let c := Tab.at s.ctxs i
  let r := Tab.at s.runs c.run
  let lst := Img.list (s.imgOf r) c.stage 208 8
  let tabs := (Tab.at s.pipes r.pipe).foldTabs
  c.folds.map fun f =>
    { table := ((tabs.find? (·.1 == lst.getD f.list 0xFF)).map (·.2)).getD 0, inst := c.inst, gen := c.gen, ctx := i,
      slot := c.slot, run := c.run, body := f.body }

/-- R453, R455: every "On commit" at once. -/
def State.publishTask (s : State) (i : Nat) : State :=
  let c := Tab.at s.ctxs i
  let img := s.imgOf (Tab.at s.runs c.run)
  let mine := s.blocks.filter fun e => e.2.task == i && e.2.dev == s.ownDev && e.2.epoch == c.epoch && e.2.st == 2
  let s := mine.foldl (fun s e =>
    { s.poke (e.1 + 16) [3] with blocks := Tab.upd s.blocks e.1 fun b => { b with st := 3 } }) s
  let runs := s.sruns.filter fun e => e.2.ctx == i && e.2.epoch == c.epoch && e.2.st == 2
  let s := runs.foldl (fun s e => { s.poke (e.1 + 4) [3] with sruns := Tab.upd s.sruns e.1 fun r => { r with st := 3 } }) s
  let ms := s.foldMessages i
  let s := { s with foldMsgs := s.foldMsgs ++ ms }
  let s := s.setCtx i fun c =>
    { c with st := .committed, foldOut := ms.length, folds := [], runs := [], chunks := [], banks := [], peers := [] }
  let s := s.setStage c.run c.stage fun x => { x with committed := x.committed + 1 }
  s.setRun c.run fun r =>
    { r with committed := r.committed + 1,
             deliver := if Img.emitting img c.stage && !c.emit.isEmpty then r.deliver ++ [i] else r.deliver }

/-- PUBLISH (R327, R376, R411, R422, R453, R455, R700): every staged output of PASSED task `ctx` takes effect. In a stage
that owns windows the slot commit does this (R460). -/
def execPublish (ctx : Nat) (s : State) : Host.Outcome State Fault Refusal :=
  let c := Tab.at s.ctxs ctx
  let img := s.imgOf (Tab.at s.runs c.run)
  .next (whenDue (s.serving && !s.crank.gap && c.st == .passed && (Img.owned img c.stage).isEmpty && !s.outputDirty ctx) s
    (s.publishTask ctx))

/-! ### Slots that own windows (R459 to R461) -/

/-- R460: the tasks of a stage on a slot that are not committed. -/
def State.openOn (s : State) (key j slot : Nat) : List Nat :=
  s.ctxsOf key fun c => c.stage == j && c.slot == slot && c.st != .committed

/-- R460: the slot commit. -/
def slotCommit (key j slot : Nat) (s : State) : State :=
  let s := (s.openOn key j slot).foldl State.publishTask s
  s.setStage key j fun x => { x with slotsDone := x.slotsDone ++ [slot] }

/-- SLOT_COMMIT (R460): every task of stage `stage` on slot `slot` is PASSED, and they publish together. -/
def execSlotCommit (key stage slot : Nat) (s : State) : Host.Outcome State Fault Refusal :=
  match Tab.get s.runs key with
  | some r =>
    let x := r.stages.getD stage {}
    let mine := s.openOn key stage slot
    .next (whenDue (s.serving && !s.crank.gap && !r.failing && !(Img.owned (s.imgOf r) stage).isEmpty && x.created == x.total
        && !mine.isEmpty && mine.all (fun i => (Tab.at s.ctxs i).st == .passed && !s.outputDirty i)) s
      (slotCommit key stage slot s))
  | none => .next s

/-- SLOT_RESTART (R408, R451, R461): before the slot commit, every task of the stage on the slot starts over. -/
def execSlotRestart (key stage slot : Nat) (s : State) : Host.Outcome State Fault Refusal :=
  match Tab.get s.runs key with
  | some r =>
    .next (whenDue (s.live && r.active && !(Img.owned (s.imgOf r) stage).isEmpty
        && (s.openOn key stage slot).any (fun i => (Tab.at s.ctxs i).begun || (Tab.at s.ctxs i).st == .passed)) s
      (s.slotRestart key stage slot))
  | none => .next s

/-- R449, R479: task `i` may run on a slot. -/
def State.mayMove (s : State) (i slot : Nat) : Bool :=
  let c := Tab.at s.ctxs i
  let r := Tab.at s.runs c.run
  r.active && s.placeOk r (s.imgOf r) c.stage c.taskNo slot

/-- MIGRATION (R408, R449 to R452, R479, R480, R513): task `ctx` is moved to a slot by Lamplighter. -/
def execMigration (ctx slot : Nat) (s : State) : Host.Outcome State Fault Refusal :=
  .next (whenDue (s.live && (Tab.get s.ctxs ctx).isSome && s.mayMove ctx slot) s (s.migrate ctx slot))

end Sys2Proof.Machine
end

