-- ==== Sys2Proof/Machine/Repair.lean ====
section
/-! DEFINITION. Soot monitors, automatic and commanded repair, the user calibration page, owner fields in OTP (R25 to R27,
R388, R390, R481, R772, R778 to R791; 18_wear_repair_snuffer.md). -/
namespace Sys2Proof.Machine

/-! ### Wicks and lanterns -/

/-- R24, R782: the spare wick of lantern `n` can replace another. -/
def State.spareWick (s : State) (n : Nat) : Bool :=
  s.fld (R.LAN_REP_STAT n) F.LAN_REP_STAT_SPARE_FOR == 31
    && !bitAt (s.fld (R.LAN_REP_STAT n) F.LAN_REP_STAT_WICK_FAIL) 16

/-- A wick is out of service. -/
def State.wickOut (s : State) (pos : Nat) : State :=
  s.setFld (R.LAN_REP_STAT (pos / 17)) F.LAN_REP_STAT_WICK_FAIL
    (s.fld (R.LAN_REP_STAT (pos / 17)) F.LAN_REP_STAT_WICK_FAIL ||| 2 ^ (pos % 17))

/-- The contexts whose run stands on a wick. -/
def State.onWick (s : State) (pos : Nat) : List Nat :=
  (s.ctxs.filter fun e => e.2.begun && s.wickOf e.1 == some pos).map (·.1)

/-- R27, R479, R781: the spare wick of its lantern replaces the wick at `pos`, whose task migrates. -/
def State.replaceWick (s : State) (pos : Nat) (by_ : JEntry) : State :=
  let n := pos / 17
  let hit := s.onWick pos
  let s := (s.wickOut pos).setFld (R.LAN_REP_STAT n) F.LAN_REP_STAT_SPARE_FOR (pos % 17)
  let s := hit.foldl (fun s i => s.migrate i (Tab.at s.ctxs i).slot) s
  s.repairMade 1 pos 0 (pos % 17) 16 by_

/-- R782: a run holds lantern-store state on a slot: owned windows of a stage that has begun, landing blocks, or a hash
table of a round. -/
def State.storesOn (s : State) (key m : Nat) : Bool :=
  let r := Tab.at s.runs key
  let img := s.imgOf r
  let begun := (List.range (Img.stages img)).any fun j =>
    decide ((r.stages.getD j {}).st ≠ 0) && !(Img.owned img j).isEmpty && (Img.slots img j).contains m
  (r.st == 1 || r.st == 2)
    && (begun || (s.blocks.any fun b => b.2.run == key && b.2.slot == m && !b.2.hbm)
        || r.rounds.any fun x => x.slot == m && x.begun)

/-- Runs that hold lantern-store state on a slot fail. -/
def State.failStores (s : State) (m status : Nat) : State :=
  ((s.runs.filter fun e => s.storesOn e.1 m).map (·.1)).foldl (fun s k => s.failRun k status) s

/-- An address of the lantern store of lantern `n`, as the spare `sp` holds it. -/
def moveStore (n sp a : Nat) : Nat :=
  if lstoreKey n 0 ≤ a ∧ a < lstoreKey n 0 + 0x400000 then a - lstoreKey n 0 + lstoreKey sp 0 else a

/-- R481: the lantern store and the code store of lantern `n` are copied to lantern `sp`, and what lay there is found
there. -/
def State.moveLantern (s : State) (n sp : Nat) : State :=
  let mem := cellsCopy s.mem s.mem (lstoreKey n 0) (lstoreKey sp 0) 0x200000
  let mem := cellsCopy mem mem (codeKey n 0) (codeKey sp 0) 0x40000
  let block := fun (b : Block) => if b.lantern = n then { b with lantern := sp } else b
  let blocks := s.blocks.foldl (fun (t : Tab Block) e => Tab.put t (moveStore n sp e.1) (block e.2)) []
  let stage := fun (x : StageRun) => { x with inputs := x.inputs.map fun l => l.map (moveStore n sp) }
  let credits := s.credits.foldl (fun (t : Tab Nat) e =>
    Tab.put t (if e.1 / 74 = n then 74 * sp + e.1 % 74 else e.1) e.2) []
  { s with mem := mem, blocks := blocks, credits := credits,
           runs := s.runs.map fun e => (e.1, { e.2 with stages := e.2.stages.map stage }),
           flits := s.flits.map fun f => if f.dest = n then { f with dest := sp } else f,
           xparts := s.xparts.map fun f => if f.dest = n then { f with dest := sp } else f,
           bitmaps := s.bitmaps.filter fun b => b.lantern != n,
           dictSeen := s.dictSeen.filter fun d => d.1 != n,
           recSlots := s.recSlots.filter fun e => e.1 / 16 != n }

/-- R25, R782: the quarter's spare lantern can replace lantern `n`. -/
def State.spareLantern (s : State) (n : Nat) : Bool :=
  let sp := 17 * (n / 17) + 16
  sp != n && !s.bit (R.LAN_REP_STAT sp) F.LAN_REP_STAT_FILLS && !s.bit (R.LAN_REP_STAT sp) F.LAN_REP_STAT_FAILED

/-- R26, R481: the quarter's spare lantern takes slot `m` of lantern `n`, and the tasks there migrate; `bad` says that
the copy of the lantern store meets an error beyond correction. -/
def State.replaceLantern (s : State) (n m : Nat) (bad : Bool) (by_ : JEntry) : State :=
  let sp := 17 * (n / 17) + 16
  let tasks := (s.ctxs.filter fun e => e.2.slot == m && e.2.begun).map (·.1)
  let s := s.sconceFlush n
  let s := tasks.foldl (fun s i => s.stopWick i) s
  let s := s.moveLantern n sp
  let s := (s.setFld (R.LAN_REP_STAT n) F.LAN_REP_STAT_FILLS 0).setFld (R.LAN_REP_STAT n) F.LAN_REP_STAT_FAILED 1
  let s := (s.setFld (R.LAN_REP_STAT sp) F.LAN_REP_STAT_FILLS 1).setFld (R.LAN_REP_STAT sp) F.LAN_REP_STAT_SLOT m
  let s := s.setBit R.RAS_STAT F.RAS_STAT_QSPARE_USED (n / 17) true
  let s := if bad then s.failStores m Status.uncorrectable else s
  let s := tasks.foldl (fun s i => if (Tab.at s.ctxs i).begun then s.migrate i m else s) s
  s.repairMade 2 n 0 n sp by_

/-- R782: lantern `n` has no spare: its slot goes out of service. -/
def State.slotOut (s : State) (n m : Nat) : State :=
  let s := (s.failStores m Status.repairExhausted).sconceFlush n
  let tasks := (s.ctxs.filter fun e => e.2.slot == m && (e.2.begun || e.2.st == .ready || e.2.st == .delayed)).map (·.1)
  let s := (s.setFld (R.LAN_REP_STAT n) F.LAN_REP_STAT_FILLS 0).setFld (R.LAN_REP_STAT n) F.LAN_REP_STAT_FAILED 1
  let s := tasks.foldl (fun s i =>
    let c := Tab.at s.ctxs i
    if c.st = .free then s
    else match (Img.slots (s.imgOf (Tab.at s.runs c.run)) c.stage).find? fun x => (s.lanternOf x).isSome with
      | some x => s.migrate i x
      | none => s.failRun c.run Status.repairExhausted) s
  s.noSpare 2 n

/-- R780, R782: the trigger of lantern `n` is met. -/
def State.repairLantern (s : State) (n : Nat) (bad : Bool) : State :=
  match s.slotOf n with
  | none => s.setFld (R.LAN_REP_STAT n) F.LAN_REP_STAT_FAILED 1
  | some m => if s.spareLantern n then s.replaceLantern n m bad { action := 0x0F } else s.slotOut n m

/-- R780: the trigger of the wick at `pos` is met: its lantern's spare wick, or the lantern. -/
def State.repairWick (s : State) (pos : Nat) (bad : Bool) : State :=
  let n := pos / 17
  if pos % 17 = 16 ∧ s.fld (R.LAN_REP_STAT n) F.LAN_REP_STAT_SPARE_FOR = 31 then s.wickOut pos
  else if pos % 17 < 16 ∧ s.spareWick n then s.replaceWick pos { action := 0x0F }
  else s.repairLantern n bad

/-- R781: a redundant line takes over from a line of wax (kind 0) or of a lantern store (kind 1). -/
def State.newLine (s : State) (kind unit line : Nat) (by_ : JEntry) : State :=
  let s := { s with ras := { s.ras with lines := s.ras.lines ++ [(kind, unit, line)] } }
  if kind = 1 then s.repairMade 10 unit line line line by_
  else
    let s := s.journalRec { by_ with action := 0x0F, object := 1 + 256 * unit, old := line, new := line }
    (s.rasLog { kind := 6, cls := 1, unit := unit, detail := line, who := .lamplighter }).bump R.RAS_REPAIRS

/-! ### Automatic repair (R780) -/

/-- Corrected errors of a unit over the last `ns` of rack time. -/
def State.ceCount (s : State) (ns : Nat) (p : Nat × Nat × Nat → Bool) : Nat :=
  (s.ras.ce.filter fun e => p (e.1, e.2.1, e.2.2.1) && decide (s.now < e.2.2.2 + ns)).length

/-- Nanoseconds of an hour. -/
def hourNs : Nat := 3600000000000

/-- `DEGRADE` of a monitor has reached `SOOT`. -/
def State.sooty (s : State) (k : Nat) : Bool :=
  decide (s.fld R.RAS_TH F.RAS_TH_SOOT ≤ s.fld (R.RAS_SOOT k) F.RAS_SOOT_DEGRADE)

/-- The corrections of a unit, or of one line or frame of it, that have led to a repair count no more. -/
def State.dropCe (s : State) (p : Nat × Nat × Nat → Bool) : State :=
  { s with ras := { s.ras with ce := s.ras.ce.filter fun e => !p (e.1, e.2.1, e.2.2.1) } }

/-- R784: a repair that goes on in steps is asked for; one asked for already is joined. -/
def State.askRepair (s : State) (cls unit detail : Nat) (key : Option Nat) : State :=
  let on := s.ras.repairing.any fun e => e.1 == cls && e.2.1 == unit && e.2.2.1 == detail
  if on && key.isNone then s
  else { s with ras := { s.ras with repairing := s.ras.repairing ++ [(cls, unit, detail, key)] } }

/-- R780: what the triggers of a unit lead to: class 1 a wick (`detail` its wax line + 1, or 0), 2 a lantern's shared
logic, 4 a fold unit, 5 an HBM frame, 10 a lantern-store line. -/
def State.autoRepair (s : State) (cls unit detail : Nat) (ue left bad : Bool) : State :=
  let core := s.fld R.RAS_TH F.RAS_TH_CORE_CE
  let is (x : Nat × Nat × Nat) : Bool := x.1 == cls && x.2.1 == unit
  let line (x : Nat × Nat × Nat) : Bool := is x && x.2.2 == detail
  let twice := decide (2 ≤ s.ceCount (24 * hourNs) line)
  match cls with
  | 1 =>
    let wick := s.sooty unit || decide (core ≤ s.ceCount hourNs is) || ue
    if wick then (s.repairWick unit bad).dropCe is
    else if 0 < detail ∧ twice then
      (if left then (s.newLine 0 unit (detail - 1) { action := 0x0F }).dropCe line else (s.repairWick unit bad).dropCe is)
    else s
  | 2 =>
    let mine (x : Nat × Nat × Nat) : Bool := (x.1 == 2 || x.1 == 10) && x.2.1 == unit
    if s.sooty (1156 + unit) || decide (core ≤ s.ceCount hourNs mine) then (s.repairLantern unit bad).dropCe mine else s
  | 4 =>
    if s.sooty (1224 + unit) || decide (s.fld R.RAS_TH F.RAS_TH_FOLD_CE ≤ s.ceCount hourNs is) then
      (s.askRepair 4 unit 0 none).dropCe is
    else s
  | 5 =>
    if decide (s.fld R.RAS_TH F.RAS_TH_FRAME_CE ≤ s.ceCount (24 * hourNs) line) || ue then
      (s.askRepair 5 unit detail none).dropCe line
    else s
  | _ =>
    if twice then
      (if left then (s.newLine 1 unit detail { action := 0x0F }).dropCe line
       else (s.repairLantern unit bad).dropCe fun x => (x.1 == 2 || x.1 == 10) && x.2.1 == unit)
    else s

/-- The unit exists, and is in service. -/
def State.unitServes (s : State) (cls unit detail : Nat) : Bool :=
  match cls with
  | 1 => decide (unit < 1156 ∧ detail ≤ 2048) && (s.wickNum unit).isSome
  | 2 => decide (unit < 68) && (s.slotOf unit).isSome
  | 4 => decide (unit < 136 ∧ unit % 17 < 16) && s.bit (R.FOLD_U_STAT unit) F.FOLD_U_STAT_IN_SERVICE
  | 5 => decide (unit < 128 ∧ detail < chanFrames)
      && (decide (detail < poolBase) || (Tab.get s.retired (4096 * unit + (detail - poolBase))).isSome)
  | 10 => decide (unit < 68 ∧ detail < 32768) && (s.slotOf unit).isSome
  | _ => false

/-- R776, R780: the errors of a unit are logged, and with `AUTO_EN` its triggers are followed. An uncorrectable wax error
whose wick is not replaced fails the task there. -/
def autoRepair (cls unit detail ces : Nat) (ue left bad : Bool) (s : State) : State :=
  let s := (List.range ces).foldl (fun s _ => s.corrected cls unit detail 0) s
  let s := if ue then s.rasLog { kind := 4, cls := cls, unit := unit } else s
  if s.bit R.RAS_CTL F.RAS_CTL_AUTO_EN then s.autoRepair cls unit detail ue left bad
  else if ue ∧ cls = 1 then (s.onWick unit).foldl (fun s _ => s.failTask unit Status.uncorrectable) s
  else s

/-- AUTO_REPAIR (R25 to R27, R388, R390, R481, R596, R772, R780 to R782, R785): `ces` corrected errors and perhaps an
uncorrectable one of a unit, or no new error; `left`: its array has a redundant line left; `bad`: a copy of the lantern
store meets an error beyond correction. -/
def execAutoRepair (cls unit detail ces : Nat) (ue left bad : Bool) (s : State) : Host.Outcome State Fault Refusal :=
  .next (whenDue (s.serving && s.unitServes cls unit detail && decide (ces ≤ 65536)) s
    (autoRepair cls unit detail ces ue left bad s))

/-! ### Fold units -/

/-- R388, R390: unit u of stack `st` is replaced by the stack's spare, or its channel serves no more fold requests. -/
def foldSpareSwap (st u : Nat) (s : State) : State :=
  let ch := 16 * st + u
  let unit := 17 * st + u
  let off := R.FOLD_SPARE st
  let fails := s.fld off F.FOLD_SPARE_FAILED
  let by_ := s.repairBy 4 unit 0
  let s := (s.setFld off F.FOLD_SPARE_FAILED (fails ||| 2 ^ u)).setFld (R.FOLD_U_STAT unit) F.FOLD_U_STAT_IN_SERVICE 0
  if fails = 0 ∧ s.bit off F.FOLD_SPARE_ACTIVE = false then
    let s := (Tab.at s.foldQ ch).foldl (fun s _ => s.drainLine ch) s
    let s := (s.setFld off F.FOLD_SPARE_TARGET u).setFld off F.FOLD_SPARE_ACTIVE 1
    let sp := R.FOLD_U_STAT (17 * st + 16)
    let s := (s.setFld (R.FOLD_U_STAT unit) F.FOLD_U_STAT_SERVES 31).setFld sp F.FOLD_U_STAT_SERVES u
    let s := (s.setFld sp F.FOLD_U_STAT_IN_SERVICE 1).repairMade 4 unit 0 u 16 by_
    s.repairOver 4 unit 0 Status.ok
  else
    let s := if s.fld off F.FOLD_SPARE_TARGET = u then
        (s.setFld off F.FOLD_SPARE_ACTIVE 0).setFld off F.FOLD_SPARE_TARGET 31 else s
    let s := (s.raise R.FOLD_ERR F.FOLD_ERR_EXHAUSTED).noSpare 4 unit
    let hit := (s.runs.filter fun e => !e.2.shares.isEmpty).map (·.1)
    (hit.foldl (fun s k => s.failRun k Status.repairExhausted) s).repairOver 4 unit 0 Status.repairExhausted

/-- FOLD_SPARE_SWAP (R388, R390): a replacement that R384, the thresholds or `REPAIR` called for. -/
def execFoldSpareSwap (st u : Nat) (s : State) : Host.Outcome State Fault Refusal :=
  .next (whenDue (s.live && decide (st < 8 ∧ u < 16) && s.unitFailing (16 * st + u)) s (foldSpareSwap st u s))

/-! ### REPAIR (R783, R784) -/

/-- R784: the first offending field of a `REPAIR`: 0 `KIND`, 2 `UNIT`, 4 `DETAIL`. -/
def State.repairField (s : State) (kind unit detail : Nat) : Option Nat :=
  let no (b : Bool) (n : Nat) : Option Nat := if b then none else some n
  match kind with
  | 1 | 2 | 4 => (no (s.unitServes kind unit 0 && unit % 17 != 16) 2).or (no (detail == 0) 4)
  | 3 => (no (decide (unit < 128) && !s.bit (R.CHD_BANK (unit / 32) (unit % 32)) F.CHD_BANK_OUT_OF_SERVICE) 2).or
      (no (decide (detail < 2048)) 4)
  | 5 => (no (decide (unit < 128)) 2).or (no (s.unitServes 5 unit detail) 4)
  | 6 => (no (decide (unit < 128)) 2).or
      (no (decide (detail < 2 ^ 22 ∧ detail % 2 ^ 15 < 24576 ∧ detail / 2 ^ 15 % 4 < 3)) 4)
  | 7 => (no (s.portActive unit) 2).or (no (decide (detail < 8)) 4)
  | 8 =>
    let fits := if detail = 0 then s.role unit == .failed else s.role unit == .captain
    (no (decide (unit < 2)) 2).or ((no (decide (detail < 2)) 4).or (no fits 2))
  | 9 => (no (unit == 0) 2).or (no (detail == 0) 4)
  | 10 => (no (decide (unit < 68) && (s.slotOf unit).isSome) 2).or (no (decide (detail < 32768)) 4)
  | _ => some 0

/-- R784: a repair of the same unit, or one that needs the same spare, is in progress. -/
def State.repairBusy (s : State) (kind unit detail : Nat) : Bool :=
  let on := s.ras.repairing.any fun e => e.1 == kind && (match kind with
    | 4 => e.2.1 / 17 == unit / 17
    | 5 => e.2.1 == unit && e.2.2.1 == detail
    | 7 => e.2.1 == unit
    | _ => e.2.1 == unit)
  on || (match kind with
    | 6 => s.ras.hard.contains (unit, detail)
    | 7 => (s.port unit).swapRx.isSome
    | 8 => s.crank.taking.isSome || s.crank.gap || s.crank.act.isSome || (detail == 0 && s.crank.rejoin.contains unit)
    | _ => false)

/-- R784: no spare is left for the unit; `left`: its array has a redundant line left. -/
def State.repairSpent (s : State) (kind unit : Nat) (left : Bool) (detail : Nat) : Bool :=
  match kind with
  | 1 => !s.spareWick (unit / 17)
  | 2 => !s.spareLantern unit
  | 3 => decide (64 ≤ s.fld (R.CHD_BSPARE (unit / 32) (unit % 32)) F.CHD_BSPARE_USED)
  | 4 => s.bit (R.FOLD_SPARE (unit / 17)) F.FOLD_SPARE_ACTIVE || s.fld (R.FOLD_SPARE (unit / 17)) F.FOLD_SPARE_FAILED != 0
  | 5 => decide (4096 ≤ (s.retired.filter fun e => e.1 / 4096 == unit).length)
  | 7 => s.fld (R.MLK_STAT unit) F.MLK_STAT_RX_LAYOUT != 0 || !s.bit (R.MLK_CTL unit) F.MLK_CTL_SWAP_EN
      || !(match s.laneOf unit 8 with | some l => bitAt (s.fld (R.MLK_STAT unit) F.MLK_STAT_LANE_GOOD) l | none => false)
  | 8 => detail == 1 && (s.stoker.isNone || !s.crank.synced || s.crank.detached || s.crank.halted)
  | 9 => s.bit R.SWX_STAT F.SWX_STAT_ACTIVE
  | 10 => !left
  | _ => false

/-- R783: the repair itself; kinds 4, 5, 7 and 8 complete when their spare serves. -/
def State.startRepair (s : State) (key kind unit detail : Nat) (bad : Bool) : State :=
  let c := Tab.at s.cmds key
  let by_ := c.journal 0x0F 0xFFFF 0 0 0
  let wait (s : State) : State := (s.beginCmd key).askRepair kind unit detail (some key)
  let done (s : State) : State := s.completeCmd key Status.ok
  match kind with
  | 1 => done (s.replaceWick unit by_)
  | 2 => done (s.replaceLantern unit ((s.slotOf unit).getD 0) bad by_)
  | 3 => done (s.remapRow (unit / 32) (unit % 32) detail by_)
  | 6 => done ({ s with ras := { s.ras with hard := s.ras.hard ++ [(unit, detail)] } }.repairMade 6 unit detail detail detail by_)
  | 7 => (wait s).askSwap unit detail
  | 8 => if detail = 0 then (wait s).askRejoin unit
      else
        let s := wait s
        { s with crank := { s.crank with taking := s.stoker } }
  | 9 => done ((s.setFld R.SWX_STAT F.SWX_STAT_ACTIVE 1).repairMade 9 0 0 0 1 by_)
  | 10 => done (s.newLine 1 unit detail by_)
  | _ => wait s

/-- R784: a `REPAIR` is refused, or begins. -/
def repair (key : Nat) (left bad : Bool) (c : Cmd) (s : State) : State :=
  let kind := c.p 0 1
  let unit := c.p 2 2
  let detail := c.p 4 4
  match s.repairField kind unit detail with
  | some n => s.completeCmd key Status.invalidField (c.fieldResidue n)
  | none =>
    if s.repairBusy kind unit detail then s.completeCmd key Status.busy
    else if s.repairSpent kind unit left detail then s.completeCmd key Status.repairExhausted
    else s.startRepair key kind unit detail bad

/-- REPAIR (R25 to R27, R310, R312, R388, R390, R481, R722, R781, R783 to R785): `left` and `bad` as for AUTO_REPAIR. -/
def execRepair (key : Nat) (left bad : Bool) (s : State) : Host.Outcome State Fault Refusal :=
  match s.cmdDue key 0x1C with
  | some c => .next (whenDue (!c.started) s (repair key left bad c s))
  | none => .next s

/-! ### Soot (R778, R779) -/

/-- R778, R783: the class and unit that monitor `k` watches. -/
def monitorUnit (k : Nat) : Nat × Nat :=
  if k < 1156 then (1, k)
  else if k < 1224 then (2, k - 1156)
  else if k < 1360 then (4, k - 1224)
  else if k < 1376 then (3, 32 * ((k - 1360) / 4) + 8 * ((k - 1360) % 4))
  else if k < 1382 then (7, k - 1376)
  else if k < 1384 then (8, k - 1382)
  else (9, k - 1384)

/-- R787: the effective soot baseline. -/
def State.sootBase (s : State) (k : Nat) : Nat :=
  let b := (s.fld (R.RAS_SOOT k) F.RAS_SOOT_BASELINE : Int) + sgn 12 (s.fld (R.RAS_SOOT k) F.RAS_SOOT_USER)
  (max 1 (min 1048575 b)).toNat

/-- R779: `DEGRADE` in units of 0.01 %. -/
def degrade (b m : Nat) : Nat := min 2047 ((b - m) * 10000 / b)

/-- R779: a monitor's measurement; a crossing of `SOOT` is logged (R775). -/
def State.sootOne (s : State) (k m : Nat) : State :=
  let off := R.RAS_SOOT k
  let th := s.fld R.RAS_TH F.RAS_TH_SOOT
  let old := s.fld off F.RAS_SOOT_DEGRADE
  let d := degrade (s.sootBase k) m
  let s := (s.setFld off F.RAS_SOOT_MEASURED m).setFld off F.RAS_SOOT_DEGRADE d
  if old < th ∧ th ≤ d then
    let u := monitorUnit k
    (s.rasLog { kind := 5, cls := u.1, unit := u.2, detail := d }).raise R.RAS_ERR F.RAS_ERR_SOOT_OVER
  else s

/-- SOOT_MEASURE (R779): every `PERIOD` s of rack time; `ms` are the monitors' counts. -/
def execSootMeasure (ms : List (Nat × Nat)) (s : State) : Host.Outcome State Fault Refusal :=
  .next (whenDue (s.live && decide (s.ras.sootAt + 1000000000 * s.fld R.RAS_SOOT_CFG F.RAS_SOOT_CFG_PERIOD ≤ s.now)
      && ms.all fun x => decide (x.1 < 1386 ∧ x.2 < 2 ^ 20)) s
    (ms.foldl (fun s x => s.sootOne x.1 x.2) { s with ras := { s.ras with sootAt := s.now } }))

/-! ### The user calibration page (R788 to R790) -/

/-- R788: the registers with user offsets, in ascending CSR offset, with the bits of those offsets. -/
def userRegs : List (Nat × Nat × Nat) :=
  [(R.TB_OSCTRIM, 0, 20)] ++ (List.range 64).map (fun n => (R.CAL_TS n, 16, 16))
    ++ (List.range 16).map (fun v => (R.CAL_VM v, 16, 16)) ++ (List.range 54).map (fun i => (R.CAL_SDS i, 18, 12))
    ++ (List.range 8).map (fun h => (R.CAL_HBM h, 21, 18)) ++ (List.range 1386).map fun k => (R.RAS_SOOT k, 20, 12)

/-- R733, R788: the MAC key. -/
def macKey : List Byte := kdf deviceSecret 0x504B32205543414C 8 []

/-- R788: a page. -/
def State.buildPage (s : State) (seq : Nat) : List Byte × Nat :=
  let repairs := s.ras.page.map fun e => le 2 1 ++ le e.1 1 ++ le e.2.1 2 ++ le e.2.2 4 ++ zeros 8
  let cal := (userRegs.filter fun r => bitsOf (s.rd r.1) r.2.1 r.2.2 != 0).map fun r =>
    le 1 1 ++ zeros 3 ++ le r.1 4 ++ le (s.rd r.1) 8
  let es := repairs ++ cal
  let head := le 0x43554B50 4 ++ le 1 1 ++ zeros 1 ++ le es.length 2 ++ le seq 8 ++ (List.range 16).map Config.serialByte ++ zeros 32
  let body := padTo (head ++ es.flatten) 4064
  (body ++ hmac macKey body, es.length)

/-- R789: a stored copy passes. -/
def pageGood (b : List Byte) : Bool :=
  fieldAt b 0 4 == 0x43554B50 && fieldAt b 4 1 == 1 && decide (fieldAt b 6 2 ≤ 250) && slice b 16 16 == (List.range 16).map Config.serialByte
    && slice b 4064 32 == hmac macKey (b.take 4064)

/-- R819: the place of copy 1 or 2 of the page in the flash. -/
def pageAt (copy : Nat) : Nat := 0x2000000 + 0x1000 * (copy - 1)

/-- R790: the save in progress ends; one asked for meanwhile follows. -/
def State.saveOver (s : State) : State :=
  if s.ras.saveAgain then { s with ras := { s.ras with saveAgain := false } }
  else s.setFld R.CAL_STAT F.CAL_STAT_SAVING 0

/-- R790: Lamplighter saves the page over the copy that is not loaded; `ok`: the write verifies. -/
def calSave (ok : Bool) (s : State) : State :=
  let old := s.fld R.CAL_STAT F.CAL_STAT_PAGE
  let seq := s.fld R.CAL_STAT F.CAL_STAT_SEQ + 1
  let p := s.buildPage seq
  if 250 < p.2 then (s.raise R.CAL_ERR F.CAL_ERR_PAGE_FULL).saveOver
  else if !ok then (s.raise R.CAL_ERR F.CAL_ERR_SAVE_FAIL).saveOver
  else
    let new := if old = 1 then 2 else 1
    let s := { s with flash := cellsWrite s.flash (pageAt new) p.1 }
    ((s.setFld R.CAL_STAT F.CAL_STAT_PAGE new).setFld R.CAL_STAT F.CAL_STAT_SEQ seq).saveOver

/-- SAVE (R790): `CAL_CTL.SAVE` is written, or a save that was asked for is made. -/
def execCalSave (ok : Bool) (s : State) : Host.Outcome State Fault Refusal := .next (whenDue s.serving s (calSave ok s))

/-! ### Owner fields in OTP (R791) -/

/-- R732, R791: an OTP field is programmed, or burned since cold reset. -/
def State.otpTaken (s : State) (f : Nat) : Bool :=
  s.ras.burned.any (·.1 == f) || (if f = 1 then s.ownerSet else if f = 2 then s.loadSeedSet else s.pipeSigReq)

/-- R17, R791: a write of `CAL_OTP_PROG`; `ok`: a burn verifies at margin. -/
def otpProgWrite (val : Nat) (ok : Bool) (s : State) : State :=
  let f := bitsOf val 0 2
  let s := if f = 0 then s.raise R.CAL_ERR F.CAL_ERR_BADCFG else s.setFld R.CAL_OTP_PROG F.CAL_OTP_PROG_FIELD f
  let f := s.fld R.CAL_OTP_PROG F.CAL_OTP_PROG_FIELD
  if !bitAt val 2 || f == 0 then s
  else if s.otpTaken f then s.raise R.CAL_ERR F.CAL_ERR_OTP_REFUSED
  else
    let data := s.ras.otpData.flatMap fun d => le d 8
    let s := if ok then { s with ras := { s.ras with burned := s.ras.burned ++ [(f, data)] } }
      else s.raise R.CAL_ERR F.CAL_ERR_OTP_FAIL
    { s with ras := { s.ras with otpData := [0, 0, 0, 0] } }

/-- OTP_PROG_GO (R791): through the management port or JTAG. -/
def execOtpProgGo (who : Who) (val : Nat) (ok : Bool) (s : State) : Host.Outcome State Fault Refusal :=
  .next (whenDue (s.live && reaches who && bitAt val 2) s
    (s.journalCsr (otpProgWrite val ok s) who R.CAL_OTP_PROG))

end Sys2Proof.Machine
end

