-- ==== Sys2Proof/Machine/Snuffer.lean ====
section
/-! DEFINITION. The Snuffer, debug holds and the release of recipe slots (R15, R33, R792 to R799;
18_wear_repair_snuffer.md). -/
namespace Sys2Proof.Machine

/-- Every stack that is in state `a` goes to state `b`. -/
def State.stacksMove (s : State) (a b : Nat) : State :=
  (List.range 8).foldl (fun s st =>
    if s.fld (R.HBM_STAT st) F.HBM_STAT_STATE = a then s.setFld (R.HBM_STAT st) F.HBM_STAT_STATE b else s) s

/-- R792, R793: the device freezes with a cause (1 pin, 2 SMBus, 3 JTAG): cause and rack time are latched, the freeze is
logged, the stacks that serve enter self-refresh, and all 60 domains stop. -/
def State.freeze (s : State) (cause : Nat) : State :=
  if s.ras.frozen ∨ s.boot.inReset then s
  else
    let s := s.setFld R.DBG_STAT F.DBG_STAT_CAUSE cause
    let s := (s.setFld R.DBG_STAT F.DBG_STAT_FROZEN 1).wr R.DBG_FREEZE_TIME s.now
    let s := s.rasLog { kind := 0x0A, detail := cause }
    let s := (s.bump R.DBG_FREEZES).stacksMove 2 3
    { s.wr R.DBG_DOMSTOP (2 ^ 60 - 1) with ras := { s.ras with frozen := true } }

/-- The pin SNUFF_N takes a level; a low level has lasted 160 ns. -/
def snuffPin (low : Bool) (s : State) : State :=
  let s := { s with pins := { s.pins with snuffN := !low } }
  if low && s.bit R.DBG_CTL F.DBG_CTL_PIN_EN then s.freeze 1 else s

/-- SNUFF_PIN (R792): SNUFF_N has been low for 8 AO cycles, or has gone high. -/
def execSnuffPin (low : Bool) (s : State) : Host.Outcome State Fault Refusal := .next (snuffPin low s)

/-- SNUFF (R792, R828): the JTAG instruction. -/
def execSnuff (s : State) : Host.Outcome State Fault Refusal :=
  .next (whenDue s.pins.pwrgood s ({ s with boot := { s.boot with jtagIr := 0x20 } }.freeze 3))

/-- R796: every enabled port enters RETRAIN. -/
def State.portsRetrain (s : State) : State :=
  (List.range 6).foldl (fun s p =>
    if !s.bit (R.MLK_CTL p) F.MLK_CTL_EN then s
    else if s.portActive p then s.portLeave p 6 else s.portEnter p 6) s

/-- R796: the domains restart: stacks leave self-refresh, enabled ports retrain, the time base acquires anew. -/
def State.thaw (s : State) : State :=
  let s : State := { s with ras := { s.ras with frozen := false } }
  let s := ((s.setFld R.DBG_STAT F.DBG_STAT_FROZEN 0).wr R.DBG_DOMSTOP 0).stacksMove 3 2
  let s := s.portsRetrain.tbEnter 0
  let s := (s.setFld R.TB_STAT F.TB_STAT_TIME_VALID 0).setFld R.TB_STAT F.TB_STAT_CLEAN 0
  { s with tb := { s.tb with lastEdge := none, slew := 0, slewCycles := 0, dirty := false, lostFor := 0 } }

/-- R796: RESUME is refused while SNUFF_N is low. -/
def snuffResume (s : State) : State :=
  let s : State := { s with boot := { s.boot with jtagIr := 0x21 } }
  if s.pins.snuffN then s.thaw else s.raise R.DBG_ERR F.DBG_ERR_RESUME_REFUSED

/-- RESUME (R796, R828). -/
def execResume (s : State) : Host.Outcome State Fault Refusal := .next (whenDue s.ras.frozen s (snuffResume s))

/-- R798: the wick that `DBG_WICKSEL` names. -/
def State.debugWick (s : State) : Nat :=
  17 * s.fld R.DBG_WICKSEL F.DBG_WICKSEL_LANTERN + s.fld R.DBG_WICKSEL F.DBG_WICKSEL_WICK

/-- R798: the wick that `DBG_WICKSEL` names is held at a `BREAK`. -/
def State.debugHeld (s : State) : Bool :=
  decide (s.fld R.DBG_WICKSEL F.DBG_WICKSEL_LANTERN < 68 ∧ s.fld R.DBG_WICKSEL F.DBG_WICKSEL_WICK < 17)
    && (s.wick s.debugWick).st == 2

/-- R798: the held wick goes on at the word after its `BREAK`; a place outside the kernel's code traps ADDRESS. -/
def releaseWick (s : State) : State :=
  let pos := s.debugWick
  let k := s.wick pos
  let pc := (nextPc k [.none]).getD (k.pc + 8)
  if k.codeBase ≤ pc ∧ pc < k.codeBase + k.codeLen then
    s.putWick pos { k.afterWord .none pc with st := 1 }
  else (s.putWick pos { k with st := 1 }).trapAt pos (s.codeWord (pos / 17) k.pc) 1 0 false

/-- R798: the held wick's task fails with `TRAP_BREAK`. -/
def killWick (s : State) : State :=
  let pos := s.debugWick
  let k := s.wick pos
  (s.putWick pos { k with st := 1 }).trapAt pos (s.codeWord (pos / 17) k.pc) 3 0 false

/-- R798: a write of `DBG_WICKCTL`; `RELEASE` is taken before `KILL`. -/
def wickCtlWrite (val : Nat) (s : State) : State :=
  let s := if bitAt val 0 && s.debugHeld then releaseWick s else s
  if bitAt val 1 && s.debugHeld then killWick s else s

/-- RELEASE_WICK (R798). -/
def execReleaseWick (who : Who) (s : State) : Host.Outcome State Fault Refusal :=
  .next (whenDue (s.live && s.debugHeld) s (s.journalCsr (releaseWick s) who R.DBG_WICKCTL))

/-- KILL (R798). -/
def execKill (who : Who) (s : State) : Host.Outcome State Fault Refusal :=
  .next (whenDue (s.live && s.debugHeld) s (s.journalCsr (killWick s) who R.DBG_WICKCTL))

/-- R171, R799: a write of `DBG_RCPVALID`: with `GO`, the idle slots named become valid; a slot that is not idle stays as it
is and sets the lantern's `RCP_FAULT`. -/
def rcpvalidWrite (val : Nat) (s : State) : State :=
  let n := bitsOf val 0 7
  let s := (s.setFld R.DBG_RCPVALID F.DBG_RCPVALID_LANTERN n).setFld R.DBG_RCPVALID F.DBG_RCPVALID_SLOTS (bitsOf val 7 16)
  if !bitAt val 23 || decide (68 ≤ n) then s
  else (List.range 16).foldl (fun s i =>
    if !bitAt val (7 + i) then s
    else if s.slotBusy n i then s.raise (R.LAN_RSV_ERR n) F.LAN_RSV_ERR_RCP_FAULT
    else s.setBit (R.LAN_RSV_STAT n) F.LAN_RSV_STAT_SLOT_VALID i true) s

/-- RCPVALID_GO (R171, R799). -/
def execRcpvalidGo (who : Who) (val : Nat) (s : State) : Host.Outcome State Fault Refusal :=
  .next (whenDue (s.live && bitAt val 23) s (s.journalCsr (rcpvalidWrite val s) who R.DBG_RCPVALID))

end Sys2Proof.Machine
end

