-- ==== Sys2Proof/Machine/Results.lean ====
section
/-! DEFINITION. Delivering results, the `END` entry, stalls and suspension (R444, R465 to R474; 10_pipelines.md). -/
namespace Sys2Proof.Machine

/-! ### Rows (R465, R467) -/

/-- R465: a column of the result layout. -/
structure RCol where
  ty : Nat
  arg : Nat
  nullable : Bool
  off : Nat
  vbit : Nat

/-- R465: the columns of an image's result layout. -/
def Img.cols (img : List Byte) : List RCol :=
  (List.range (Img.columns img)).map fun c =>
    { ty := Img.column img c 0 1, arg := Img.column img c 1 1, nullable := bitAt (Img.column img c 3 1) 0,
      off := Img.column img c 4 2, vbit := Img.column img c 6 2 }

/-- R160: the bytes a column takes in a row. -/
def RCol.width (c : RCol) : Nat := deliveredWidth c.ty c.arg false

/-- R467: the VARBYTES columns, and the length of the value a row's item names. -/
def varCols (cols : List RCol) : List RCol := cols.filter (·.ty == 0x11)
def itemLen (row : List Byte) (c : RCol) : Nat := fieldAt row (c.off + 14) 2

/-- R467: the value bytes of a row. -/
def valuesLen (cols : List RCol) (row : List Byte) : Nat := total ((varCols cols).map (itemLen row))

/-- The region whose offsets the VARBYTES items of a stage name (log entry 92): that of the stage's scan list, else of
scan list 0. -/
def State.valueRegion (s : State) (r : Run) (img : List Byte) (j : Nat) : Option Region :=
  let src := if Img.st img j 1 1 = 1 then Img.st img j 32 2 else 0
  match r.scans[src]? with
  | some (n, _) => Tab.get s.regions n
  | none => none

/-- R467: the value bytes that an item names. An item outside its region has no stated bytes: free values. -/
def State.valueBytes (s : State) (g : Option Region) (row : List Byte) (c : RCol) (no : Nat) : List Byte :=
  let n := itemLen row c
  let off := fieldAt row (c.off + 8) 6
  match g with
  | some g => if off + n ≤ g.size then s.hbmRead (g.base + off) n else le (Config.freeValue (s.drawn + no)) n
  | none => le (Config.freeValue (s.drawn + no)) n

/-- R467: the bytes of a row's columns with the items' offsets replaced by where their values lie in the entry; and the
values, in row order. `at_` is where the row's first value lies. -/
def State.placeValues (s : State) (g : Option Region) (cols : List RCol) (row : List Byte) (at_ no : Nat) : List Byte × List Byte :=
  (varCols cols).zipIdx.foldl (fun (st : List Byte × List Byte) x =>
    let v := s.valueBytes g row x.1 (no + x.2)
    (patch st.1 (x.1.off + 8) (le (at_ + st.2.length) 6), st.2 ++ v)) (row, [])

/-- R467: rows with their items replaced, and the values of all of them. -/
def State.placeRows (s : State) (g : Option Region) (cols : List RCol) (at_ : Nat) (rows : List (List Byte)) :
    List (List Byte) × List Byte :=
  rows.zipIdx.foldl (fun (st : List (List Byte) × List Byte) x =>
    let p := s.placeValues g cols x.1 (at_ + st.2.length) (256 * x.2)
    (st.1 ++ [p.1], st.2 ++ p.2)) ([], [])

/-- R467: bytes padded to a multiple of 8. -/
def pad8 (bs : List Byte) : List Byte := padTo bs (roundUp bs.length 8)

/-- R161, R467: the columns of a column batch. -/
def columnBytes (cols : List RCol) (rows : List (List Byte)) : List Byte :=
  cols.flatMap fun c =>
    let valid := if c.nullable then pad8 (packBits (rows.map fun r => bitAt (fieldAt r (c.vbit / 8) 1) (c.vbit % 8))) else []
    valid ++ pad8 (rows.flatMap fun r => slice r c.off c.width)

/-- The bytes of the rows or columns of an entry before its values. -/
def bodyLen (form rowLen : Nat) (cols : List RCol) (k : Nat) : Nat :=
  if form = 0 then k * rowLen
  else total (cols.map fun c => (if c.nullable then roundUp (ceilDiv k 8) 8 else 0) + roundUp (k * c.width) 8)

/-- R467: the payload of an entry that holds some rows. -/
def State.payload (s : State) (r : Run) (img : List Byte) (j : Nat) (rows : List (List Byte)) : List Byte :=
  let cols := Img.cols img
  let n := bodyLen r.delivery (Img.rowLen img) cols rows.length
  let p := s.placeRows (s.valueRegion r img j) cols (64 + n) rows
  (if r.delivery = 0 then p.1.flatten else columnBytes cols p.1) ++ p.2

/-- R467: how many of some rows fit an entry whole. -/
def fitting (r : Run) (img : List Byte) (rows : List (List Byte)) : Nat :=
  let cols := Img.cols img
  let room := 64 * r.batch - 64
  let fits (k : Nat) : Bool :=
    decide (bodyLen r.delivery (Img.rowLen img) cols k + total ((rows.take k).map (valuesLen cols)) ≤ room)
  ((List.range rows.length).map (· + 1)).takeWhile fits |>.length

/-! ### Entries (R466) -/

/-- R466: an entry: header, payload, padding to whole slots. -/
def entryBytes (r : Run) (kind flags rows task tot : Nat) (payload : List Byte) : List Byte :=
  let units := 1 + ceilDiv payload.length 64
  le kind 1 ++ le flags 1 ++ le units 1 ++ le 0 1 ++ le r.tag 2 ++ le r.gen 2 ++ le rows 4 ++ le task 4 ++ le r.seq 8
    ++ le tot 8 ++ zeros 32 ++ padTo payload (64 * (units - 1))

/-- R468: the rows of a committed task may be delivered now. -/
def State.mayDeliver (s : State) (key i : Nat) : Bool :=
  let c := Tab.at s.ctxs i
  !Img.ordered (s.imgOf (Tab.at s.runs key)) c.stage ||
    (s.ctxsOf key fun e => e.stage == c.stage && decide (e.taskNo < c.taskNo) && e.st == .committed && e.emit.isEmpty).length
      == c.taskNo

/-- R469: the entry waits for room; the stall timer runs. -/
def State.stall (s : State) (key : Nat) : State :=
  s.setRun key fun r => { r with stallSince := match r.stallSince with | some t => some t | none => some s.tb.mono }

/-- R564: the result ring has room for `k` slots. -/
def State.ringRoom (s : State) (g k : Nat) : Bool :=
  let q := Tab.at s.queues g
  q.st == .enabled && decide (k ≤ q.room)

/-- R466, R469, R539: an entry is written when the ring has room, and the stall timer restarts; else it waits. -/
def State.putEntry (s : State) (key : Nat) (entry : List Byte) (rows : Nat) (mark : Nat) (done : State → State) : State :=
  let r := Tab.at s.runs key
  if !s.ringRoom r.resultG (entry.length / 64) then s.stall key
  else
    let s := s.ringSlot 1 r.resultG entry mark
    done (s.setRun key fun r => { r with seq := r.seq + 1, rows := r.rows + rows, stallSince := none })

/-- Context `i` has delivered `n` more bytes. -/
def State.delivered (s : State) (key i n : Nat) : State :=
  let s := s.setCtx i fun c => { c with emit := c.emit.drop n }
  if (Tab.at s.ctxs i).emit.isEmpty then s.setRun key fun r => { r with deliver := r.deliver.filter (· != i) } else s

/-- Free values drawn for an entry's items. -/
def State.drawItems (s : State) (img : List Byte) : State :=
  if (varCols (Img.cols img)).isEmpty then s else { s with drawn := s.drawn + 2 ^ 17 }

/-- R467: the next piece of a split row. -/
def State.continueRow (s : State) (key task : Nat) (bs : List Byte) : State :=
  let r := Tab.at s.runs key
  let room := 64 * r.batch - 64
  let more := decide (room < bs.length)
  s.putEntry key (entryBytes r (0xA0 + r.delivery) (b2n more) 0 task 0 (bs.take room)) 0 0 fun s =>
    s.setRun key fun r => { r with cont := if more then some (task, bs.drop room) else none }

/-- R467: the first piece of a row too long for an entry. -/
def State.splitRow (s : State) (key i : Nat) (row : List Byte) : State :=
  let r := Tab.at s.runs key
  let img := s.imgOf r
  let c := Tab.at s.ctxs i
  let room := 64 * r.batch - 64
  let bs := s.payload r img c.stage [row]
  s.putEntry key (entryBytes r (0xA0 + r.delivery) 1 1 c.taskNo 0 (bs.take room)) 1 0 fun s =>
    ((s.drawItems img).delivered key i (Img.rowLen img)).setRun key fun r => { r with cont := some (c.taskNo, bs.drop room) }

/-- R467, R473: the next whole rows of a task, within the row limit. -/
def State.wholeRows (s : State) (key i k : Nat) (rows : List (List Byte)) : State :=
  let r := Tab.at s.runs key
  let img := s.imgOf r
  let c := Tab.at s.ctxs i
  let k := if r.rowLimit = 0 then k else min k (r.rowLimit - r.rows)
  let rows := rows.take k
  s.putEntry key (entryBytes r (0xA0 + r.delivery) 0 k c.taskNo 0 (s.payload r img c.stage rows)) k 0 fun s =>
    (s.drawItems img).delivered key i (k * Img.rowLen img)

/-- R467, R468, R473: the next entry of a run. -/
def resultEntry (key : Nat) (r : Run) (s : State) : State :=
  match r.cont with
  | some (task, bs) => s.continueRow key task bs
  | none =>
    match r.deliver.find? (s.mayDeliver key) with
    | none => s
    | some i =>
      if r.rowLimit ≠ 0 ∧ r.rowLimit ≤ r.rows then s.failRun key Status.okTruncated
      else
        let img := s.imgOf r
        let rows := piecesOf (Img.rowLen img) (Tab.at s.ctxs i).emit
        let k := fitting r img rows
        if k = 0 then s.splitRow key i (rows.headD []) else s.wholeRows key i k rows

/-- RESULT_ENTRY_WRITE (R58, R466 to R469, R473, R539): the delivery engine writes the next entry of run `key`, or waits
for room. -/
def execResultEntryWrite (key : Nat) (s : State) : Host.Outcome State Fault Refusal :=
  match Tab.get s.runs key with
  | some r => .next (whenDue (s.serving && r.active && (r.cont.isSome || r.deliver.any (s.mayDeliver key))) s
      (resultEntry key r s))
  | none => .next s

/-! ### The end of a run -/

/-- R444: every stage has completed and every entry has been delivered. -/
def State.runOver (s : State) (key : Nat) : Bool :=
  let r := Tab.at s.runs key
  r.stages.all (fun x => x.st == 2 && x.created == x.total && x.committed == x.total) && r.deliver.isEmpty && r.cont.isNone
    && r.rounds.all (·.begun) && (s.ctxsOf key fun c => c.foldOut != 0).isEmpty

/-- END_ENTRY_WRITE (R151, R444, R466, R469, R473, R474, R512): the `END` entry of run `key`; the status follows once its
write is complete (`CPL`). -/
def execEndEntryWrite (key : Nat) (s : State) : Host.Outcome State Fault Refusal :=
  match Tab.get s.runs key with
  | some r =>
    let cut := r.failing && r.status == Status.okTruncated && r.st != 3 && (s.ctxsOf key fun c => c.foldOut != 0).isEmpty
    .next (whenDue (s.serving && !r.endIssued && ((r.active && s.runOver key) || cut)) s
      (s.putEntry key (entryBytes r 0xA2 0 0 0 r.rows []) 0 (key + 1) fun s =>
        s.setRun key fun r => { r with endIssued := true }))
  | none => .next s

/-! ### Stalls, suspension -/

/-- R438, R469: the stall timer has reached `STALL_LIMIT`. -/
def State.stallOver (s : State) (r : Run) : Bool :=
  match r.stallSince with
  | some t => decide (t + (if r.stall = 0 then 2000 else r.stall) * 1000000 ≤ s.tb.mono)
  | none => false

/-- R471: the lantern-store ranges of the run's running stages: slot, offset, bytes. -/
def State.runningRanges (s : State) (key : Nat) : List (Nat × Nat × Nat) :=
  let r := Tab.at s.runs key
  let img := s.imgOf r
  (((List.range (Img.stages img)).filter fun j => (r.stages.getD j {}).st == 1).flatMap fun j =>
    (Img.slots img j).flatMap fun m => (stageRanges img j).filterMap fun x =>
      if x.2.2 = 0 then none else some (m, x.2.1, x.2.2)).eraseDups

/-- R471 step 1: the running tasks stop; in a stage that owns windows the whole slot restarts. -/
def State.stopTasks (s : State) (key : Nat) : State :=
  let img := s.imgOf (Tab.at s.runs key)
  let owns := fun (c : Ctx) => !(Img.owned img c.stage).isEmpty
  let hot := s.ctxsOf key Ctx.begun
  let slots := ((hot.map fun i => Tab.at s.ctxs i).filter owns).map fun c => (c.stage, c.slot)
  let held := s.ctxsOf key fun c => c.begun || (c.st == .passed && slots.contains (c.stage, c.slot))
  let s := slots.eraseDups.foldl (fun s x => s.slotRestart key x.1 x.2) s
  let s := (hot.filter fun i => !owns (Tab.at s.ctxs i)).foldl (fun s i => (s.abandon i).raiseEpoch i) s
  held.foldl (fun s i => (s.unlist i).setCtx i fun c => { c with st := .discarded }) s

/-- R471, R570: the run is suspended and its instance told, or fails when its ranges find no memory. -/
def suspend (key : Nat) (r : Run) (s : State) : State :=
  let s := s.stopTasks key
  if (Tab.at s.runs key).failing || (Tab.get s.runs key).isNone then s
  else
    let rs := s.runningRanges key
    let size := total (rs.map (·.2.2))
    if !s.memQuota r.inst size ∨ !s.memRoom 4096 size then s.failRun key Status.resultStall
    else
      let saved := rs.filterMap fun x => (s.lanternOf x.1).map fun n => (x.1, x.2.1, s.peek (lstoreKey n x.2.1) x.2.2)
      let s := s.setRun key fun r => { r with st := 2, saved := saved, savedSize := size, stallSince := none }
      s.postEvent r.inst { kind := 0xE3, loc := (Tab.at s.queues (Tab.at s.cmds key).g).loc, time := s.now,
                           detail := le r.tag 2 ++ le (Tab.at s.queues r.resultG).loc 2 ++ zeros 44 }

/-- RESULT_STALL (R456, R470, R471, R570, R591): the stall timer of run `key` has reached `STALL_LIMIT`. -/
def execResultStall (key : Nat) (s : State) : Host.Outcome State Fault Refusal :=
  match Tab.get s.runs key with
  | some r => .next (whenDue (s.serving && r.active && s.stallOver r) s
      (if r.hold then suspend key r s else s.failRun key Status.resultStall))
  | none => .next s

/-- R472, R469: the run resumes; while committed entries still wait, the stall timer runs from then on. -/
def runResume (key : Nat) (r : Run) (s : State) : State :=
  let s := r.saved.foldl (fun s x =>
    match s.lanternOf x.1 with | some n => s.poke (lstoreKey n x.2.1) x.2.2 | none => s) s
  let waits := r.cont.isSome || r.deliver.any (s.mayDeliver key)
  let s := s.setRun key fun r =>
    { r with st := 1, saved := [], savedSize := 0, stallSince := if waits then some s.tb.mono else none }
  (s.ctxsOf key fun c => c.st == .discarded).foldl State.makeReady s

/-- RUN_RESUME (R472): a quarter of the result ring is free. -/
def execRunResume (key : Nat) (s : State) : Host.Outcome State Fault Refusal :=
  match Tab.get s.runs key with
  | some r =>
    let q := Tab.at s.queues r.resultG
    .next (whenDue (s.serving && r.st == 2 && !r.failing && decide (q.n ≤ 4 * q.room)) s (runResume key r s))
  | none => .next s

end Sys2Proof.Machine
end

