-- ==== Sys2Proof/Machine/Tenants.lean ====
section
/-! DEFINITION. The life of instances: `INSTANCE_CREATE`, `INSTANCE_RESIZE`, `INSTANCE_RESET`, `INSTANCE_DESTROY`,
`POOL_SETUP`, tracked generations, and the Tally's records (R575 to R607, R855; 13_tenants_tally.md). -/
namespace Sys2Proof.Machine

/-- An instance, and an instance changed. -/
def State.inst (s : State) (i : Nat) : Inst := Tab.at s.insts i
def State.setInst (s : State) (i : Nat) (f : Inst → Inst) : State := { s with insts := Tab.edit s.insts i f }

/-- R575: the generation after the last issued one. -/
def nextGen (g : Nat) : Nat := if g = 0xFFFF then 1 else g + 1

/-- R593: the device writes the current generation into both mailbox headers. -/
def State.mailGen (s : State) (i gen : Nat) : State :=
  { s with mail := cellsWrite (cellsWrite s.mail (mailHalf i false + 16) (le gen 2)) (mailHalf i true + 16) (le gen 2) }

/-- R578: the current generation of an instance is retired; it is tracked while its work is outstanding. -/
def State.retire (s : State) (i : Nat) : State :=
  let x := s.inst i
  if s.outstanding i x.gen then s.setInst i fun x => { x with retired := x.retired ++ [x.gen] } else s

/-- R579: three retired generations are tracked, and the current one has outstanding work. -/
def State.retireRefused (s : State) (i : Nat) : Bool :=
  decide (3 ≤ (s.inst i).retired.length) && s.outstanding i (s.inst i).gen

/-! ### INSTANCE_CREATE -/

/-- The amounts a command 0x10 or 0x11 asks for: wicks, banks, memory, fold. -/
def Cmd.amounts (c : Cmd) : List Nat := [c.p 4 2, c.p 6 2, c.p 8 8, c.p 16 2]

/-- R583, R853: the first offending field of `INSTANCE_CREATE` that the entry's own check does not see. -/
def State.createOffence (s : State) (c : Cmd) : Option Nat :=
  if (s.inst (c.p 0 2)).st ≠ 0 then some 0
  else
    let pooled := if c.p 2 1 = 2 then ([(4, 2), (6, 2), (8, 8), (16, 2)].find? fun f => c.p f.1 f.2 != 0).map (·.1) else none
    match pooled with
    | some f => some f
    | none => if s.fld (R.MLK_CFG (c.p 19 1)) F.MLK_CFG_MODE = 1 then some 19 else none

/-- R583: the admin queue of a new instance. -/
def Cmd.adminQueue (c : Cmd) (gen : Nat) : Queue :=
  { st := .enabled, sizeLog2 := c.p 18 1, port := c.p 19 1, base := c.p 20 8, mirror := c.p 28 8, vector := c.p 36 2,
    mirrorEn := bitAt (c.p 38 1) 0, notifyEn := bitAt (c.p 38 1) 1, inst := c.p 0 2, loc := 0, pubGen := gen }

/-- R587, R589: the amounts a new instance of a class holds. -/
def State.newAmounts (s : State) (c : Cmd) : List Nat :=
  if c.p 2 1 = 2 then (List.range 4).map s.pooledShare else c.amounts

/-- R597, R598: one journal record per amount, `FIELD` 1 to 4. -/
def State.journalAmounts (s : State) (c : Cmd) (action i obj : Nat) (old new : List Nat) (all : Bool) : State :=
  (List.range 4).foldl (fun s d =>
    let o := old.getD d 0
    let n := new.getD d 0
    if all || o != n then s.journalRec (c.journal action i obj o n (d + 1)) else s) s

/-- R583: `INSTANCE_CREATE`. -/
def instanceCreate (key : Nat) (c : Cmd) (s : State) : State :=
  let i := c.p 0 2
  let cls := c.p 2 1
  match s.createOffence c with
  | some f => s.completeCmd key Status.invalidField (c.fieldResidue f)
  | none =>
    let fits := if cls = 2 then decide (s.pooledCount < s.maxPooled)
      else (List.range 4).all fun d => s.reserveFits i d (c.amounts.getD d 0)
    if !fits then s.completeCmd key Status.noResource
    else
      let g := nextGen (s.inst i).lastGen
      let am := s.newAmounts c
      let banks := am.getD 1 0
      let memory := am.getD 2 0
      let s := s.setInst i fun x =>
        { x with st := 1, cls := cls, wicks := am.getD 0 0, banks := banks, mem := memory, fold := am.getD 3 0,
                 memRes := memory, banksRes := banks, lastGen := g, gen := g, seen := true }
      let s := (s.bringQueue i (c.adminQueue g)).mailGen i g
      let s := s.journalRec (c.journal 0x01 i cls 0 1 6)
      (s.journalAmounts c 0x01 i cls [] am true).completeCmd key Status.ok 0 g

/-- INSTANCE_CREATE (R575, R582, R583, R586, R589, R590, R596, R853, R855). -/
def execInstanceCreate (key : Nat) (s : State) : Host.Outcome State Fault Refusal :=
  match s.cmdDue key 0x10 with
  | some c => .next (instanceCreate key c s)
  | none => .next s

/-! ### INSTANCE_RESIZE -/

/-- R592: reservations whose work fits the new sizes are released. -/
def State.releaseShrink (s : State) (i : Nat) : State :=
  let x := s.inst i
  let okM := decide (s.heldMem i ≤ x.mem)
  let okB := decide (s.heldBanks i ≤ x.banks)
  s.setInst i fun x => { x with memRes := if okM then x.mem else x.memRes, banksRes := if okB then x.banks else x.banksRes,
                                shrinking := !(okM && okB) }

/-- R586, R592: `INSTANCE_RESIZE`. -/
def instanceResize (key : Nat) (c : Cmd) (s : State) : State :=
  let i := c.p 0 2
  let x := s.inst i
  let old := [x.wicks, x.banks, x.mem, x.fold]
  let new := c.amounts
  if x.st ≠ 1 ∨ x.cls ≠ 1 then s.completeCmd key Status.invalidField (c.fieldResidue 0)
  else if x.shrinking then s.completeCmd key Status.busy
  else if (List.range 4).any fun d => decide (old.getD d 0 < new.getD d 0) && !s.reserveFits i d (new.getD d 0) then
    s.completeCmd key Status.noResource
  else
    let s := s.beginCmd key
    let s := s.setInst i fun x =>
      { x with wicks := new.getD 0 0, banks := new.getD 1 0, mem := new.getD 2 0, fold := new.getD 3 0,
               memRes := max x.memRes (new.getD 2 0), banksRes := max x.banksRes (new.getD 1 0), resizeCmd := some key }
    let s := (s.releaseShrink i).journalAmounts c 0x02 i 0 old new false
    if (s.inst i).shrinking then s else (s.setInst i fun x => { x with resizeCmd := none }).finishCmd key Status.ok

/-- INSTANCE_RESIZE (R586, R590, R592, R855). -/
def execInstanceResize (key : Nat) (s : State) : Host.Outcome State Fault Refusal :=
  match s.cmdDue key 0x11 with
  | some c => .next (whenDue (!c.started) s (instanceResize key c s))
  | none => .next s

/-- R592: a pending shrink takes effect as far as it may; the command completes when all of it has. -/
def resizeRelease (i : Nat) (s : State) : State :=
  let s := s.releaseShrink i
  if (s.inst i).shrinking then s
  else match (s.inst i).resizeCmd with
    | some key => (s.setInst i fun x => { x with resizeCmd := none }).finishCmd key Status.ok
    | none => s

/-- RESIZE_RELEASE (R592). -/
def execResizeRelease (inst : Nat) (s : State) : Host.Outcome State Fault Refusal :=
  .next (whenDue (s.serving && (s.inst inst).shrinking) s (resizeRelease inst s))

/-! ### INSTANCE_RESET and INSTANCE_DESTROY -/

/-- R580, R594: the events an instance still waits for are of its old generation: dropped and counted, their doorbell
bits cleared. -/
def State.dropEvents (s : State) (i : Nat) : State :=
  let es := (s.inst i).events
  let s := es.foldl (fun s e => (s.freshen e).2.staleDrop i) s
  s.setInst i fun x => { x with events := [] }

/-- R567, R584: the commands of an instance's queues end without completions. -/
def State.dropCommands (s : State) (i : Nat) : State :=
  let dead := fun (k : Nat) => match Tab.get s.cmds k with | some c => c.inst == i && !c.mgmt | none => false
  { s with cmds := s.cmds.filter fun e => !dead e.1, writes := s.writes.filter fun e => !dead e.1,
           tb := { s.tb with tset := match s.tb.tset with | some (t, k, r) => if dead k then none else some (t, k, r)
                                                          | none => none } }

/-- R584 steps 2 to 4 and 6: contexts, runs, pipelines, messages, queues but the admin queue, commands, regions. -/
def State.tearDown (s : State) (i : Nat) (keep : Bool) : State :=
  let runs := (s.runs.filter fun r => r.2.inst == i).map (·.1)
  let s := runs.foldl State.releaseRun s
  let s := { s with runs := s.runs.filter fun r => r.2.inst != i }
  let s := ((s.ctxs.filter fun c => c.2.inst == i).map (·.1)).foldl State.freeCtx s
  let s := ((s.pipes.filter fun p => p.2.inst == i).map (·.1)).foldl State.unloadPipe s
  let s := (s.dropMessages i).dropCommands i
  let s := { s with queues := s.queues.filter fun q => q.2.inst != i || decide (q.1 ≤ 1024) }
  let s := (s.dropEvents i).chainsStale i
  if keep then s else { s with regions := s.regions.filter fun r => r.2.inst != i }

/-- R584 step 5: the admin queue's head moves to its tail, and the index is published under the new generation. -/
def State.emptyAdmin (s : State) (i gen : Nat) : State :=
  let q := Tab.at s.queues i
  let q := { q with st := .enabled, cause := 0, chain := none, passed := q.passed + occupancy q.n q.head q.tail,
                    head := q.tail, fetch := q.tail, prod := q.tail, pendCount := 0, pendSince := none, notices := [],
                    pubGen := gen }
  { s with queues := Tab.put s.queues i q }.sendOut 0 i gen (.index i q.tail 0)

/-- R584: `INSTANCE_RESET`. -/
def instanceReset (key : Nat) (c : Cmd) (s : State) : State :=
  let i := c.p 0 2
  let keep := bitAt (c.p 2 1) 0
  if (s.inst i).st ≠ 1 then s.completeCmd key Status.invalidField (c.fieldResidue 0)
  else if s.retireRefused i then s.completeCmd key Status.busy
  else
    let old := (s.inst i).gen
    let g := nextGen (s.inst i).lastGen
    let s := (s.beginCmd key).retire i
    let s := s.setInst i fun x => { x with lastGen := g, gen := g }
    let s := ((s.tearDown i keep).emptyAdmin i g).mailGen i g
    let s := s.journalRec (c.journal 0x03 i (b2n keep) old g 5)
    s.finishCmd key Status.ok 0 g

/-- INSTANCE_RESET (R151, R270, R362, R430, R512, R521, R575, R578, R579, R581, R582, R584, R586, R743). -/
def execInstanceReset (key : Nat) (s : State) : Host.Outcome State Fault Refusal :=
  match s.cmdDue key 0x12 with
  | some c => .next (instanceReset key c s)
  | none => .next s

/-- R585: `INSTANCE_DESTROY`. -/
def instanceDestroy (key : Nat) (c : Cmd) (s : State) : State :=
  let i := c.p 0 2
  if (s.inst i).st ≠ 1 then s.completeCmd key Status.invalidField (c.fieldResidue 0)
  else if s.retireRefused i then s.completeCmd key Status.busy
  else
    let pend := (s.inst i).resizeCmd
    let s := (s.beginCmd key).retire i
    let s := s.setInst i fun x => { x with gen := 0, st := 2 }
    let s := s.tearDown i false
    let s := s.setInst i fun x =>
      { x with st := 0, cls := 0, wicks := 0, banks := 0, mem := 0, fold := 0, memRes := 0, banksRes := 0,
               shrinking := false, resizeCmd := none, lastShare := 0, curShare := 0 }
    let s := { s.dropQueue i with mail := cellsZero s.mail (4096 * i) 4096 }
    let s := match pend with | some k => s.finishCmd k Status.abortedReset | none => s
    let s := s.journalRec (c.journal 0x04 i 0 1 0 6)
    s.finishCmd key Status.ok

/-- INSTANCE_DESTROY (R151, R270, R362, R430, R578, R579, R581, R582, R585, R586, R743). -/
def execInstanceDestroy (key : Nat) (s : State) : Host.Outcome State Fault Refusal :=
  match s.cmdDue key 0x13 with
  | some c => .next (instanceDestroy key c s)
  | none => .next s

/-- GENERATION_RETIRE_END (R578): a tracked retired generation without outstanding work is no longer tracked. -/
def execGenerationRetireEnd (inst gen : Nat) (s : State) : Host.Outcome State Fault Refusal :=
  .next (whenDue (s.live && (s.inst inst).retired.contains gen && !s.outstanding inst gen) s
    (s.setInst inst fun x => { x with retired := x.retired.filter (· != gen) }))

/-- STALE_WRITE_DROP (R580): the `n`-th held write has not been issued and its generation is no longer current. -/
def execStaleWriteDrop (n : Nat) (s : State) : Host.Outcome State Fault Refusal :=
  match s.held[n]? with
  | some h => .next (whenDue (s.live && h.tag.isNone && !s.fresh h.inst h.gen) s
      ({ s with held := s.held.eraseIdx n }.staleDrop h.inst))
  | none => .next s

/-! ### POOL_SETUP -/

/-- R589, R855: `POOL_SETUP`. -/
def poolSetup (key : Nat) (c : Cmd) (s : State) : State :=
  if s.pooledCount ≠ 0 then s.completeCmd key Status.busy
  else
    let old := s.maxPooled
    let new := c.p 0 2
    let pool := (List.range 4).map fun d => totalOf d - s.reservedSum d 0 - s.managerHolds d
    let s := { s with pool := pool }.setFld R.INST_POOL F.INST_POOL_MAX_POOLED new
    let s := if old = new then s else s.journalRec (c.journal 0x05 0xFFFF 0 old new)
    s.completeCmd key Status.ok

/-- POOL_SETUP (R589, R596). -/
def execPoolSetup (key : Nat) (s : State) : Host.Outcome State Fault Refusal :=
  match s.cmdDue key 0x14 with
  | some c => .next (poolSetup key c s)
  | none => .next s

/-! ### The Tally -/

/-- R602: bytes 0 to 95 of a tally record. -/
def TallyRec.bytes (r : TallyRec) (seq : Nat) : List Byte :=
  let w := fun n => le (n % 2 ^ 64) 8
  let k := r.counts
  w seq ++ w r.end_ ++ le r.inst 2 ++ le r.gen 2 ++ le r.flags 1 ++ le 0 1 ++ le (min 65535 r.span) 2 ++ w k.wickCycles
    ++ w k.rerunCycles ++ w k.hbmRead ++ w k.hbmWritten ++ w k.decoded ++ w k.link ++ w k.memHeld ++ w k.searches
    ++ w k.foldOps

/-- R602 to R605: a record goes to the tally ring under the next `SEQ`, with its `MAC`. -/
def State.tallyWrite (s : State) (g : Nat) (r : TallyRec) : State :=
  let seq := s.rd R.INST_TALLYSEQ
  let s := s.bump R.INST_TALLYSEQ
  match (s.swxSlot 31).key with
  | some k =>
    let b := r.bytes seq
    s.ringSlot 1 g (b ++ hmac k b) 0
  | none =>
    let b := { r with flags := r.flags ||| 32 }.bytes seq
    (s.raise R.INST_ERR F.INST_ERR_NOKEY).ringSlot 1 g (b ++ zeros 32) 0

/-- R605, R606: the oldest held record is written, or, with none held, the first merge record. -/
def tallyRecord (g : Nat) (s : State) : State :=
  match s.tally, s.merges with
  | r :: rest, _ => { s with tally := rest }.tallyWrite g r
  | [], r :: rest => { s with merges := rest }.tallyWrite g r
  | [], [] => s

/-- TALLY_RECORD_WRITE (R539, R604 to R607). -/
def execTallyRecordWrite (s : State) : Host.Outcome State Fault Refusal :=
  match s.tallyRing with
  | some g => .next (whenDue (s.serving && !s.crank.gap && s.ringRoom g 2) s (tallyRecord g s))
  | none => .next s

/-- R602: held memory is sampled. -/
def memSample (s : State) : State :=
  let held := s.insts.map fun e => (e.1, if e.2.st = 0 then 0 else s.heldMem e.1 / 4096)
  let s := held.foldl (fun s e => s.tallyAdd e.1 fun c => { c with memHeld := c.memHeld + e.2 }) s
  { s with tb := { s.tb with lastMs := s.now / 1000000 } }

/-- MEM_HELD_SAMPLE (R591, R602): a whole ms of rack time has come. -/
def execMemHeldSample (s : State) : Host.Outcome State Fault Refusal :=
  .next (whenDue (s.tbRuns && decide (s.tb.lastMs ≠ s.now / 1000000)) s (memSample s))

/-! ### Registers (R608) -/

/-- The generations `INST_GENi` shows: the current one (after `INSTANCE_DESTROY` the last one) and the others tracked. -/
def State.genSlots (s : State) (i : Nat) : List Nat :=
  let x := s.inst i
  let cur := if x.gen = 0 then x.lastGen else x.gen
  cur :: x.retired.filter (· != cur)

/-- `INST_OUTi`. -/
def State.instOut (s : State) (i : Nat) : Nat :=
  total ((s.genSlots i).zipIdx.map fun g => if g.1 ≠ 0 ∧ s.outstanding i g.1 then 2 ^ g.2 else 0)

/-- `INST_GENi`. -/
def State.instGen (s : State) (i : Nat) : Nat := total ((s.genSlots i).zipIdx.map fun g => g.1 * 65536 ^ g.2)

/-- `INST_CFGi`. -/
def State.instCfg (s : State) (i : Nat) : Nat :=
  let x := s.inst i
  x.st + x.cls * 4 + b2n x.shrinking * 16 + x.wicks * 32 + x.banks % 256 * 65536 + x.fold % 2048 * 2 ^ 24

/-- `INST_MEMi`: the manager's quota is its cap (R855). -/
def State.instMem (s : State) (i : Nat) : Nat := s.capOf i 2 / 65536 + s.heldMem i / 4096 * 2 ^ 32

/-- `INST_STAT.ACTIVE`. -/
def State.instStat (s : State) : Nat := (s.insts.filter fun e => e.2.st != 0).length

/-- `INST_POOL`. -/
def State.instPool (s : State) : Nat := s.maxPooled + s.pooledCount * 2048

/-- `INST_TALLYSTAT`. -/
def State.tallyStat (s : State) : Nat :=
  min 64 s.heldMinutes + b2n (!s.merges.isEmpty) * 128 + (s.merges.foldl (fun n m => max n m.span) 0) % 65536 * 256

end Sys2Proof.Machine
end

