-- ==== Sys2Proof/Machine/Boot.lean ====
section
/-! DEFINITION. Rails' monitors, trips, resets, straps and boot (R801 to R824, R852; 19_power_reset_package.md; R707 and
R708 of 16_crankset.md; R668, R669, R677 and R704 of 15_memory_chain_sconce.md). -/
namespace Sys2Proof.Machine

/-! ### Sensors, trip and VID -/

/-- R787: a factory value plus a user offset, clamped. -/
def calibrated (lim factory user : Int) : Int := max (-lim) (min lim (factory + user))

/-- R787, R809: sensor `n` converts; `raw` is its reading before calibration, in 0.01 °C. -/
def dieConversion (n : Nat) (raw : Int) (s : State) : State :=
  let off := R.CAL_TS n
  let t := raw + calibrated 3000 (sgn 16 (s.fld off F.CAL_TS_FACTORY)) (sgn 16 (s.fld off F.CAL_TS_USER))
  let s := s.setFld off F.CAL_TS_TEMP (ofSgn 16 (max (-32768) (min 32767 t)))
  let deg := (max 0 (min 255 (t / 100))).toNat
  let s := s.setFld R.TOP_THERM F.TOP_THERM_DIE_MAX (max deg (s.fld R.TOP_THERM F.TOP_THERM_DIE_MAX))
  if 100 * (s.fld R.TOP_THERM F.TOP_THERM_DIE_ALERT : Int) ≤ t then s.alert F.TOP_ALERT_THERM else s

/-- DIE_SENSOR_CONVERSION (R787, R809): every 20 µs. -/
def execDieSensorConversion (n : Nat) (raw : Int) (s : State) : Host.Outcome State Fault Refusal :=
  .next (whenDue (s.live && decide (n < 64)) s (dieConversion n raw s))

/-- R801, R803: nominal value of the rail that voltage monitor `v` watches, in 0.1 mV, and its tolerance in 0.1 %. -/
def State.railOf (s : State) (v : Nat) : Nat × Nat :=
  match v with
  | 0 => (8000, 30) | 1 => (18000, 50) | 6 | 7 => (8500, 30) | 8 => (8000, 30) | 9 => (8500, 30) | 10 => (12000, 30)
  | 11 => (11000, 30) | 12 => (4000, 30) | 13 => (18000, 50)
  | _ => (6500 + 25 * s.pins.vid, 25)

/-- R787, R801: monitor `v` takes a reading; `raw` is in 0.1 mV, before calibration. -/
def voltReading (v raw : Nat) (s : State) : State :=
  let off := R.CAL_VM v
  let x : Int := max 0 ((raw : Int) + calibrated 1000 (sgn 16 (s.fld off F.CAL_VM_FACTORY)) (sgn 16 (s.fld off F.CAL_VM_USER)))
  let s := s.setFld off F.CAL_VM_VOLTS (min 65535 (x.toNat / 10))
  let r := s.railOf v
  if r.1 * r.2 < 1000 * (x - r.1).natAbs then s.alert F.TOP_ALERT_VOLT else s

/-- VOLTAGE_MONITOR_READING (R787, R801). -/
def execVoltageMonitorReading (v raw : Nat) (s : State) : Host.Outcome State Fault Refusal :=
  .next (whenDue (s.live && decide (v < 16)) s (voltReading v raw s))

/-- R810: a die sensor reads 115 °C or above, or an HBM readout 105 °C or above. -/
def State.overTrip (s : State) : Bool :=
  ((List.range 64).any fun n => decide (11500 ≤ sgn 16 (s.fld (R.CAL_TS n) F.CAL_TS_TEMP)))
    || (List.range 8).any fun st => decide (105 ≤ s.fld (R.HBM_STAT st) F.HBM_STAT_TEMP)

/-- THERM_TRIP (R810, R816): THERM_TRIP_N is asserted, and every domain but AO stops, until PWRGOOD goes low. -/
def execThermTrip (s : State) : Host.Outcome State Fault Refusal :=
  .next (whenDue (s.pins.pwrgood && !s.ras.frozen && s.overTrip) s
    { s with boot := { s.boot with tripped := true }, pins := { s.pins with thermTripN := false } })

/-- R804: VID moves by at most 4 codes towards `TOP_VID.CODE`. -/
def vidMove (s : State) : State :=
  let c := s.fld R.TOP_VID F.TOP_VID_CODE
  let v := if s.pins.vid < c then min c (s.pins.vid + 4) else max c (s.pins.vid - 4)
  { s with pins := { s.pins with vid := v }, boot := { s.boot with vidSince := s.tb.mono } }.setFld R.TOP_VID F.TOP_VID_BUSY
    (b2n (v != c))

/-- VID_MOVE (R803, R804): 10 µs after the move before, while VID differs from `CODE`. -/
def execVidMove (s : State) : Host.Outcome State Fault Refusal :=
  .next (whenDue (s.pins.pwrgood && !s.ras.frozen && s.pins.vid != s.fld R.TOP_VID F.TOP_VID_CODE
      && decide (s.boot.vidSince = 0 ∨ s.boot.vidSince + 10000 ≤ s.tb.mono)) s (vidMove s))

/-! ### Resets (R812 to R817) -/

/-- R815: the state that cold reset leaves: the cold-reset values; what stands outside the device or in its fuses, the
levels of the input pins and the commands that wait are as they were. -/
def State.coldReset (s : State) : State :=
  let r := s.ras
  let ras : Ras := { ownerHash := r.ownerHash, loadSeed := r.loadSeed, policy := r.policy, burned := r.burned,
                     epochTop := r.epochTop, epochBurned := r.epochBurned }
  let p := s.pins
  let pins : Pins := { pwrgood := false, resetN := p.resetN, snuffN := p.snuffN, tbPps := p.tbPps, grantA := p.grantA,
                       grantB := p.grantB, straps := p.straps, scan := p.scan }
  let boot : Boot := { inReset := true, jtagIr := s.boot.jtagIr }
  ({ State.reset with pending := s.pending, drawn := s.drawn, hostMem := s.hostMem, flash := s.flash, sent := s.sent,
                      ras := ras, pins := pins, boot := boot } : State).epochView

/-- PWRGOOD_LOW (R812, R813, R815): PWRGOOD has been low for 200 ns. -/
def execPwrgoodLow (s : State) : Host.Outcome State Fault Refusal := .next (whenDue s.pins.pwrgood s s.coldReset)

/-- R797: SNUFF_N is low as a reset ends. -/
def State.resetEnds (s : State) : State :=
  let s : State := { s with boot := { s.boot with inReset := false } }
  if s.pins.snuffN then s else s.freeze 1

/-- R817: PWRGOOD rises: the straps are latched. -/
def pwrgoodHigh (straps : Nat) (s : State) : State :=
  let s : State := { s with pins := { s.pins with pwrgood := true, straps := straps % 128 } }
  let s := s.wr R.TOP_STRAP (straps % 128)
  let s := s.setFld R.CRK_CFG F.CRK_CFG_DETECT (bitsOf straps 4 1)
  let s := s.setFld R.TB_STAT F.TB_STAT_REF_SEL (bitsOf straps 3 1)
  if s.pins.resetN then s.resetEnds else s

/-- PWRGOOD_HIGH (R797, R812, R817). -/
def execPwrgoodHigh (straps : Nat) (s : State) : Host.Outcome State Fault Refusal :=
  .next (whenDue (!s.pins.pwrgood) s (pwrgoodHigh straps s))

/-- All 64 bits, and the bits of one field. -/
def allBits : Nat := 2 ^ 64 - 1
def fieldBits (f : Nat × Nat) : Nat := (2 ^ f.2 - 1) * 2 ^ f.1

/-- R12: the `LOCK` bits of a register. -/
def lockBits (off : Nat) : Nat :=
  match regAt off with
  | some r => (r.flds.filter fun f => f.acc == .w1s).foldl (fun m f => m ||| fieldBits (f.lo, f.wid)) 0
  | none => 0

/-- R19, R311, R486, R599, R608, R677, R704, R724, R786, R800, R815, R837: the bits of a register that warm reset does not
touch, apart from `LOCK`. -/
def warmKept (off : Nat) : Nat :=
  let b := off / 0x10000
  if 0x10 ≤ b ∧ b < 0x20 then allBits
  else if 0x140 ≤ b ∧ b < 0x150 then allBits
  else if [R.INST_TALLYSEQ, R.INST_TALLY_MERGES, R.RAS_LOG_NEXT, R.RAS_LOG_WRAPS, R.RAS_LOG_SEL, R.DBG_FREEZE_TIME,
      R.DBG_FREEZES, R.TOP_STRAP, R.TOP_RESET, R.TOP_VID, R.TOP_MGRQ_BASE, R.TOP_MGRQ_CFG, R.TOP_MGRQ_MIRROR,
      R.TOP_PORTCFG].contains off then allBits
  else if R.CRK_TAKEOVERS ≤ off ∧ off ≤ R.CRK_LATCHED then allBits
  else if 0xA0 ≤ b ∧ b < 0xE4 then (if off % 0x10000 = 0 then allBits else 0)
  else if R.FOLD_SPARE 0 ≤ off ∧ off < R.FOLD_SPARE 8 then allBits
  else if R.FOLD_U_STAT 0 ≤ off ∧ off < R.FOLD_U_STAT 136 then
    (if off % 0x40 = 0 then fieldBits F.FOLD_U_STAT_IN_SERVICE ||| fieldBits F.FOLD_U_STAT_SERVES else 0)
  else if 0x90 ≤ b ∧ b < 0xA0 then
    let o := (off - 0x900000) % 0x40000
    if 0x300 ≤ o ∧ o < 0x400 then allBits
    else if 0x100 ≤ o ∧ o < 0x200 then fieldBits F.CHD_BANK_OUT_OF_SERVICE else 0
  else if 0x60 ≤ b ∧ b < 0x68 then
    let o := off % 0x10000
    if o = 0x008 ∨ o = 0x048 ∨ (0x100 ≤ o ∧ o < 0x180) then allBits
    else if o = 0x010 then fieldBits F.HBM_STAT_RATE_USED else 0
  else if off = R.CRK_GAP then fieldBits F.CRK_GAP_MAX
  else if off = R.RAS_STAT then fieldBits F.RAS_STAT_QSPARE_USED
  else if R.RAS_SOOT 0 ≤ off ∧ off < R.RAS_SOOT 1386 then allBits
  else if off = R.DBG_STAT then fieldBits F.DBG_STAT_CAUSE
  else if off = R.SWX_STAT then fieldBits F.SWX_STAT_ACTIVE
  else if off = R.SWX_ERR then fieldBits F.SWX_ERR_FUSE ||| fieldBits F.SWX_ERR_EXHAUSTED
  else if 0x110 ≤ b ∧ b < 0x120 then
    match userRegs.find? (·.1 == off) with
    | some r => fieldBits (r.2.1, r.2.2)
    | none => 0
  else 0

/-- R12, R19: the CSR file after warm reset. -/
def warmCsr (csr : Tab Reg64) : Tab Reg64 :=
  let one (e : Nat × Reg64) : Nat × Reg64 :=
    let keep := warmKept e.1 ||| lockBits e.1
    (e.1, BitVec.ofNat 64 ((e.2.toNat &&& keep) ||| (regReset e.1 &&& (allBits ^^^ (keep % 2 ^ 64)))))
  csr.map one

/-- R814, R815: a warm reset. Stacks that serve enter self-refresh; writes in flight are lost; a pending `TIME_SET` stays
with the time base, its command gone. -/
def State.warmReset (s : State) : State :=
  let csr := warmCsr s.csr
  let slept := fun (st : Nat) => s.fld (R.HBM_STAT st) F.HBM_STAT_STATE == 2 || s.fld (R.HBM_STAT st) F.HBM_STAT_STATE == 3
  let chd := fun (h : Chd) =>
    ({ rows := h.rows, spares := h.spares, side := h.side, suspect := h.suspect, remap := h.remap } : Chd)
  let inst := fun (x : Inst) => ({ lastGen := x.lastGen, seen := x.seen || x.st != 0, counts := x.counts } : Inst)
  let boot : Boot := { warm := true, paged := s.boot.paged, inReset := true, tripped := s.boot.tripped,
                       vidSince := s.boot.vidSince, jtagIr := s.boot.jtagIr }
  let pins : Pins := { s.pins with resetN := false, smbAlertN := true, hbA := false, hbB := false }
  let tb : TimeBase := { s.tb with tset := s.tb.tset.map fun x => (x.1, 2 ^ 40, x.2.2) }
  let ras : Ras := { s.ras with repairing := [], saveAgain := false, frozen := false, otpData := [0, 0, 0, 0] }
  let t : State :=
    { State.reset with
      pending := s.pending, drawn := s.drawn, csr := csr, mem := s.mem, hostMem := s.hostMem, flash := s.flash,
      poison := s.poison, tb := tb, insts := s.insts.map fun e => (e.1, inst e.2), journal := s.journal,
      tally := s.tally, merges := s.merges, sent := s.sent, chds := s.chds.map fun e => (e.1, chd e.2), hbm := s.hbm,
      retired := s.retired, swx := { dead := s.swx.dead }, pins := pins, boot := boot, ras := ras }
  let t := (List.range 8).foldl (fun t st =>
    if slept st then t.setFld (R.HBM_STAT st) F.HBM_STAT_STATE 3 else t) t
  let t := t.setFld R.CRK_CFG F.CRK_CFG_DETECT (s.fld R.TOP_STRAP F.TOP_STRAP_TANDEM_MODE)
  let t := t.setFld R.TOP_RESET F.TOP_RESET_WARM 1
  (t.setFld R.TOP_RESET F.TOP_RESET_WARM_COUNT ((s.fld R.TOP_RESET F.TOP_RESET_WARM_COUNT + 1) % 2 ^ 32)).epochView

/-- RESET_N_LOW (R812 to R815): RESET_N has been low for 200 ns; while PWRGOOD is high, this is a warm reset. -/
def execResetNLow (s : State) : Host.Outcome State Fault Refusal :=
  .next (whenDue s.pins.resetN s
    (if s.pins.pwrgood then s.warmReset else { s with pins := { s.pins with resetN := false } }))

/-- R822: the boot enters a stage. -/
def State.enterStage (s : State) (k : Nat) : State :=
  let s := s.setFld R.TOP_BOOT F.TOP_BOOT_STAGE k
  if k = 2 then { s with boot := { s.boot with fetchStart := s.tb.mono, fetchB := false } } else s

/-- R814, R822: RESET_N rises; a warm boot starts at `FETCH`. -/
def resetNHigh (s : State) : State :=
  let s : State := { s with pins := { s.pins with resetN := true } }
  if !s.pins.pwrgood then s else (if s.boot.warm then s.enterStage 2 else s).resetEnds

/-- RESET_N_HIGH (R797, R812, R814, R816). -/
def execResetNHigh (s : State) : Host.Outcome State Fault Refusal := .next (whenDue (!s.pins.resetN) s (resetNHigh s))

/-! ### Boot: fuses, tests, fetch and verification (R818 to R822) -/

/-- A stage of the boot is under way. -/
def State.inStage (s : State) (k : Nat) : Bool := s.live && decide (s.stage = k)

/-- R791: the OTP fields burned before this cold reset take effect. -/
def fuses (s : State) : State :=
  let one (r : Ras) (b : Nat × List Byte) : Ras :=
    if b.1 = 1 then { r with ownerHash := b.2, policy := r.policy ||| 1 }
    else if b.1 = 2 then { r with loadSeed := b.2, policy := r.policy ||| 4 }
    else { r with policy := r.policy ||| 2 }
  let s : State := { s with ras := { s.ras.burned.foldl one s.ras with burned := [] } }
  s.epochView.enterStage 1

/-- FUSES (R791, R822): OTP is sensed. -/
def execFusesStage (s : State) : Host.Outcome State Fault Refusal := .next (whenDue (s.inStage 0) s (fuses s))

/-- R818, R821: the boot holds; a reserved `BOOT_MODE` acts as `HOLD`. -/
def State.hold (s : State) : State :=
  (if 5 ≤ s.fld R.TOP_STRAP F.TOP_STRAP_BOOT_MODE then s.raise R.TOP_ERR F.TOP_ERR_BADSTRAP else s).enterStage 9

/-- R818: the boot mode holds. -/
def State.holds (s : State) : Bool := decide (4 ≤ s.fld R.TOP_STRAP F.TOP_STRAP_BOOT_MODE)

/-- R822, R852: every SRAM and CAM has been tested and the OTP repair map applied; `banks` are Chandelier banks, as
32c + b, with rows beyond repair. -/
def sramTest (banks : List Nat) (s : State) : State :=
  let s := banks.foldl (fun s b => s.setFld (R.CHD_BANK (b / 32) (b % 32)) F.CHD_BANK_OUT_OF_SERVICE 1) s
  if s.holds then s.hold else s.enterStage 2

/-- SRAM_TEST (R18, R818, R821, R822, R852). -/
def execSramTestStage (banks : List Nat) (s : State) : Host.Outcome State Fault Refusal :=
  .next (whenDue (s.inStage 1 && banks.all fun b => decide (b < 128)) s (sramTest banks s))

/-- R822: the boot buffer, the lantern stores of lanterns 0 to 7, filled from flash slot `n`. -/
def State.fillBuffer (s : State) (n : Nat) : State :=
  { s with mem := (List.range 8).foldl (fun m l =>
      cellsCopy s.flash m (n * 0x1000000 + l * 0x200000) (lstoreKey l 0) 0x200000) s.mem }

/-- R818: the next flash slot to try. -/
def State.nextSlot (s : State) : Option Nat := s.bootSlots[s.boot.tried]?

/-- R818, R822: a ROM reads the next image into the boot buffer; in `HOLD` there is none. -/
def fetch (s : State) : State :=
  if s.holds then s.hold
  else match s.nextSlot with
  | some n => ((s.fillBuffer n).setFld R.TOP_BOOT F.TOP_BOOT_SLOT n).enterStage 3
  | none => s

/-- FETCH (R818 to R820, R822): crank A's ROM fills the boot buffer, or crank B's after the timeout. -/
def execFetchStage (s : State) : Host.Outcome State Fault Refusal := .next (whenDue (s.inStage 2) s (fetch s))

/-- FETCH_TIMEOUT (R822): crank A's ROM has not filled the buffer within 2 s, and crank B's reads. -/
def execFetchTimeout (s : State) : Host.Outcome State Fault Refusal :=
  .next (whenDue (s.inStage 2 && s.nextSlot.isSome && !s.boot.fetchB && decide (s.boot.fetchStart + 2000000000 ≤ s.tb.mono)) s
    { s with boot := { s.boot with fetchB := true } })

/-- BOOT_GO (R818): `TOP_BOOT.GO` starts the verification of an image loaded through JTAG. -/
def bootGo (s : State) : State :=
  if s.inStage 2 ∧ s.fld R.TOP_STRAP F.TOP_STRAP_BOOT_MODE = 3 then s.enterStage 3 else s

/-- BOOT_GO (R818). -/
def execBootGo (_who : Who) (s : State) : Host.Outcome State Fault Refusal := .next (bootGo s)

/-- R822: the image in the boot buffer, as its header gives its length. -/
def State.bufferImage (s : State) : List Byte :=
  let len := max 64 (min 0x1000000 (leNat (s.peek (lstoreKey 0 20) 4)))
  (List.range 8).flatMap fun l => s.peek (lstoreKey l 0) (min 0x200000 (len - l * 0x200000))

/-- R822: the boot fails and leaves only through reset. -/
def State.bootFails (s : State) : State :=
  ((s.raise R.TOP_ERR F.TOP_ERR_BOOT_FAIL).alert F.TOP_ALERT_BOOT).enterStage 15

/-- R759, R822: a seat verifies the buffer. When it fails, the next image is fetched; when none is left, the seats are
FAILED and so is the boot. The boot goes on once both seats have verified. -/
def verify (seat : Nat) (s : State) : State :=
  let img := s.bufferImage
  if s.verifyFw img then
    let s := s.setImage seat img
    let k := s.crank
    let s : State := { s with crank := { k with verified := k.verified ++ [seat], bootStart := some (k.bootStart.getD s.tb.mono) } }
    if s.crank.verified.length = 2 then s.enterStage 4 else s
  else
    let s := s.raise R.TOP_BOOT F.TOP_BOOT_FALLBACK
    let s : State := { s with boot := { s.boot with tried := s.boot.tried + 1 },
                              crank := { s.crank with verified := [], bootStart := none } }
    if s.nextSlot.isSome then s.enterStage 2 else ((s.setRole 0 .failed).setRole 1 .failed).bootFails

/-- VERIFY (R708, R755 to R759, R822). -/
def execVerifyStage (seat : Nat) (s : State) : Host.Outcome State Fault Refusal :=
  .next (whenDue (s.inStage 3 && decide (seat < 2) && !s.crank.verified.contains seat) s (verify seat s))

/-- R708: in arbiter mode a lone seat needs its grant. -/
def State.loneSeat (s : State) : Option Nat :=
  match s.crank.verified with
  | [seat] => if s.bit R.CRK_CFG F.CRK_CFG_DETECT = false ∨ s.grant seat then some seat else none
  | _ => none

/-- SEAT_BOOT_TIMEOUT (R708): the other seat has not verified an image within 4 s of the first, and is FAILED. -/
def execSeatBootTimeout (s : State) : Host.Outcome State Fault Refusal :=
  match s.loneSeat, s.crank.bootStart with
  | some seat, some t =>
    .next (whenDue (s.inStage 3 && decide (t + 4000000000 ≤ s.tb.mono)) s
      (((s.seatFails (other seat)).alert F.TOP_ALERT_CRANK).enterStage 4))
  | _, _ => .next s

/-! ### Boot: Lamplighter (R707, R786, R789) -/

/-- R707, R708: the seat that becomes captain, if it is settled. -/
def State.bootCaptain (s : State) : Option Nat :=
  match s.crank.verified with
  | [seat] => some seat
  | _ =>
    if s.bit R.CRK_CFG F.CRK_CFG_DETECT = false ∨ s.grant 0 then some 0
    else if s.grant 1 then some 1 else none

/-- R707 to R709: roles, claims and `AUTH` after a reset. -/
def State.bootRoles (s : State) (cap : Nat) : State :=
  let two := decide (s.role (other cap) ≠ .failed)
  let s := (s.setRole cap .captain).setClaim cap 1
  let s := if two then (s.setRole (other cap) .stoker).setClaim (other cap) 0 else s
  ({ s with crank := { s.crank with synced := two } } : State).setFld R.CRK_AUTH F.CRK_AUTH_AUTH 1

/-- R675: a retired frame of the page is mapped to the lowest free pool frame. -/
def State.reapplyFrame (s : State) (ch f : Nat) : State :=
  let home := s.frameHome ch f
  let s := match s.poolOf ch home with
    | some p => { s with retired := Tab.put s.retired (4096 * ch + p) { frame := home, valid := false, bad := true } }
    | none => s
  match (List.range 4096).find? fun p => (Tab.get s.retired (4096 * ch + p)).isNone with
  | some p =>
    let n := (s.retired.filter fun e => e.1 / 4096 == ch).length + 1
    ({ s with retired := Tab.put s.retired (4096 * ch + p) { frame := home, valid := true, bad := false } } : State).setFld
      (R.HBM_CH (ch / 16) (ch % 16)) F.HBM_CH_RETIRED n
  | none => s

/-- R786: a repair entry of the user page applied: no task runs, and nothing is copied or recorded. -/
def State.reapply (s : State) (e : Nat × Nat × Nat) : State :=
  let unit := e.2.1
  let detail := e.2.2
  let n := unit / 17
  match e.1 with
  | 1 => (s.wickOut unit).setFld (R.LAN_REP_STAT n) F.LAN_REP_STAT_SPARE_FOR (unit % 17)
  | 2 =>
    let sp := 17 * (unit / 17) + 16
    let m := s.fld (R.LAN_REP_STAT unit) F.LAN_REP_STAT_SLOT
    let s := (s.setFld (R.LAN_REP_STAT unit) F.LAN_REP_STAT_FILLS 0).setFld (R.LAN_REP_STAT unit) F.LAN_REP_STAT_FAILED 1
    let s := (s.setFld (R.LAN_REP_STAT sp) F.LAN_REP_STAT_FILLS 1).setFld (R.LAN_REP_STAT sp) F.LAN_REP_STAT_SLOT m
    s.setBit R.RAS_STAT F.RAS_STAT_QSPARE_USED (unit / 17) true
  | 3 =>
    let c := unit / 32
    let b := unit % 32
    let used := s.fld (R.CHD_BSPARE c b) F.CHD_BSPARE_USED
    (s.setChd c fun h => { h with remap := Tab.put h.remap (2048 * b + detail) used }).setFld (R.CHD_BSPARE c b)
      F.CHD_BSPARE_USED (used + 1)
  | 4 =>
    let u := unit % 17
    let off := R.FOLD_SPARE n
    let sp := R.FOLD_U_STAT (17 * n + 16)
    let s := (s.setFld off F.FOLD_SPARE_FAILED (s.fld off F.FOLD_SPARE_FAILED ||| 2 ^ u)).setFld (R.FOLD_U_STAT unit)
      F.FOLD_U_STAT_IN_SERVICE 0
    let s := (s.setFld off F.FOLD_SPARE_TARGET u).setFld off F.FOLD_SPARE_ACTIVE 1
    ((s.setFld (R.FOLD_U_STAT unit) F.FOLD_U_STAT_SERVES 31).setFld sp F.FOLD_U_STAT_SERVES u).setFld sp F.FOLD_U_STAT_IN_SERVICE 1
  | 5 => s.reapplyFrame unit detail
  | 6 => { s with ras := { s.ras with hard := s.ras.hard ++ [(unit, detail)] } }
  | 10 => { s with ras := { s.ras with lines := s.ras.lines ++ [(1, unit, detail)] } }
  | _ => s

/-- R789: the copies of the page that pass, with their `SEQ`. -/
def State.goodPages (s : State) : List (Nat × List Byte) :=
  ([1, 2].map fun c => (c, cellsRead s.flash (pageAt c) 4096)).filter fun p => pageGood p.2

/-- R789: the copy with the highest `SEQ`. -/
def State.bestPage (s : State) : Option (Nat × List Byte) :=
  s.goodPages.foldl (fun best p => match best with
    | some q => if fieldAt q.2 8 8 < fieldAt p.2 8 8 then some p else some q
    | none => some p) none

/-- R786, R788, R789: an entry of the page is applied. -/
def State.pageEntry (s : State) (e : List Byte) : State :=
  let k := fieldAt e 0 1
  if k = 1 then
    match userRegs.find? (·.1 == fieldAt e 4 4) with
    | some r => s.setFld r.1 (r.2.1, r.2.2) (bitsOf (fieldAt e 8 8) r.2.1 r.2.2)
    | none => s
  else if k = 2 then
    let x := (fieldAt e 1 1, fieldAt e 2 2, fieldAt e 4 4)
    ({ s with ras := { s.ras with page := s.ras.page ++ [x] } } : State).reapply x
  else s

/-- R786, R789: the user page is loaded, or, after a warm reset, is the one that was loaded. -/
def State.loadPage (s : State) : State :=
  match s.bestPage with
  | none => if s.boot.paged then s else s.raise R.CAL_ERR F.CAL_ERR_NO_PAGE
  | some p =>
    let s := (s.setFld R.CAL_STAT F.CAL_STAT_PAGE p.1).setFld R.CAL_STAT F.CAL_STAT_SEQ (fieldAt p.2 8 8)
    if s.boot.paged then s
    else (List.range (fieldAt p.2 6 2)).foldl (fun s i => s.pageEntry (slice p.2 (64 + 16 * i) 16)) s

/-- R707, R708, R763, R765, R786, R789: stage `LAMPLIGHTER`; `fails` fuse positions fail before the epoch's burn verifies. -/
def lamplighter (cap fails : Nat) (s : State) : State :=
  let s := (s.bootRoles cap).loadPage
  (({ s with boot := { s.boot with paged := true } } : State).openEpoch fails).enterStage 5

/-- LAMPLIGHTER (R707, R763, R765, R786, R789, R822). -/
def execLamplighterStage (fails : Nat) (s : State) : Host.Outcome State Fault Refusal :=
  match s.bootCaptain with
  | some cap => .next (whenDue (s.inStage 4) s (lamplighter cap fails s))
  | none => .next s

/-! ### Boot: HBM (R668, R669, R677) -/

/-- R669, R677: what the training of a stack came to: the code of the rate it reached, 3 when it failed at the last; the
narrowest eye of each pseudo-channel 2u + q; its remapped lanes by pseudo-channel; delays as (64 × (2u + q) + DQ, write
delay, read delay, VREF). For a stack in self-refresh, a `rate` of 3 says that the verification step failed. -/
def State.trainStack (s : State) (st rate : Nat) (widths remaps : List Nat) (codes : List (Nat × Nat × Nat × Nat)) : State :=
  let first := s.fld (R.HBM_CFG st) F.HBM_CFG_RATE
  let off := R.HBM_STAT st
  let fail (s : State) : State := (s.raise (R.HBM_ERR st) F.HBM_ERR_TRAIN_FAIL).setFld off F.HBM_STAT_STATE 4
  if s.fld off F.HBM_STAT_STATE = 3 then
    if rate < 3 then s.setFld off F.HBM_STAT_STATE 2 else fail s
  else
    let s := s.setFld off F.HBM_STAT_RATE_USED (min rate 2)
    let s := if first < rate then s.raise (R.HBM_ERR st) F.HBM_ERR_RATE_DOWN else s
    let s := remaps.foldl (fun s pc =>
      let f := if pc % 2 = 0 then F.HBM_CH_REMAPS0 else F.HBM_CH_REMAPS1
      let c := R.HBM_CH st (pc / 2)
      (s.setFld c f (min 3 (s.fld c f + 1))).raise (R.HBM_ERR st) F.HBM_ERR_REMAP) s
    let s := (List.range 32).foldl (fun s pc =>
      s.rasLog { kind := 9, cls := 5, unit := 16 * st + pc / 2, detail := widths.getD pc 0, addr := 256 * (pc % 2),
                 who := .lamplighter }) s
    let s := s.setStack st fun h =>
      { h with delays := codes.foldl (fun t c => Tab.put t c.1 (c.2.1, c.2.2.1, c.2.2.2)) h.delays,
               trained := (List.range 32).map fun pc => (pc, s.tb.mono, s.fld off F.HBM_STAT_TEMP) }
    if rate < 3 then s.setFld off F.HBM_STAT_STATE 2 else fail s

/-- R669, R677, R822: every stack is trained, or leaves self-refresh; rows recorded for hard repair are repaired. -/
def hbmStage (rates : List Nat) (widths : List (List Nat)) (remaps : List (List Nat))
    (codes : List (List (Nat × Nat × Nat × Nat))) (s : State) : State :=
  let s := (List.range 8).foldl (fun s st =>
    s.trainStack st (rates.getD st 0) (widths.getD st []) (remaps.getD st []) (codes.getD st [])) s
  let s : State := if s.boot.warm then s else { s with ras := { s.ras with hard := [] } }
  if (List.range 8).all fun st => s.hbmReady st then s.enterStage 6 else s.bootFails

/-- HBM (R668, R669, R677, R822). -/
def execHbmStage (rates : List Nat) (widths : List (List Nat)) (remaps : List (List Nat))
    (codes : List (List (Nat × Nat × Nat × Nat))) (s : State) : Host.Outcome State Fault Refusal :=
  .next (whenDue (s.inStage 5 && decide (rates.length = 8)
      && (List.range 8).all (fun st => decide (s.fld (R.HBM_CFG st) F.HBM_CFG_RATE ≤ rates.getD st 0 ∧ rates.getD st 0 ≤ 3))
      && remaps.all (fun l => l.all fun pc => decide (pc < 32))
      && codes.all (fun l => l.all fun c => decide (c.1 < 2048 ∧ c.1 % 64 < 36 ∧ c.2.1 < 128 ∧ c.2.2.1 < 128 ∧ c.2.2.2 < 128))) s
    (hbmStage rates widths remaps codes s))

/-! ### Boot: services and links (R822) -/

/-- R297, R575, R576, R821, R822: the Chandelier shadows lie at `bases` and are cleared, tenant HBM is zeroed after a warm
reset, and the manager is created with the generation after its last issued one. -/
def services (bases : List Nat) (s : State) : State :=
  let s : State := if s.boot.warm then s.wipe 0 0x4680000000 else s
  let s := (List.range 4).foldl (fun s c =>
    (s.setFld (R.CHD_SHADOW c) F.CHD_SHADOW_BASE (bases.getD c 0)).wipe (bases.getD c 0) 0x100000) s
  let g := nextGen (s.inst 0).lastGen
  ((s.setInst 0 fun x => { x with st := 1, cls := 0, lastGen := g, gen := g, seen := true }).mailGen 0 g).enterStage 7

/-- SERVICES (R297, R575, R576, R822): Lamplighter chooses the places of the shadows in the firmware region. -/
def execServicesStage (bases : List Nat) (s : State) : Host.Outcome State Fault Refusal :=
  .next (whenDue (s.inStage 6 && decide (bases.length = 4) && decide bases.Nodup
      && bases.all fun b => decide (b % 0x100000 = 0 ∧ 0x4680000000 ≤ b ∧ b < 0x4780000000)) s (services bases s))

/-- R822: the manager's admin queue, global queue 0, from `TOP_MGRQ_*`. -/
def State.managerQueue (s : State) : Queue :=
  let c := R.TOP_MGRQ_CFG
  { st := .enabled, sizeLog2 := s.fld c F.TOP_MGRQ_CFG_SIZE_LOG2, port := s.fld c F.TOP_MGRQ_CFG_PORT,
    base := s.rd R.TOP_MGRQ_BASE, mirror := s.rd R.TOP_MGRQ_MIRROR, vector := s.fld c F.TOP_MGRQ_CFG_VECTOR,
    mirrorEn := s.bit c F.TOP_MGRQ_CFG_MIRROR_EN, notifyEn := s.bit c F.TOP_MGRQ_CFG_NOTIFY_EN, pubGen := s.genOf 0 }

/-- R822: ports are configured from `TOP_PORTCFG` and enabled, and the manager's queue is set up. -/
def links (s : State) : State :=
  let c := R.TOP_PORTCFG
  let s := s.setFld R.MLK0_PACE F.MLK0_PACE_DEVICE_ID (s.fld c F.TOP_PORTCFG_DEVICE_ID)
  let s := (List.range 6).foldl (fun s p =>
    let s := s.setFld (R.MLK_CFG p) F.MLK_CFG_MODE (b2n (bitAt (s.fld c F.TOP_PORTCFG_MODE) p))
    if bitAt (s.fld c F.TOP_PORTCFG_EN) p then s.portEnable p true else s) s
  let s : State := if s.bit R.TOP_MGRQ_CFG F.TOP_MGRQ_CFG_VALID then
      s.bringQueue 0 s.managerQueue else s
  s.enterStage 8

/-- LINKS (R822). -/
def execLinksStage (s : State) : Host.Outcome State Fault Refusal := .next (whenDue (s.inStage 7) s (links s))

end Sys2Proof.Machine
end

