-- ==== Sys2Proof/Machine/Census.lean ====
section
/-! DEFINITION. What the device tells of itself on an admin queue: `IDENTIFY`, `GET_LOG`, `GET_STATE` (R218, R561, R599,
R777, R838 to R844; 12_queues_commands.md, 13_tenants_tally.md, 20_census_address_map.md). -/
namespace Sys2Proof.Machine

/-! ### IDENTIFY -/

/-- R561: local queues free to an instance. -/
def State.localFree (s : State) (i : Nat) : Nat :=
  let used := (s.queues.filter fun q => 1024 < q.1 && q.2.st != .absent && q.2.inst == i).length
  let all := (s.queues.filter fun q => 1024 < q.1 && q.2.st != .absent).length
  min (511 - used) (15359 - all)

/-- R561: the identification buffer as instance `i` sees it. -/
def State.identity (s : State) (i gen : Nat) : List Byte :=
  let fw := s.firmware
  padTo ([0x4B, 0x58, 0x50, 0x32, 0xA1] ++ slice (padTo fw 16) 5 3 ++ slice (padTo fw 16) 8 8 ++ le i 2 ++ le gen 2
    ++ le (s.fld R.MLK0_PACE F.MLK0_PACE_DEVICE_ID) 1 ++ zeros 3 ++ le (s.capOf i 2 - s.heldMem i) 8 ++ le (s.localFree i) 2
    ++ zeros 30 ++ (List.range 16).map Config.serialByte) 4096

/-- R561, R854: `IDENTIFY`. -/
def identify (key : Nat) (c : Cmd) (s : State) : State :=
  if !hostFits (c.p 0 8) 4096 then s.completeCmd key Status.invalidField (c.fieldResidue 0)
  else ((s.beginCmd key).dataWrite key (c.p 0 8) (s.identity c.inst c.gen)).awaitData key 4096

/-- IDENTIFY (R561). -/
def execIdentify (key : Nat) (s : State) : Host.Outcome State Fault Refusal :=
  match s.cmdDue key 0x01 with
  | some c => .next (whenDue (!c.started) s (identify key c s))
  | none => .next s

/-! ### GET_LOG -/

/-- R218: the outcome record of the wick at a physical position, as the lantern monitor holds it. -/
def State.outcomeBytes (s : State) (pos : Nat) : List Byte :=
  (List.range 8).flatMap fun j => le (s.rd (R.LAN_MON_OUT (pos / 17) (8 * (pos % 17) + j))) 8

/-- R777: the lantern outcome records that stand, by physical position. -/
def State.outcomes (s : State) : List (Nat × List Byte) :=
  ((List.range 1156).filter fun p => bitAt (s.fld (R.LAN_MON_STAT (p / 17)) F.LAN_MON_STAT_TRAPPED) (p % 17)).map fun p =>
    (p, s.outcomeBytes p)

/-- R599, R777: the records of a log with their numbers, those of one tenant alone when `i` is not 0. -/
def State.logRecords (s : State) (log i : Nat) : List (Nat × List Byte) :=
  let mine := fun (b : List Byte) =>
    i == 0 || fieldAt b (if log = 1 then 22 else if log = 2 then 32 else 4) 2 == i
  let all : List (Nat × List Byte) :=
    if log = 1 then s.journal.map fun b => (fieldAt b 0 8, b)
    else if log = 2 then s.ras.log.map fun b => (fieldAt b 0 8, b)
    else s.outcomes
  all.filter fun r => mine r.2

/-- R599, R777: `GET_LOG`. -/
def getLog (key : Nat) (c : Cmd) (s : State) : State :=
  let rs := ((s.logRecords (c.p 0 1) c.inst).filter fun r => c.p 8 8 ≤ r.1).take (c.p 16 4)
  let bytes := rs.flatMap (·.2)
  if !hostFits (c.p 24 8) bytes.length then s.completeCmd key Status.invalidField (c.fieldResidue 24)
  else ((s.beginCmd key).dataWrite key (c.p 24 8) bytes).awaitData key rs.length

/-- GET_LOG (R599, R777). `upset`: an upset of the journal was corrected as it was read (`JNL_ERR.PARITY`). -/
def execGetLog (key : Nat) (upset : Bool) (s : State) : Host.Outcome State Fault Refusal :=
  match s.cmdDue key 0x08 with
  | some c => .next (whenDue (!c.started) s
      (getLog key c (if upset && c.p 0 1 == 1 then s.raise R.JNL_ERR F.JNL_ERR_PARITY else s)))
  | none => .next s

/-! ### GET_STATE -/

/-- R843: a census record: class, owner, key, body from byte 8. -/
structure Census where
  cls : Nat
  inst : Nat
  key : Nat
  body : List Byte

/-- R843: the 64 bytes of a record. -/
def State.censusBytes (s : State) (r : Census) : List Byte :=
  le r.cls 1 ++ le 0 1 ++ le r.inst 2 ++ le r.key 4 ++ padTo r.body 48 ++ le (s.rd R.JNL_NEXT) 8

/-- R844: the DEVICE record. -/
def State.censusDevice (s : State) : Census :=
  let flags := s.fld R.TOP_RESET F.TOP_RESET_WARM + 2 * s.fld R.TB_STAT F.TB_STAT_TIME_VALID + 4 * b2n s.crank.synced
    + 8 * s.fld R.SWX_ATT F.SWX_ATT_EPOCH_VALID + 16 * b2n (!s.merges.isEmpty)
  { cls := 1, inst := 0xFFFF, key := 0,
    body := le s.now 8 ++ le s.tbState 1 ++ le s.stage 1 ++ le (s.captain.getD 0) 1 ++ le flags 1
      ++ le (s.fld R.CRK_AUTH F.CRK_AUTH_AUTH) 4 ++ le (s.fld R.SWX_ATT F.SWX_ATT_EPOCH) 2
      ++ le (min 64 s.heldMinutes) 1 ++ le 0 1 ++ le (s.fld R.TOP_RESET F.TOP_RESET_WARM_COUNT) 4
      ++ le (s.rd R.INST_TALLYSEQ) 8 ++ le (s.rd R.RAS_LOG_NEXT) 8 ++ le (s.rd R.JNL_WRAPS) 8 }

/-- `QUERY_RUN`s of an instance accepted and not finished, in `cmds` or as runs. -/
def State.runsOpen (s : State) (i : Nat) : Nat :=
  (s.cmds.filter fun e => e.2.inst == i && e.2.opcode == 0x4A && !e.2.finished && !e.2.isOpen).length

/-- R841, R844: the INSTANCE records. -/
def State.censusInsts (s : State) : List Census :=
  (s.insts.filter fun e => e.2.st != 0 || !e.2.retired.isEmpty).map fun e =>
    let i := e.1
    let x := e.2
    let gs := s.genSlots i
    { cls := 2, inst := i, key := i,
      body := le x.st 1 ++ le x.cls 1 ++ le (b2n x.shrinking) 1 ++ le (s.instOut i) 1
        ++ (List.range 4).flatMap (fun j => le (gs.getD j 0) 2) ++ le x.wicks 2 ++ le x.banks 2 ++ le x.fold 2
        ++ le (s.queues.filter fun q => q.2.st != .absent && q.2.inst == i).length 2 ++ le (s.capOf i 2) 8
        ++ le (s.heldMem i) 8 ++ le (s.pipes.filter fun p => p.2.inst == i).length 2 ++ le (s.runsOpen i) 2
        ++ le (s.rd (R.INST_STALE i)) 8 }

/-- R844: the QUEUE records. -/
def State.censusQueues (s : State) : List Census :=
  (s.queues.filter fun e => e.2.st != .absent).map fun e =>
    let g := e.1
    let q := e.2
    let flags := b2n (s.queueIdle g) + 2 * b2n q.push + 4 * b2n q.mirrorEn + 8 * b2n q.notifyEn
    let accepted := total ((s.cmds.filter fun c => c.2.g == g && !c.2.mgmt && !c.2.finished).map fun c => c.2.ents.length)
    { cls := 3, inst := q.inst, key := g,
      body := le q.loc 2 ++ le q.typ 1 ++ le q.st.code 1 ++ le q.cause 1 ++ le flags 1 ++ le q.sizeLog2 1 ++ le q.port 1
        ++ le q.head 4 ++ le q.tail 4 ++ le (if q.submits then q.fetch else q.prod) 4 ++ le q.vector 2 ++ le q.pubGen 2
        ++ le q.base 8 ++ le q.mirror 8 ++ le accepted 4 }

/-- R844: the REGION records. -/
def State.censusRegions (s : State) : List Census :=
  s.regions.map fun e =>
    let users := (s.cmds.filter fun c => c.2.started && !c.2.finished && c.2.inst == e.2.inst
      && c.2.ranges.any (·.1 == e.1)).length
    { cls := 4, inst := e.2.inst, key := e.1, body := le e.2.size 8 ++ le users 4 }

/-- R844: the PIPELINE records. -/
def State.censusPipes (s : State) : List Census :=
  s.pipes.map fun e =>
    let p := e.2
    let busy := s.runs.find? fun r => r.2.pipe == e.1 && (r.2.st == 1 || r.2.st == 2)
    let tag := match busy with | some r => r.2.tag | none => 0
    let loc := match busy with | some r => (Tab.at s.queues (r.1 / 65536)).loc | none => 0xFFFF
    let waiting := (s.runs.filter fun r => r.2.pipe == e.1 && r.2.st == 0).length
      + (s.cmds.filter fun c => c.2.opcode == 0x4A && !c.2.started && !c.2.finished && !c.2.isOpen && c.2.inst == p.inst
          && c.2.p 0 2 == e.1).length
    { cls := 5, inst := p.inst, key := e.1,
      body := le p.imageId 8 ++ le tag 2 ++ le loc 2 ++ le p.chdTabs.length 1 ++ le p.foldTabs.length 1
        ++ le (Img.stages p.img) 2 ++ le waiting 4 }

/-- R841: the entry at a position of a queue has been accepted and the published head has not passed it. -/
def State.unpassed (s : State) (key : Nat) : Bool :=
  let q := Tab.at s.queues (key / 65536)
  decide ((key % 65536 + q.n - q.head % 65536) % q.n < occupancy q.n q.head q.fetch)

/-- R841, R844: the RUN records: `QUERY_RUN` entries not yet passed, with the run's record once there is one. -/
def State.censusRuns (s : State) : List Census :=
  let cs : Tab Census := (s.cmds.filter fun e => e.2.opcode == 0x4A && !e.2.isOpen).map fun e =>
    (e.1, { cls := 6, inst := e.2.inst, key := e.1, body := zeros 40 ++ le e.2.tag 2 ++ le (e.2.p 0 2) 2 })
  let live := s.runs.filter fun r => match Tab.get s.cmds r.1 with
    | some c => c.opcode == 0x4A
    | none => s.unpassed r.1
  let all := live.foldl (fun (t : Tab Census) r => Tab.put t r.1
    { cls := 6, inst := r.2.inst, key := r.1, body := r.2.record.take 40 ++ le r.2.tag 2 ++ le r.2.pipe 2 }) cs
  all.map (·.2)

/-- R510: bytes 0 to 31 of a context. -/
def Ctx.head (c : Ctx) : List Byte :=
  let st := match c.st with
    | .free => 0 | .delayed => 1 | .ready => 2 | .running => 3 | .preempted => 4 | .ended => 5 | .passed => 6
    | .committed => 7 | .discarded => 8
  le c.taskNo 4 ++ le c.stage 1 ++ le c.epoch 1 ++ le c.slot 1 ++ le st 1 ++ le c.inst 2 ++ le c.gen 2
    ++ le (c.prio + 8 * b2n c.preempt) 1 ++ le (b2n c.saved + 2 * b2n c.gated) 1 ++ le c.pipe 2 ++ padTo c.morsel 16

/-- R211, R510: the cycles a context's run has taken. -/
def State.ctxCycles (s : State) (i : Nat) : Nat :=
  match s.wickOf i with
  | some pos => (s.wick pos).cycles
  | none => (Tab.at s.ctxs i).cycles

/-- R510: `WICK` of a context. -/
def Ctx.wickField (c : Ctx) : Nat := if c.st = .running then c.wick else 0

/-- R844: the TASK records. -/
def State.censusTasks (s : State) : List Census :=
  (s.ctxs.filter fun e => e.2.st != .free).map fun e =>
    { cls := 7, inst := e.2.inst, key := e.1,
      body := e.2.head ++ le (if e.2.st = .delayed then e.2.due else 0) 4 ++ le e.2.readyCog 4 ++ le (s.ctxCycles e.1) 6
        ++ le e.2.wickField 2 }

/-- The pipeline that holds a Chandelier table (32c + t), or a fold table. -/
def State.pipeOfChd (s : State) (k : Nat) : Nat :=
  match s.pipes.find? fun p => p.2.chdTabs.any (·.2 == k) with | some p => p.1 | none => 0
def State.pipeOfFold (s : State) (t : Nat) : Nat :=
  match s.pipes.find? fun p => p.2.foldTabs.any (·.2 == t) with | some p => p.1 | none => 0

/-- R841, R844: the LEASE records. -/
def State.censusLeases (s : State) : List Census :=
  let banksOf := fun c t => (List.range 32).filter fun b =>
    s.bit (R.CHD_BANK c b) F.CHD_BANK_LEASED && s.fld (R.CHD_BANK c b) F.CHD_BANK_TABLE == t
  let chds := (List.range 128).filter fun k =>
    s.bit (R.CHD_TABLE (k / 32) (k % 32)) F.CHD_TABLE_VALID || !(banksOf (k / 32) (k % 32)).isEmpty
  let folds := (List.range 64).filter fun t => s.bit (R.FOLD_TBL_CFG t) F.FOLD_TBL_CFG_VALID
  chds.map (fun k =>
      let c := k / 32
      let t := k % 32
      { cls := 8, inst := s.fld (R.CHD_TABLE c t) F.CHD_TABLE_INSTANCE, key := 65536 + k,
        body := le 1 1 ++ le c 1 ++ zeros 2 ++ le (total ((banksOf c t).map (2 ^ ·))) 4 ++ le (s.rd (R.CHD_TABLE c t)) 8
          ++ le (s.pipeOfChd k) 2 })
    ++ folds.map fun t =>
      { cls := 8, inst := s.fld (R.FOLD_TBL_CFG t) F.FOLD_TBL_CFG_INSTANCE, key := 131072 + t,
        body := le 2 1 ++ zeros 7 ++ le (s.rd (R.FOLD_TBL_CFG t)) 8 ++ le (s.pipeOfFold t) 2 }

/-- R841: the objects of a class, by ascending key. -/
def State.census (s : State) (cls : Nat) : List Census :=
  match cls with
  | 1 => [s.censusDevice]
  | 2 => s.censusInsts
  | 3 => s.censusQueues
  | 4 => s.censusRegions
  | 5 => s.censusPipes
  | 6 => s.censusRuns
  | 7 => s.censusTasks
  | _ => s.censusLeases

/-- R838 to R843: `GET_STATE`. -/
def getState (key : Nat) (c : Cmd) (s : State) : State :=
  let cls := c.p 0 1
  let mine := fun (r : Census) => c.inst == 0 || cls == 1 || r.inst == c.inst
  let rs := ((s.census cls).filter fun r => decide (c.p 4 4 ≤ r.key) && mine r).take (c.p 16 4 / 64)
  let bytes := rs.flatMap s.censusBytes
  if !hostFits (c.p 8 8) bytes.length then s.completeCmd key Status.invalidField (c.fieldResidue 8)
  else ((s.beginCmd key).dataWrite key (c.p 8 8) bytes).awaitData key rs.length

/-- GET_STATE (R838 to R844). -/
def execGetState (key : Nat) (s : State) : Host.Outcome State Fault Refusal :=
  match s.cmdDue key 0x06 with
  | some c => .next (whenDue (!c.started) s (getState key c s))
  | none => .next s

end Sys2Proof.Machine
end

