-- ==== Sys2Proof/Machine/CsrBus.lean ====
section
/-! DEFINITION. The CSR bus: what a register reads, what a write of it does, and accesses that name no register (R10 to
R17, R42 to R45, R595, R596, R787, R850, and the register tables of every chapter). -/
namespace Sys2Proof.Machine

/-! ### Computed registers -/

/-- `TB_STAT`: `DISCARDS` counts the current second (R492). -/
def State.tbStat (s : State) : Nat :=
  let d := if s.tb.discardSec = s.now / 1000000000 then min 31 s.tb.discards else 0
  putBits (putBits (s.rd R.TB_STAT) 9 5 d) 5 1 (b2n s.tb.tset.isSome)

/-- The contexts that are not FREE. -/
def State.ctxUsed (s : State) : Nat := Tab.count s.ctxs fun c => c.st != .free

/-- R510: `LINK`: the context that follows in the ready or delay list. -/
def State.ctxLink (s : State) (i : Nat) : Nat :=
  let after (l : List Nat) : Option Nat :=
    match l.dropWhile (· != i) with
    | _ :: n :: _ => some n
    | _ => none
  match s.ready.findSome? fun e => after e.2 with
  | some n => n
  | none => (s.delay.findSome? fun e => after (e.2.map (·.2))).getD 0

/-- R510: the 64 bytes of a context. -/
def State.ctxBytes (s : State) (i : Nat) : List Byte :=
  match Tab.get s.ctxs i with
  | some c =>
    if c.st = .free then zeros 64
    else c.head ++ le (Config.runRecord c.run % 2 ^ 40) 8 ++ le (if c.st = .delayed then c.due else 0) 4
      ++ le (s.ctxLink i) 4 ++ le (s.ctxCycles i) 6 ++ le c.wickField 2 ++ le c.readyCog 4
      ++ le (if c.st = .preempted then c.save else 0) 4
  | none => zeros 64

/-- R522: `DRL_DLISTl`. -/
def State.dlist (s : State) (l : Nat) : Nat :=
  let es := Tab.at s.delay l
  es.length % 2 ^ 22 + ((es.head?.map (·.1)).getD 0) % 2 ^ 32 * 2 ^ 32

/-- R524: `DRL_WLOADw`. -/
def State.wload (s : State) (w : Nat) : Nat :=
  let busy := match s.wickPos w with | some p => (s.wick p).lastBusy | none => 0
  busy % 2 ^ 40 + s.tb.windows % 2 ^ 24 * 2 ^ 40

/-- A register of block DRL. -/
def State.drlRead (s : State) (off : Nat) : Nat :=
  let o := off - 0x200000
  if off = R.DRL_COG then s.cog % 2 ^ 32
  else if off = R.DRL_STAT then s.ctxUsed % 2 ^ 22 + min 16384 s.ctxUsed * 2 ^ 22
  else if off = R.DRL_LED_ENTRIES then s.ledger.length % 2 ^ 17
  else if 0x38 ≤ o ∧ o < 0x78 then fieldAt (s.ctxBytes (s.fld R.DRL_CTXSEL F.DRL_CTXSEL_INDEX)) (8 * ((o - 0x38) / 8)) 8
  else if 0x1000 ≤ o ∧ o < 0x2000 then (Tab.at s.ready ((o - 0x1000) / 8)).length % 2 ^ 22
  else if 0x3000 ≤ o ∧ o < 0x3080 then s.dlist ((o - 0x3000) / 8)
  else if 0x8000 ≤ o ∧ o < 0x8000 + 1088 * 8 then s.wload ((o - 0x8000) / 8)
  else s.rd off

/-- A register of block QM. -/
def State.qmRead (s : State) (off : Nat) : Nat :=
  if off = R.QM_STAT then Tab.count s.queues fun q => q.st != .absent
  else if off < 0x380000 then s.rd off
  else
    let g := (off - 0x380000) / 32
    let q := Tab.at s.queues g
    match off % 32 / 8 with
    | 0 => s.qcfg g
    | 1 => if q.st = .absent then s.rd off else q.base
    | 2 => if q.st = .absent then s.rd off else q.mirror
    | _ => s.qstat g

/-- A register of block INST. -/
def State.instRead (s : State) (off : Nat) : Nat :=
  if off = R.INST_STAT then s.instStat
  else if off = R.INST_POOL then s.instPool
  else if off = R.INST_TALLYSTAT then s.tallyStat
  else if off < 0x410000 then s.rd off
  else
    let i := (off - 0x410000) / 64
    match off % 64 / 8 with
    | 0 => s.instCfg i
    | 1 => s.instMem i
    | 2 => s.instGen i
    | 3 => s.instOut i
    | _ => s.rd off

/-- A register of block FOLD. -/
def State.foldRead (s : State) (off : Nat) : Nat :=
  if off = R.FOLD_STAT then 2 * b2n (s.ras.repairing.any fun r => r.1 == 4)
  else if R.FOLD_U_STAT 0 ≤ off ∧ off < R.FOLD_U_STAT 136 ∧ off % 64 = 0 then
    let unit := (off - R.FOLD_U_STAT 0) / 64
    let serves := s.fld off F.FOLD_U_STAT_SERVES
    let ch := 16 * (unit / 17) + serves
    let busy := decide (serves < 16) && s.foldMsgs.any fun m => (foldPlace (s.foldTab m.table) m).1 == ch
    let depth := if serves < 16 then (Tab.at s.foldQ ch).length else 0
    putBits (putBits (s.rd off) 1 1 (b2n busy)) 2 7 depth
  else s.rd off

/-- The probe registers of a Chandelier (R262, R266). -/
def State.probe (s : State) (c : Nat) (meta_ : Bool) : Nat :=
  let a := R.CHD_PROBE_ADDR c
  let b := s.fld a F.CHD_PROBE_ADDR_BANK
  let r := s.fld a F.CHD_PROBE_ADDR_ROW
  let h := s.chd c
  let spare := s.bit a F.CHD_PROBE_ADDR_SPARE
  let home := (h.remap.find? fun e => e.1 / 2048 == b && e.2 == r % 64).map (·.1 % 2048)
  let row := if spare then Tab.at h.spares (64 * b + r % 64) else Tab.at h.rows (2048 * b + r)
  let stands := if spare then home else some r
  if !meta_ then row.data
  else
    let check := Config.secdedCheck row.wrote % 256
    match stands with
    | some r =>
      let x := h.sideOf b (r / s.bankUnits c b)
      check + x.tag % 16 * 2 ^ 8 + b2n x.valid * 2 ^ 12 + b2n (h.suspect.contains (2048 * b + r)) * 2 ^ 13
        + x.value % 2 ^ 32 * 2 ^ 32
    | none => check

/-- A register of a Chandelier. -/
def State.chdRead (s : State) (off : Nat) : Nat :=
  let c := (off - 0x900000) / 0x40000
  if off = R.CHD_PROBE_DATA c then s.probe c false
  else if off = R.CHD_PROBE_META c then s.probe c true
  else s.rd off

/-- `LANnn_RSV_STAT`: the tasks bound to the Reservoir. -/
def State.rsvStat (s : State) (n : Nat) : Nat :=
  let tasks := Tab.count (s.wicks.filter fun e => e.1 / 17 == n) fun k => match k.job with
    | some j => j.slot.isSome && !j.spent
    | none => false
  putBits (putBits (s.rd (R.LAN_RSV_STAT n)) 0 1 (b2n (tasks != 0))) 17 5 tasks

/-- `LANnn_XCH_STAT`: the landing blocks of the lantern that are not FREE. -/
def State.xchStat (s : State) (n : Nat) : Nat :=
  let mine (hbm : Bool) : Nat := Tab.count s.blocks fun b => b.lantern == n && b.hbm == hbm
  mine false % 2 ^ 10 + mine true % 2 ^ 32 * 2 ^ 32

/-- `LANnn_SL_STAT`: a merge is one command, so `MERGING` and `WAYS` read 0. -/
def State.slStat (s : State) (n : Nat) : Nat :=
  let ks := s.wicks.filter fun e => e.1 / 17 == n && e.2.ladder.isSome
  let bufs := ks.foldl (fun a e => a + min 2 (b2n (!e.2.openRun.isEmpty) + e.2.sealed.length)) 0
  let busy := ks.any fun e => !e.2.sealed.isEmpty || e.2.closing
  putBits (putBits (s.rd (R.LAN_SL_STAT n)) 0 1 (b2n busy)) 1 6 (min 34 bufs)

/-- A register of a lantern. -/
def State.lanRead (s : State) (off : Nat) : Nat :=
  let n := (off - 0xA00000) / 0x10000
  if off = R.LAN_RSV_STAT n then s.rsvStat n
  else if off = R.LAN_XCH_STAT n then s.xchStat n
  else if off = R.LAN_SL_STAT n then s.slStat n
  else if off = R.LAN_SCN_STAT n then s.scnStat n
  else s.rd off

/-- Word `j` of the record of a log whose first eight bytes are a `SEQ`; 0 when that record is not held. -/
def logWord (log : List (List Byte)) (seq j : Nat) : Nat :=
  match log.find? fun r => fieldAt r 0 8 == seq with
  | some r => fieldAt r (8 * j) 8
  | none => 0

/-- A register of block RAS. -/
def State.rasRead (s : State) (off : Nat) : Nat :=
  if off = R.RAS_STAT then putBits (s.rd off) 5 1 (s.fld R.SWX_STAT F.SWX_STAT_ACTIVE)
  else if R.RAS_LOG_DATA 0 ≤ off ∧ off < R.RAS_LOG_DATA 8 then
    logWord s.ras.log (s.rd R.RAS_LOG_SEL) ((off - R.RAS_LOG_DATA 0) / 8)
  else if R.RAS_SOOT 0 ≤ off ∧ off < R.RAS_SOOT 1386 then
    putBits (s.rd off) 63 1 (b2n (decide (s.fld R.RAS_TH F.RAS_TH_SOOT ≤ s.fld off F.RAS_SOOT_DEGRADE)))
  else s.rd off

/-- R11: what a read of the register at an offset of an occupied range returns; an offset that names none reads 0 (R850),
and `WO` fields hold 0. -/
def State.csrRead (s : State) (off : Nat) : Nat :=
  let b := off / 0x10000
  if (regAt off).isNone then 0
  else if off = R.TB_NOW then s.now % 2 ^ 64
  else if off = R.TB_STAT then s.tbStat
  else if 0x20 ≤ b ∧ b < 0x30 then s.drlRead off
  else if 0x30 ≤ b ∧ b < 0x40 then s.qmRead off
  else if 0x40 ≤ b ∧ b < 0x50 then s.instRead off
  else if 0x60 ≤ b ∧ b < 0x68 then
    if off = R.HBM_TRN_DLY (b - 0x60) then s.trnDly (b - 0x60)
    else if off = R.HBM_RET_DATA (b - 0x60) then s.retData (b - 0x60)
    else s.rd off
  else if 0x70 ≤ b ∧ b < 0x80 then s.foldRead off
  else if 0x90 ≤ b ∧ b < 0xA0 then s.chdRead off
  else if 0xA0 ≤ b ∧ b < 0xE4 then s.lanRead off
  else if off = R.CRK_STAT then s.crkStat
  else if off = R.SWX_STAT then s.swxStat
  else if off = R.SWX_POLICY then s.ras.policy % 8
  else if R.SWX_CTX 0 ≤ off ∧ off < R.SWX_CTX 8 then s.swxCtxView ((off - R.SWX_CTX 0) / 8)
  else if 0x120 ≤ b ∧ b < 0x130 then s.rasRead off
  else if off = R.DBG_STAT then putBits (s.rd off) 3 1 (b2n s.pins.snuffN)
  else if R.JNL_DATA 0 ≤ off ∧ off < R.JNL_DATA 8 then logWord s.journal (s.rd R.JNL_SEL) ((off - R.JNL_DATA 0) / 8)
  else if off = R.JNL_STAT then s.journal.length
  else s.rd off

/-! ### Plain writes -/

/-- The `ERR` register whose bit 0 is the block's `BADCFG` (R17, R314, R525, R573, R659, R702, R800, R837). -/
def errReg (off : Nat) : Nat :=
  let b := off / 0x10000
  if b < 0x10 then R.TOP_ERR
  else if b < 0x20 then R.TB_ERR
  else if b < 0x30 then R.DRL_ERR
  else if b < 0x40 then R.QM_ERR
  else if 0x50 ≤ b ∧ b < 0x56 then R.MLK_ERR (b - 0x50)
  else if 0x60 ≤ b ∧ b < 0x68 then R.HBM_ERR (b - 0x60)
  else if 0x90 ≤ b ∧ b < 0xA0 then R.CHD_ERR ((b - 0x90) / 4)
  else if 0x120 ≤ b ∧ b < 0x130 then R.RAS_ERR
  else if 0x110 ≤ b ∧ b < 0x120 then R.CAL_ERR
  else R.TOP_ERR

/-- R11, R12: the `LOCK` bit of the block of a register is 1. -/
def State.locked (s : State) (off : Nat) : Bool :=
  let b := off / 0x10000
  let at_ (r : Nat) : Bool := bitAt (s.rd r) 63
  if b < 0x10 then at_ R.TOP_CTL
  else if 0x20 ≤ b ∧ b < 0x30 then at_ R.DRL_CTL
  else if 0x50 ≤ b ∧ b < 0x56 then at_ (R.MLK_CTL (b - 0x50))
  else if 0x60 ≤ b ∧ b < 0x68 then at_ (R.HBM_CTL (b - 0x60))
  else if 0xF0 ≤ b ∧ b < 0x100 then at_ R.CRK_CTL
  else if 0x110 ≤ b ∧ b < 0x120 then at_ R.CAL_CTL
  else if 0x120 ≤ b ∧ b < 0x130 then at_ R.RAS_CTL
  else if 0x130 ≤ b ∧ b < 0x140 then at_ R.DBG_CTL
  else false

/-- R314, R573, R653, R659, R702, R800, R837: a value reserved for the field at bit `lo` of a register. -/
def reservedValue (off lo v : Nat) : Bool :=
  let b := off / 0x10000
  let o := off % 0x10000
  let out (a c : Nat) : Bool := decide (v < a ∨ c < v)
  if off = R.TOP_VID then lo == 0 && out 0 80
  else if off = R.TOP_MGRQ_CFG then (lo == 0 && out 4 16) || (lo == 5 && out 0 5)
  else if 0x30 ≤ b ∧ b < 0x40 then
    decide (0x380000 ≤ off ∧ off % 32 = 0)
      && ((lo == 4 && out 4 16) || (lo == 9 && out 0 5) || (lo == 1 && v == 0 && decide (1024 < (off - 0x380000) / 32)))
  else if 0x50 ≤ b ∧ b < 0x56 then
    (o == 0x008 && lo == 0 && out 0 1) || (decide (b = 0x50 ∧ 0x840 ≤ o ∧ o < 0x8C0) && lo == 0 && out 0 5)
  else if 0x60 ≤ b ∧ b < 0x68 then
    o == 0x008 && ((lo == 0 && v == 3) || (lo == 2 && out 1000 3900) || (lo == 14 && v == 0))
  else if 0x90 ≤ b ∧ b < 0xA0 then
    let r := (off - 0x900000) % 0x40000
    (r == 0x018 && lo == 0 && out 32 4095)
      || (decide (0x400 ≤ r ∧ r < 0x500) && ((lo == 2 && out 0 5) || (lo == 5 && v == 3)))
  else if off = R.RAS_TH then lo == 0 && out 100 2047
  else if off = R.RAS_SOOT_CFG then lo == 0 && v == 0
  else false

/-- R787: a user offset, as stored: its own limit when it lies beyond. `(lo, wid)` is the field. -/
def userLimit (off lo : Nat) : Option Int :=
  if off = R.TB_OSCTRIM then (if lo = 0 then some 50000 else none)
  else if R.CAL_TS 0 ≤ off ∧ off < R.CAL_TS 64 then some 500
  else if R.CAL_VM 0 ≤ off ∧ off < R.CAL_VM 16 then some 200
  else if R.CAL_SDS 0 ≤ off ∧ off < R.CAL_SDS 54 then some 7
  else if R.CAL_HBM 0 ≤ off ∧ off < R.CAL_HBM 8 then some 16
  else if R.RAS_SOOT 0 ≤ off ∧ off < R.RAS_SOOT 1386 then some 2047
  else none

/-- The value a field stores of a value written: user offsets are clamped (R787), and low address bits read 0. -/
def stored (off lo wid v : Nat) : Nat :=
  match userLimit off lo with
  | some l => ofSgn wid (max (-l) (min l (sgn wid v)))
  | none =>
    if off = R.TOP_MGRQ_BASE then v / 4096 * 4096
    else if off = R.TOP_MGRQ_MIRROR then v / 8 * 8
    else if 0x380000 ≤ off ∧ off < 0x400000 then
      (if off % 32 = 8 then v / 4096 * 4096 else if off % 32 = 16 then v / 8 * 8 else v)
    else v

/-- R11, R16, R17: what one field holds after a write of `val`, and whether the value was reserved. -/
def State.fieldWrite (s : State) (off val : Nat) (f : RegField) : Nat × Bool :=
  let old := bitsOf (s.rd off) f.lo f.wid
  let x := bitsOf val f.lo f.wid
  let put : Nat × Bool := if reservedValue off f.lo x then (old, true) else (stored off f.lo f.wid x, false)
  match f.acc with
  | .rw => put
  | .rwl => if s.locked off then (old, false) else put
  | .w1c => (old &&& ((2 ^ f.wid - 1) ^^^ x), false)
  | .w1s => (old ||| x, false)
  | .ro | .wo | .rc => (old, false)

/-- R11, R16, R17: a write of a register by its fields' access types; bits outside every field stay 0. -/
def State.plainWrite (s : State) (off val : Nat) : State :=
  match regAt off with
  | none => s
  | some r =>
    let fs := r.flds.map fun f => (f, s.fieldWrite off val f)
    let s' := s.wr off (fs.foldl (fun v x => putBits v x.1.lo x.1.wid x.2.1) (s.rd off))
    if fs.any fun x => x.2.2 then s'.setFld (errReg off) (0, 1) 1 else s'

/-! ### Registers with a behaviour of their own -/

/-- R564, R571, R573: a write in block QM. -/
def qmWrite (who : Who) (off val : Nat) (s : State) : State :=
  let bad (s : State) : State := s.raise R.QM_ERR F.QM_ERR_BADCFG
  if off = R.QM_QRESET then (if bitAt val 14 then queueReset who (val % 2 ^ 14) s else s)
  else if off < 0x380000 then s.plainWrite off val
  else
    let g := (off - 0x380000) / 32
    let absent := decide ((Tab.at s.queues g).st = .absent)
    match off % 32 / 8 with
    | 0 =>
      let known := 0xFFFF01FF07FF3FFE
      if absent then s.plainWrite off (val / 2 * 2)
      else if val &&& known = s.qcfg g &&& known then s.enableQueue g (bitAt val 0)
      else bad s
    | 1 | 2 => if absent then s.plainWrite off val else bad s
    | _ => s

/-- R616, R659: a write in block MLKn. -/
def mlkWrite (off val : Nat) (s : State) : State :=
  let p := off / 0x10000 - 0x50
  let bad (s : State) : State := s.raise (R.MLK_ERR p) F.MLK_ERR_BADCFG
  if off = R.MLK_CTL p then
    let s := (s.plainWrite off (putBits val 0 1 (s.fld off F.MLK_CTL_EN))).portEnable p (bitAt val 0)
    if bitAt val 1 then s.portRetrain p else s
  else if off = R.MLK_CFG p ∧ s.portState p ≠ 0 then
    let old := s.rd off
    let v := putBits (putBits val 0 2 (bitsOf old 0 2)) 2 1 (bitsOf old 2 1)
    let s' := s.plainWrite off v
    if bitsOf val 0 3 = bitsOf old 0 3 then s' else bad s'
  else if off = R.MLK_CREDIT p then
    if s.portState p ≠ 0 then bad s
    else
      let old := s.rd off
      let v := (List.range 4).foldl (fun v j => if bitsOf val (8 * j) 8 < 8 then putBits v (8 * j) 8 (bitsOf old (8 * j) 8) else v) val
      let sum := total ((List.range 4).map fun j => bitsOf v (8 * j) 8)
      if 512 < sum then bad s
      else
        let s' := s.plainWrite off v
        if bitsOf v 0 32 = bitsOf val 0 32 then s' else bad s'
  else s.plainWrite off val

/-- A write in a block HBMs. -/
def hbmWrite (off val : Nat) (s : State) : State :=
  let st := off / 0x10000 - 0x60
  if off = R.HBM_TRN_CTL st then
    let a := s.draw
    let b := a.2.draw
    if bitAt val 10 then trnCtlWrite st val a.1 b.1 b.2 else trnCtlWrite st val 0 0 s
  else if off = R.HBM_TRN_DLY st then trnDlyWrite st val s
  else s.plainWrite off val

/-- A write in block FOLD. -/
def foldWrite (off val : Nat) (s : State) : State :=
  if R.FOLD_TBL_CFG 0 ≤ off ∧ off < R.FOLD_TBL_CFG 64 then
    foldTblWrite ((off - R.FOLD_TBL_CFG 0) / 32) (off % 32 / 8) val s
  else s.plainWrite off val

/-- A write in block CHN. -/
def chnWrite (off val : Nat) (s : State) : State :=
  let c := (off - 0x801000) / 0x100
  let o := off % 0x100
  if off < 0x801000 then s.plainWrite off val
  else if o = 0 then chainCtlWrite c val s
  else if 0x40 ≤ o ∧ o < 0x80 then chainWordWrite c ((o - 0x40) / 8) val s
  else s

/-- A write in a block CHDc. -/
def chdWrite (off val : Nat) (s : State) : State :=
  let c := (off - 0x900000) / 0x40000
  let o := (off - 0x900000) % 0x40000
  if off = R.CHD_LOAD_CTL c then loadCtlWrite c val s
  else if 0x100 ≤ o ∧ o < 0x200 then bankWrite c ((o - 0x100) / 8) val s
  else s.plainWrite off val

/-- A write in a block LANnn. -/
def lanWrite (off val : Nat) (s : State) : State :=
  let n := (off - 0xA00000) / 0x10000
  let o := off % 0x10000
  if off = R.LAN_RSV_RCPINV n then rcpinv n val s
  else if off = R.LAN_SCN_MAINT n then scnMaintWrite n val s
  else if 0x2900 ≤ o ∧ o < 0x2940 then scnLockWrite n ((o - 0x2900) / 8) val s
  else if off = R.LAN_SL_FMTCTL n then fmtCtl n (bitsOf val 0 8) (bitsOf val 8 8) s
  else if 0x3800 ≤ o ∧ o < 0x3A00 then formatWrite n ((o - 0x3800) / 8) val s
  else if 0x4000 ≤ o then windowWrite n ((o - 0x4000) / 0xC00) ((o - 0x4000) % 0xC00 / 8) val s
  else s.plainWrite off val

/-- A write in block CRK (R718, R722). -/
def crkWrite (off val : Nat) (s : State) : State :=
  if off = R.CRK_CTL then crkCtlWrite val s
  else if off = R.CRK_CFG ∨ off = R.CRK_ARB then (s.plainWrite off val).arbitrate
  else s.plainWrite off val

/-- A write in block CAL (R790, R791). -/
def calWrite (off val : Nat) (s : State) : State :=
  if off = R.CAL_CTL then
    let s := s.plainWrite off val
    if bitAt val 0 then s.askSave else s
  else if R.CAL_OTP_DATA 0 ≤ off ∧ off < R.CAL_OTP_DATA 4 then
    { s with ras := { s.ras with otpData := setNth s.ras.otpData ((off - R.CAL_OTP_DATA 0) / 8) val } }
  else if off = R.CAL_OTP_PROG then
    let kept := s.fld off F.CAL_OTP_PROG_FIELD
    if s.locked off ∧ kept = 0 then s
    else
      let v := if s.locked off then putBits val 0 2 kept else val
      if bitAt v 2 then
        let d := s.draw
        otpProgWrite v (d.1 % 2 == 0) d.2
      else otpProgWrite v true s
  else s.plainWrite off val

/-- A write in block TOP (R804, R809, R818). -/
def topWrite (off val : Nat) (s : State) : State :=
  if off = R.TOP_BOOT then (if bitAt val 6 then bootGo s else s)
  else
    let t := s.plainWrite off val
    if off = R.TOP_VID then t.setFld off F.TOP_VID_BUSY (b2n (t.pins.vid != t.fld off F.TOP_VID_CODE))
    else if (off = R.TOP_ALERT ∨ off = R.TOP_ALERTEN) ∧ t.alertAsserted ∧ !s.alertAsserted then
      { t with pins := { t.pins with smbAlertN := false } }
    else t

/-- R11: what a write of the register at an offset does. -/
def csrStore (who : Who) (off val : Nat) (s : State) : State :=
  let b := off / 0x10000
  if (regAt off).isNone then s
  else if b < 0x10 then topWrite off val s
  else if off = R.TB_CTL then
    let s := s.plainWrite off val
    if bitAt val 1 then s.tbHoldover else s
  else if off = R.DRL_COGCFG then cogCfgWrite val s
  else if 0x30 ≤ b ∧ b < 0x40 then qmWrite who off val s
  else if 0x50 ≤ b ∧ b < 0x56 then mlkWrite off val s
  else if 0x60 ≤ b ∧ b < 0x68 then hbmWrite off val s
  else if 0x70 ≤ b ∧ b < 0x80 then foldWrite off val s
  else if 0x80 ≤ b ∧ b < 0x90 then chnWrite off val s
  else if 0x90 ≤ b ∧ b < 0xA0 then chdWrite off val s
  else if 0xA0 ≤ b ∧ b < 0xE4 then lanWrite off val s
  else if 0xF0 ≤ b ∧ b < 0x100 then crkWrite off val s
  else if 0x110 ≤ b ∧ b < 0x120 then calWrite off val s
  else if off = R.DBG_WICKCTL then wickCtlWrite val s
  else if off = R.DBG_RCPVALID then rcpvalidWrite val s
  else s.plainWrite off val

/-! ### Who reaches what -/

/-- R168, R275, R420, R703, the CHN, QM, SWX and CRK blocks: registers that only some requesters reach. -/
def csrReaches (who : Who) (off : Nat) : Bool :=
  let b := off / 0x10000
  let o := off % 0x10000
  if off = R.CRK_ARB then who == .mgmt || who == .jtag
  else
    let closed := decide (0x30 ≤ b ∧ b < 0x40) || decide (0x80 ≤ b ∧ b < 0x90) || decide (0x100 ≤ b ∧ b < 0x110)
      || decide (0xA0 ≤ b ∧ b < 0xE4 ∧ (0x4000 ≤ o ∨ (0x3800 ≤ o ∧ o < 0x3A00)))
      || decide (0x60 ≤ b ∧ b < 0x68 ∧ 0x40 ≤ o ∧ o < 0x90)
      || decide (0x90 ≤ b ∧ b < 0xA0 ∧ 0x40 ≤ (off - 0x900000) % 0x40000 ∧ (off - 0x900000) % 0x40000 < 0x58)
    !closed || reaches who

/-- The CSR bus serves a requester: JTAG alone while frozen (R794, R795), JTAG and the management port after a trip. -/
def State.busServes (s : State) (who : Who) : Bool :=
  !s.boot.inReset && s.pins.pwrgood
    && (if s.ras.frozen then who == .jtag else !s.boot.tripped || who == .mgmt || who == .jtag)

/-- R596, R794: a register write, journalled when the management port or JTAG changed the register; while frozen no
record is made. -/
def csrWrite (who : Who) (off val : Nat) (s : State) : State :=
  if csrReaches who off then
    let t := csrStore who off val s
    if s.ras.frozen then t else t.journalView who off (s.csrRead off) (t.csrRead off)
  else s

/-- R11, R15: a register read: its value, and the state it leaves; an RC field is cleared, but not by JTAG while frozen. -/
def csrTake (who : Who) (off : Nat) (s : State) : Nat × State :=
  if !csrReaches who off then (0, s)
  else
    let v := s.csrRead off
    let rc := decide (R.DRL_HIST 0 ≤ off ∧ off < R.DRL_HIST 1024) && !(s.ras.frozen && who == .jtag)
    (v, if rc then s.wr off 0 else s)

/-! ### Accesses that name no register -/

/-- R794: a RAS record, unless the device is frozen. -/
def State.rasNote (s : State) (e : RasEvent) : State := if s.ras.frozen then s else s.rasLog e

/-- R44: an access to an unassigned address is logged, with the instance for which it was made. -/
def State.logUnassigned (s : State) (who : Who) (write : Bool) (addr inst gen : Nat) : State :=
  s.rasNote { kind := 2, detail := b2n write, addr := addr, inst := inst, gen := gen, who := who }

/-- R10, R42, R850: an access of `size` bytes at a CSR offset reaches a register's range; otherwise the state after its
record. -/
def csrChecked (who : Who) (off size : Nat) (write : Bool) (s : State) : Except State Unit :=
  if size ≠ 8 ∨ off % 8 ≠ 0 then .error (s.rasNote { kind := 1, detail := size, addr := off, who := who })
  else if occupied off then .ok ()
  else .error (s.logUnassigned who write off 0xFFFF 0)

/-- R10, R11: a write on the CSR bus. -/
def csrBusWrite (who : Who) (off size val : Nat) (s : State) : State :=
  match csrChecked who off size true s with
  | .ok _ => csrWrite who off (val % 2 ^ 64) s
  | .error t => t

/-- R10, R11: a read on the CSR bus. -/
def csrBusRead (who : Who) (off size : Nat) (s : State) : Nat × State :=
  match csrChecked who off size false s with
  | .ok _ => csrTake who off s
  | .error t => (0, t)

/-- CSR_WRITE (R10 to R13, R16, R17, R309, R314, R495, R525, R573, R596, R659, R688, R702, R787, R800, R804, R837, R850). -/
def execCsrWrite (who : Who) (off size val : Nat) (s : State) : Host.Outcome State Fault Refusal :=
  .next (whenDue (s.busServes who) s (csrBusWrite who off size val s))

/-- CSR_READ_CLEAR (R11, R14, R15). -/
def execCsrReadClear (who : Who) (off : Nat) (s : State) : Host.Outcome State Fault Refusal :=
  .next (whenDue (s.busServes who) s (csrBusRead who off 8 s).2)

/-- R43 to R45: `unit` is the requester's wick position, the position whose task the Reservoir serves, or the Chain
channel. -/
def unassignedAccess (who : Who) (unit : Nat) (write : Bool) (addr : Nat) (s : State) : State :=
  let c := Tab.at s.ctxs (s.wick unit).ctx
  match who with
  | .wick => ((s.logUnassigned who write addr c.inst c.gen).trapAt unit (s.codeWord (unit / 17) (s.wick unit).pc) 1 addr false)
  | .reservoir => 
    let base := (Tab.at s.regions ((s.wick unit).job.getD {}).region).base
    (s.logUnassigned who write addr c.inst c.gen).corruptTask unit 0 (addr - base)
  | .chain => (s.logUnassigned who write addr (s.chnInst unit) (s.chnGen unit)).chnError unit addr (if write then 2 else 1) 0
      false (Tab.at s.chains unit).pos
  | _ => s.logUnassigned who write addr 0xFFFF 0

/-- The requester of an access to an unassigned address is there. -/
def State.accessDue (s : State) (who : Who) (unit : Nat) : Bool :=
  match who with
  | .wick => s.live && (s.wick unit).st == 1
  | .reservoir => s.live && (s.wick unit).st == 1 && (match (s.wick unit).job with | some j => j.slot.isSome | none => false)
  | .chain => s.live && decide (unit < 64) && (s.chnState unit == 1 || s.chnState unit == 2)
  | _ => s.busServes who

/-- UNASSIGNED_ACCESS (R42 to R45). -/
def execUnassignedAccess (who : Who) (unit : Nat) (write : Bool) (addr : Nat) (s : State) :
    Host.Outcome State Fault Refusal :=
  .next (whenDue (s.accessDue who unit && decide (s.place addr = .unassigned)) s (unassignedAccess who unit write addr s))

end Sys2Proof.Machine
end

