-- ==== Sys2Proof/Machine/Access.lean ====
section
/-! DEFINITION. Accesses by device address: HBM, lantern stores, wax, the CSR space, doorbell and mailbox pages (R40 to R45,
R533, R593, R671 to R675, R795; 01_lamp_room.md). -/
namespace Sys2Proof.Machine

/-- R675: `n` bytes of HBM from an address; the retirement pool shows the frames it stands for. -/
def State.hbmBytes (s : State) (a n : Nat) : List Byte :=
  if a + n ≤ 0x4780000000 then s.hbmRead a n
  else (List.range n).flatMap fun i => s.hbmRead (s.hbmHome (a + i)) 1

/-- R675: bytes written to HBM from an address. -/
def State.hbmPoke (s : State) (a : Nat) (bs : List Byte) : State :=
  if a + bs.length ≤ 0x4780000000 then s.poke a bs
  else (bs.zipIdx).foldl (fun s b => s.poke (s.hbmHome (a + b.2)) [b.1]) s

/-- R593: bytes written to a mailbox page: `SEQ` and the free part are stored, `DOORBELL` bits are set, the rest ignored. -/
def State.mailWrite (s : State) (inst off : Nat) (bs : List Byte) : State :=
  let put (s : State) (b : Byte × Nat) : State :=
    let o := (off + b.2) % 2048
    if (o < 8 ∨ 64 ≤ o) ∧ off + b.2 < 4096 then { s with mail := cellPut s.mail (4096 * inst + off + b.2) b.1 } else s
  let bits (down : Bool) : Nat :=
    total (bs.zipIdx.map fun b =>
      let o := (off + b.2) % 2048
      if 8 ≤ o ∧ o < 16 ∧ decide (2048 ≤ off + b.2) = down ∧ off + b.2 < 4096 then b.1.toNat * 256 ^ (o - 8) else 0)
  if (Tab.at s.insts inst).st ≠ 1 then s
  else
    let s := bs.zipIdx.foldl put s
    let s := if bits false = 0 then s else mailboxRing inst false (bits false) s
    if bits true = 0 then s else mailboxRing inst true (bits true) s

/-- What an access by device address meets: its bytes, or why it was not performed: 0 an unassigned address or an access
the CSR space refuses, 1 a poisoned beat. -/
abbrev Answer := Except Nat (List Byte)

/-- Both ends of an access lie in one range. -/
def State.inPlace (s : State) (a n : Nat) : Bool :=
  n == 0 || match s.place a, s.place (a + n - 1) with
  | .cell k, .cell l => l == k + n - 1
  | .csr o, .csr p => p == o + n - 1
  | .doorbell i _, .doorbell j _ => i == j
  | .mailbox i _, .mailbox j _ => i == j
  | _, _ => false

/-- R43, R44: an access to an unassigned address is not performed. -/
def State.refuse (s : State) (who : Who) (write : Bool) (a inst gen : Nat) : Answer × State :=
  (.error 0, s.logUnassigned who write a inst gen)

/-- The 8-byte words of an access to the CSR space, as offset and size: whole words, or the narrow pieces of R10. -/
def csrWords (o n : Nat) : List (Nat × Nat) :=
  if o % 8 = 0 ∧ n % 8 = 0 then (List.range (n / 8)).map fun i => (o + 8 * i, 8) else [(o, n)]

/-- R40 to R44, R795: a read of `n` bytes at a device address. -/
def devRead (who : Who) (a n inst gen : Nat) (s : State) : Answer × State :=
  if !s.inPlace a n then s.refuse who false a inst gen
  else match s.place a with
  | .cell k =>
    if k < 0x4800000000 then
      if s.ras.frozen then (.ok (zeros n), s.raise R.DBG_ERR F.DBG_ERR_HBM_FROZEN)
      else if s.poisoned a n then (.error 1, s)
      else (.ok (s.hbmBytes a n), s)
    else (.ok (s.peek k n), s)
  | .csr o =>
    let ws := csrWords o n
    ws.foldl (fun r w =>
      let x := csrBusRead who w.1 w.2 r.2
      (match r.1 with
       | .ok bs => if w.2 = 8 ∧ w.1 % 8 = 0 then .ok (bs ++ le x.1 8) else .error 0
       | e => e, x.2)) (.ok [], s)
  | .doorbell _ _ => (.ok (zeros n), s)
  | .mailbox i o => (.ok (cellsRead s.mail (4096 * i + o) n), s)
  | .unassigned => s.refuse who false a inst gen

/-- R40 to R44, R533, R593: bytes written at a device address. -/
def devWrite (who : Who) (a : Nat) (bs : List Byte) (inst gen : Nat) (s : State) : Answer × State :=
  if !s.inPlace a bs.length then s.refuse who true a inst gen
  else match s.place a with
  | .cell k => (.ok [], if k < 0x4800000000 then s.hbmPoke a bs else s.poke k bs)
  | .csr o =>
    let ws := csrWords o bs.length
    let s' := ws.foldl (fun s w => csrBusWrite who w.1 w.2 (fieldAt bs (w.1 - o) w.2) s) s
    (if ws.all fun w => w.2 == 8 && w.1 % 8 == 0 then .ok [] else .error 0, s')
  | .doorbell i o =>
    (.ok [], if o % 8 = 0 ∧ 4 ≤ bs.length ∧ o / 8 < 512 then
        s.takeDoorbell { kind := 0, port := 6, inst := i, loc := o / 8, idx := fieldAt bs 0 4 }
      else s)
  | .mailbox i o => (.ok [], s.mailWrite i o bs)
  | .unassigned => s.refuse who true a inst gen

end Sys2Proof.Machine
end

