-- ==== Sys2Proof/Machine/Chain.lean ====
section
/-! DEFINITION. The Chain's commands and bursts (R380, R671 to R673, R678 to R688; 15_memory_chain_sconce.md). -/
namespace Sys2Proof.Machine

/-- R679: the first address of a burst that leaves its space or is unassigned: the address, whether it is a destination. -/
def State.chnBad (s : State) (c : Nat) (ps : List RawPiece) : Option (Int × Bool) :=
  let bad (host : Bool) (a : Int) (n : Nat) : Bool := !inSpace host a n || (!host && !s.inPlace a.toNat n)
  ps.findSome? fun p =>
    if bad (s.chnHost c false) p.src p.len then some (p.src, false)
    else if bad (s.chnHost c true) p.dst p.len then some (p.dst, true)
    else none

/-- R685: a bus error in a burst of channel `c`; an unassigned address is logged (R44). -/
def State.chnFails (s : State) (c : Nat) (a : Int) (dst : Bool) (cause : Nat) : State :=
  let host := s.chnHost c dst
  let a := (a % 2 ^ 64).toNat
  let s := if cause = 0 ∧ !host then s.logUnassigned .chain dst a (s.chnInst c) (s.chnGen c) else s
  s.chnError c a (if dst then 2 else 1) cause host (Tab.at s.chains c).pos

/-- R602: HBM bytes read or written for an instance. -/
def State.chnTally (s : State) (c a n : Nat) (write : Bool) : State :=
  if a < 0x4800000000 then
    s.tallyAdd (s.chnInst c) fun t => if write then { t with hbmWritten := t.hbmWritten + n } else { t with hbmRead := t.hbmRead + n }
  else s

/-- R380, R671 to R673: the source bytes of a burst read from the device, piece by piece; none after a bus error. -/
def State.chnRead (s : State) (c : Nat) (faults : List (Nat × Nat × Nat)) : List RawPiece → List (List Byte) →
    Option (List (List Byte)) × State
  | [], got => (some got, s)
  | p :: r, got =>
    let a := p.src.toNat
    let s := if a < 0x4800000000 then s.beatFaults a p.len faults else s
    match devRead .chain a p.len (s.chnInst c) (s.chnGen c) s with
    | (.ok bs, s) => (s.chnTally c a p.len false).chnRead c faults r (got ++ [bs])
    | (.error e, s) =>
      let s := if e = 1 then s.noteUE a 4 else s
      (none, s.chnFails c p.src false e)

/-- R680: the writes of a burst issue, and the channel stands behind it; a transfer to the device whose last burst this is
completes, one to the host asks for its read-back (R681). -/
def State.chnPut (s : State) (c : Nat) (ps : List RawPiece) (bs : List (List Byte)) : State :=
  let len := total (ps.map (·.len))
  let inst := s.chnInst c
  let gen := s.chnGen c
  let on (s : State) : State := s.setChain' c fun k => { k with start := k.pos, pos := k.pos + len, burst := [], want := [] }
  match ps with
  | [] => s
  | p :: _ =>
    if s.chnHost c true then (on (s.hostWrite (s.chnPort c) p.dst.toNat bs.flatten (.chain c) inst gen false)).chnAsk c
    else
      let s := (ps.zip bs).foldl (fun s x =>
        ((devWrite .chain x.1.dst.toNat x.2 inst gen s).2).chnTally c x.1.dst.toNat x.1.len true) s
      let s := on s
      if s.chnState c = 1 ∧ (Tab.at s.chains c).pos = s.chnTotal c then s.chnDone c else s

/-- R680: an `MRD` for each piece of a burst whose source is host memory. -/
def State.chnAskSource (s : State) (c : Nat) (ps : List RawPiece) : State :=
  let s := ps.zipIdx.foldl (fun s x =>
    match s.sendMrd (s.chnPort c) x.1.src.toNat x.1.len (s.chnInst c) (s.chnGen c)
        { readBack := false, key := x.2, chan := some c } with
    | some r => r.2
    | none => s) s
  s.setChain' c fun k =>
    { k with burst := ps.map fun p => { src := p.src.toNat, dst := p.dst.toNat, len := p.len },
             want := (List.range ps.length).map fun i => (i, []) }

/-- Tags that `MRD`s of a port do not use (R637). -/
def State.freeTags (s : State) (p : Nat) : Nat := 1024 - (s.mrds.filter (·.port == p)).length

/-- R679, R680, R685, R686: the next burst of a RUNNING channel begins, unless it waits for its port. -/
def State.chnBegin (s : State) (c : Nat) (faults : List (Nat × Nat × Nat)) : State :=
  let k := Tab.at s.chains c
  let p := s.chnPort c
  let ps := s.chnBurst c k.pos
  let usesHost := s.chnHost c false || s.chnHost c true
  match ps with
  | [] => s
  | q :: _ =>
    if usesHost && s.fld (R.MLK_CFG p) F.MLK_CFG_MODE != 0 then
      (if s.chnHost c false then s.chnFails c q.src false 3 else s.chnFails c q.dst true 3)
    else match s.chnBad c ps with
    | some (a, dst) => s.chnFails c a dst 0
    | none =>
      if usesHost && !s.hostUp p then s
      else if s.chnHost c false then (if s.freeTags p < ps.length then s else s.chnAskSource c ps)
      else match s.chnRead c faults ps [] with
        | (some bs, s) => s.chnPut c ps bs
        | (none, s) => s

/-- R680 to R687: a channel goes on: its burst ends or the next one begins, the transfer completes, or an abort does. -/
def chnStep (c : Nat) (faults : List (Nat × Nat × Nat)) (s : State) : State :=
  let k := Tab.at s.chains c
  if s.chnState c = 1 then
    if !s.fresh (s.chnInst c) (s.chnGen c) then s.chnStale c
    else if s.chnTotal c = 0 then s.chnDone c
    else if k.pos = s.chnTotal c then s.chnAsk c
    else if !k.want.isEmpty then
      (if k.want.any (·.2.isEmpty) then s else s.chnPut c (s.chnBurst c k.pos) (k.want.map (·.2)))
    else if s.bit R.CHN_CTL F.CHN_CTL_EN then s.chnBegin c faults
    else s
  else if s.chnState c = 2 then
    if s.chnHost c true ∧ k.pos ≠ 0 then s.chnAsk c else s.chnStop c 0 2 k.pos
  else s

/-- CHAIN_COMPLETE (R681 to R684): what channel `c` has in hand completes; `faults` are what the SECDED finds in the beats
it reads. -/
def execChainComplete (c : Nat) (faults : List (Nat × Nat × Nat)) (s : State) : Host.Outcome State Fault Refusal :=
  .next (whenDue (s.live && decide (c < 64)) s (chnStep c faults s))

/-- A write of `CHN_CCTLc` by a requester, journalled when it changes what the register reads. -/
def chnCmd (who : Who) (c val bit : Nat) (s t : State) : State :=
  whenDue (s.live && decide (c < 64) && reaches who && bitAt val bit) s t

/-- CHAIN_GO (R380, R671 to R673, R679, R680, R682, R683, R685, R686, R688): `GO` arms the shadow set; a channel that starts
begins its first burst. -/
def execChainGo (who : Who) (c val : Nat) (faults : List (Nat × Nat × Nat)) (s : State) : Host.Outcome State Fault Refusal :=
  let t := chainCtlWrite c val s
  .next (chnCmd who c val 0 s (if s.chnState c = 0 ∧ t.chnState c = 1 then chnStep c faults t else t))

/-- ABORT (R683, R684, R688). -/
def execChainAbort (who : Who) (c val : Nat) (s : State) : Host.Outcome State Fault Refusal :=
  .next (chnCmd who c val 1 s (chainCtlWrite c val s))

/-- CHAIN_CLEAR (R683, R688). -/
def execChainClear (who : Who) (c val : Nat) (s : State) : Host.Outcome State Fault Refusal :=
  .next (chnCmd who c val 2 s (chainCtlWrite c val s))

end Sys2Proof.Machine
end

