-- ==== Sys2Proof/Machine/Mgmt.lean ====
section
/-! DEFINITION. The management port and JTAG (R15, R28, R33, R792, R795, R825 to R829; 19_power_reset_package.md). -/
namespace Sys2Proof.Machine

/-! ### The management port (R825 to R827) -/

/-- R825: the port serves: the device is neither in reset nor frozen. -/
def State.smbServes (s : State) : Bool := s.busServes .mgmt

/-- What a transaction of the port returned, and whether the port NACKed it. -/
def State.smbAnswer (s : State) (data : List Byte) (nack : Bool := false) : State :=
  { s with boot := { s.boot with readData := data, nack := nack } }

/-- R825: a transaction with its PEC: one that fails is not performed, and is counted. -/
def State.smb (s : State) (pec : Bool) (t : State) : State :=
  whenDue s.smbServes s (if pec then t else s.bump R.TOP_SMB_BADPEC)

/-- Code 0x01: the register at a 4-byte offset is read. -/
def smbCsrRead (off : Nat) (s : State) : State :=
  let r := csrBusRead .mgmt (off % 2 ^ 32) 8 s
  r.2.smbAnswer (le r.1 8)

/-- SMB_CSR_READ (R10, R825, R826, R850). -/
def execSmbCsrRead (off : Nat) (pec : Bool) (s : State) : Host.Outcome State Fault Refusal :=
  .next (s.smb pec (smbCsrRead off s))

/-- SMB_CSR_WRITE (R10, R11, R825, R826): code 0x02. -/
def execSmbCsrWrite (off val : Nat) (pec : Bool) (s : State) : Host.Outcome State Fault Refusal :=
  .next (s.smb pec ((csrBusWrite .mgmt (off % 2 ^ 32) 8 val s).smbAnswer []))

/-- R827: the opcodes code 0x03 takes. -/
def mgmtOpcodes : List Nat := [0x10, 0x11, 0x12, 0x13, 0x14, 0x19, 0x1C, 0x1E]

/-- R826, R827: a one-unit command entry with the rights of the manager host; while a command is running, it is NACKed. -/
def smbCommand (bytes : List Byte) (s : State) : State :=
  if s.boot.mgmtCmd.isSome ∨ bytes.length ≠ 64 then s.smbAnswer [] true
  else
    let e := readEntry bytes
    let c : Cmd := { g := 0, ents := [(0, 1)], opcode := e.opcode, flags := e.flags, tag := e.tag, gen := s.genOf 0,
                     inst := 0, source := 2, seq := s.cmdSeq, prm := slice bytes 8 40, mgmt := true }
    let s : State := { s with cmds := Tab.put s.cmds mgmtKey c, cmdSeq := s.cmdSeq + 1,
                              boot := { s.boot with mgmtCmd := some mgmtKey, mgmtState := 1 } }
    let s := s.smbAnswer []
    if e.units ≠ 1 then s.finishCmd mgmtKey Status.invalidLength
    else if !bitAt e.flags 0 || !bitAt e.flags 1 then s.finishCmd mgmtKey Status.chainBroken
    else if !mgmtOpcodes.contains e.opcode then s.finishCmd mgmtKey Status.invalidOpcode
    else match commandCheck 0 c (headerOffence e 0) with
      | some (st, r) => s.finishCmd mgmtKey st r
      | none => s

/-- SMB_COMMAND (R546, R825 to R827): code 0x03. -/
def execSmbCommand (bytes : List Byte) (pec : Bool) (s : State) : Host.Outcome State Fault Refusal :=
  .next (s.smb pec (smbCommand bytes s))

/-- SMB_STATUS_READ (R825, R826): code 0x04. -/
def execSmbStatusRead (pec : Bool) (s : State) : Host.Outcome State Fault Refusal :=
  .next (s.smb pec (s.smbAnswer (le s.boot.mgmtState 1 ++ s.boot.mgmtArea)))

/-- R792, R826: code 0x05. -/
def smbFreeze (byte : Nat) (s : State) : State :=
  let s := s.smbAnswer []
  if byte = 0xA5 ∧ s.bit R.DBG_CTL F.DBG_CTL_SMB_EN then s.freeze 2 else s

/-- SMB_FREEZE (R33, R792, R793, R825, R826). -/
def execSmbFreeze (byte : Nat) (pec : Bool) (s : State) : Host.Outcome State Fault Refusal :=
  .next (s.smb pec (smbFreeze byte s))

/-- SMB_ALERT_RESPONSE (R825): the alert response address releases SMB_ALERT_N. -/
def execSmbAlertResponse (s : State) : Host.Outcome State Fault Refusal :=
  .next (whenDue s.smbServes s { s with pins := { s.pins with smbAlertN := true } })

/-! ### JTAG (R828, R829) -/

/-- The TAP controller holds an instruction, and the next Capture-DR loads `DONE`, `ERROR` and data. -/
def State.tap (s : State) (ir : Nat) (err : Bool) (data : Nat) : State :=
  { s with boot := { s.boot with jtagIr := ir, jtagDone := true, jtagErr := err, jtagData := data } }

/-- R828: a boundary-scan instruction: the scan register takes `cells`; the order of its cells is not given, so what it
captured is a free value. -/
def boundaryScan (ir : Nat) (cells : List Bool) (s : State) : State :=
  let d := s.draw
  ({ d.2 with pins := { d.2.pins with scan := cells } } : State).tap ir false d.1

/-- EXTEST (R828). -/
def execExtest (cells : List Bool) (s : State) : Host.Outcome State Fault Refusal := .next (boundaryScan 0x00 cells s)

/-- SAMPLE_PRELOAD (R828). -/
def execSamplePreload (cells : List Bool) (s : State) : Host.Outcome State Fault Refusal :=
  .next (boundaryScan 0x01 cells s)

/-- IDCODE (R828). -/
def execIdcode (s : State) : Host.Outcome State Fault Refusal := .next (s.tap 0x02 false 0x1B32A0F3)

/-- R828: the codes that act as `BYPASS`. -/
def bypassCode (ir : Nat) : Bool := decide (ir < 256) && !([0x00, 0x01, 0x02, 0x10, 0x11, 0x20, 0x21].contains ir)

/-- BYPASS (R828): `ir` is the code shifted in. -/
def execBypass (ir : Nat) (s : State) : Host.Outcome State Fault Refusal :=
  .next (whenDue (bypassCode ir) s (s.tap ir false 0))

/-- R829: an access is over: what it answers, and the state it left. -/
def jtagDone (ir : Nat) (write : Bool) (r : Answer × State) : State :=
  match r.1 with
  | .ok bs => r.2.tap ir false (if write then 0 else leNat bs)
  | .error _ => r.2.tap ir true 0

/-- R829: 8 bytes read or written at a device address. -/
def memAcc (write : Bool) (addr data : Nat) (s : State) : State :=
  let a := addr % 2 ^ 40
  jtagDone 0x10 write (if write then devWrite .jtag a (le data 8) 0xFFFF 0 s else devRead .jtag a 8 0xFFFF 0 s)

/-- MEM_ACC (R10, R11, R15, R795, R828, R829, R850). -/
def execMemAcc (write : Bool) (addr data : Nat) (s : State) : Host.Outcome State Fault Refusal :=
  .next (whenDue (s.busServes .jtag) s (memAcc write addr data s))

/-- R828: where bits [35:0] of a test address lead: a key of `mem`, for a code store or the wax of a position. -/
def testKey (addr : Nat) : Option Nat :=
  let pos := bitsOf addr 18 18
  let off := bitsOf addr 0 18
  match bitsOf addr 36 4 with
  | 1 => if pos < 68 ∧ off + 8 ≤ 0x40000 then some (codeKey pos off) else none
  | 2 => if pos < 1156 ∧ off + 8 ≤ 0x20000 then some (waxKey pos off) else none
  | _ => none

/-- R828: the Chandelier row of a test address: Chandelier, bank and row, rows 2,048 to 2,111 being the spare rows. -/
def testRow (addr : Nat) : Option (Nat × Nat × Nat) :=
  let pos := bitsOf addr 18 18
  let off := bitsOf addr 0 18
  if bitsOf addr 36 4 = 3 ∧ pos < 128 ∧ off % 8 = 0 ∧ off / 8 < 2112 then some (pos / 32, pos % 32, off / 8) else none

/-- R28, R829: 8 bytes read or written in the test domain. -/
def testAcc (write : Bool) (addr data : Nat) (s : State) : State :=
  match testKey addr, testRow addr with
  | some k, _ => jtagDone 0x11 write (if write then (.ok [], s.poke k (le data 8)) else (.ok (s.peek k 8), s))
  | none, some (c, b, r) =>
    let h := s.chd c
    let old := if r < 2048 then Tab.at h.rows (2048 * b + r) else Tab.at h.spares (64 * b + (r - 2048))
    let v : CRow := { data := data % 2 ^ 64, wrote := data % 2 ^ 64 }
    jtagDone 0x11 write
      (if write then
        (.ok [], s.setChd c fun h =>
          if r < 2048 then { h with rows := Tab.put h.rows (2048 * b + r) v }
          else { h with spares := Tab.put h.spares (64 * b + (r - 2048)) v })
      else (.ok (le old.data 8), s))
  | none, none => jtagDone 0x11 write (.error 0, s)

/-- TEST_ACC (R28, R795, R828, R829). -/
def execTestAcc (write : Bool) (addr data : Nat) (s : State) : Host.Outcome State Fault Refusal :=
  .next (whenDue (s.busServes .jtag) s (testAcc write addr data s))

end Sys2Proof.Machine
end

