-- ==== Sys2Proof/Machine/WordsControl.lean ====
section
/-! DEFINITION. Taper words: control words and repeat prefixes (R199 to R204, R258 to R260; 05_taper_reference.md). Each row is one opcode; what it computes is
`vecOp`, `farOp`, `ladderOp`, `controlOp` or `halfEff` at that opcode. -/
namespace Sys2Proof.Machine

/-- BR (R258), opcode 0x0E0: Branch. -/
def execBr (w code : Nat) (s : State) : Host.Outcome State Fault Refusal := taperRow 0x0E0 w code s

/-- BANY (R259), opcode 0x0E1: Branch when any lane is TRUE. -/
def execBany (w code : Nat) (s : State) : Host.Outcome State Fault Refusal := taperRow 0x0E1 w code s

/-- BALL (R259), opcode 0x0E2: Branch when every lane is TRUE. -/
def execBall (w code : Nat) (s : State) : Host.Outcome State Fault Refusal := taperRow 0x0E2 w code s

/-- BNONE (R259), opcode 0x0E3: Branch when no lane is TRUE. -/
def execBnone (w code : Nat) (s : State) : Host.Outcome State Fault Refusal := taperRow 0x0E3 w code s

/-- BNALL (R259), opcode 0x0E4: Branch when some lane is FALSE. -/
def execBnall (w code : Nat) (s : State) : Host.Outcome State Fault Refusal := taperRow 0x0E4 w code s

/-- LOOP (R259), opcode 0x0E5: As R259. -/
def execLoop (w code : Nat) (s : State) : Host.Outcome State Fault Refusal := taperRow 0x0E5 w code s

/-- BAZ (R258), opcode 0x0E6: Branch when Ar = 0. -/
def execBaz (w code : Nat) (s : State) : Host.Outcome State Fault Refusal := taperRow 0x0E6 w code s

/-- BANZ (R258), opcode 0x0E7: Branch when Ar ≠ 0. -/
def execBanz (w code : Nat) (s : State) : Host.Outcome State Fault Refusal := taperRow 0x0E7 w code s

/-- CALL (R199), opcode 0x0E8: As R199. -/
def execCall (w code : Nat) (s : State) : Host.Outcome State Fault Refusal := taperRow 0x0E8 w code s

/-- RET (R200), opcode 0x0E9: As R199 and R200; bits [16:0] must be 0. -/
def execRet (w code : Nat) (s : State) : Host.Outcome State Fault Refusal := taperRow 0x0E9 w code s

/-- YIELD (R212), opcode 0x0EA: Interruption point under R212. -/
def execYield (w code : Nat) (s : State) : Host.Outcome State Fault Refusal := taperRow 0x0EA w code s

/-- HALT (R210), opcode 0x0EB: Ends the task successfully under R210. -/
def execHalt (w code : Nat) (s : State) : Host.Outcome State Fault Refusal := taperRow 0x0EB w code s

/-- HALTF (R260), opcode 0x0EC: Ends the task as failed with status SRC2; only 0x0405 (AGG_OVERFLOW) is permitted. -/
def execHaltf (w code : Nat) (s : State) : Host.Outcome State Fault Refusal := taperRow 0x0EC w code s

/-- BREAK (R216), opcode 0x0ED: Raises BREAK, or holds the wick under R216. -/
def execBreak (w code : Nat) (s : State) : Host.Outcome State Fault Refusal := taperRow 0x0ED w code s

/-- REP (R202), opcode 0x0F0: Prefix: R202, with n = SRC2, 1 to 256. -/
def execRep (w code : Nat) (s : State) : Host.Outcome State Fault Refusal := taperRow 0x0F0 w code s

/-- REPI (R203), opcode 0x0F1: Prefix: R203. -/
def execRepi (w code : Nat) (s : State) : Host.Outcome State Fault Refusal := taperRow 0x0F1 w code s

end Sys2Proof.Machine
end

