-- ==== Sys2Proof/Machine/WordsFar.lean ====
section
/-! DEFINITION. Taper words: far memory (R238 to R243; 05_taper_reference.md). Each row is one opcode; what it computes is
`vecOp`, `farOp`, `ladderOp`, `controlOp` or `halfEff` at that opcode. -/
namespace Sys2Proof.Machine

/-- LDX (R240), opcode 0x0A0: DST ← the 32 B at o; far load. Alignment follows R239 with n = 32. -/
def execLdx (w code : Nat) (s : State) : Host.Outcome State Fault Refusal := taperRow 0x0A0 w code s

/-- GATHER (R240), opcode 0x0A1: Lane i ← the element at o; far load. -/
def execGather (w code : Nat) (s : State) : Host.Outcome State Fault Refusal := taperRow 0x0A1 w code s

/-- STX (R239), opcode 0x0A2: The 32 B of the DST operand, read and not written, are stored at o. -/
def execStx (w code : Nat) (s : State) : Host.Outcome State Fault Refusal := taperRow 0x0A2 w code s

/-- SFOLD (R242), opcode 0x0A3: The element at o ← fold(element, SRC1 lane i); SRC2 bits [6:3] give the fold. -/
def execSfold (w code : Nat) (s : State) : Host.Outcome State Fault Refusal := taperRow 0x0A3 w code s

end Sys2Proof.Machine
end

