-- ==== Sys2Proof/Machine/WordsFloat.lean ====
section
/-! DEFINITION. Taper words: floats (R232 to R235; 05_taper_reference.md). Each row is one opcode; what it computes is
`vecOp`, `farOp`, `ladderOp`, `controlOp` or `halfEff` at that opcode. -/
namespace Sys2Proof.Machine

/-- FADD (R232), opcode 0x060: DST ← a + b. -/
def execFadd (w code : Nat) (s : State) : Host.Outcome State Fault Refusal := taperRow 0x060 w code s

/-- FSUB (R232), opcode 0x061: DST ← a − b. -/
def execFsub (w code : Nat) (s : State) : Host.Outcome State Fault Refusal := taperRow 0x061 w code s

/-- FMUL (R232), opcode 0x062: DST ← a × b. -/
def execFmul (w code : Nat) (s : State) : Host.Outcome State Fault Refusal := taperRow 0x062 w code s

/-- FDIV (R232), opcode 0x063: DST ← a ÷ b. -/
def execFdiv (w code : Nat) (s : State) : Host.Outcome State Fault Refusal := taperRow 0x063 w code s

/-- FSQRT (R232), opcode 0x064: DST ← √b. -/
def execFsqrt (w code : Nat) (s : State) : Host.Outcome State Fault Refusal := taperRow 0x064 w code s

/-- FMIN (R234), opcode 0x065: The lesser under R56; equal operands give the representative of R59. -/
def execFmin (w code : Nat) (s : State) : Host.Outcome State Fault Refusal := taperRow 0x065 w code s

/-- FMAX (R234), opcode 0x066: The greater under R56; equal operands give the representative of R59. -/
def execFmax (w code : Nat) (s : State) : Host.Outcome State Fault Refusal := taperRow 0x066 w code s

/-- FNEG (R232), opcode 0x067: Sign bit of b inverted; other bits unchanged. -/
def execFneg (w code : Nat) (s : State) : Host.Outcome State Fault Refusal := taperRow 0x067 w code s

/-- FABS (R232), opcode 0x068: Sign bit of b cleared; other bits unchanged. -/
def execFabs (w code : Nat) (s : State) : Host.Outcome State Fault Refusal := taperRow 0x068 w code s

/-- FCEQ (R234), opcode 0x069: Mask lane TRUE when a = b under R57. -/
def execFceq (w code : Nat) (s : State) : Host.Outcome State Fault Refusal := taperRow 0x069 w code s

/-- FCLT (R234), opcode 0x06A: A precedes b under R56. -/
def execFclt (w code : Nat) (s : State) : Host.Outcome State Fault Refusal := taperRow 0x06A w code s

/-- FCLE (R234), opcode 0x06B: A precedes or equals b. -/
def execFcle (w code : Nat) (s : State) : Host.Outcome State Fault Refusal := taperRow 0x06B w code s

/-- FCANON (R234), opcode 0x06C: DST ← the representative of R59 for b; every other b unchanged. -/
def execFcanon (w code : Nat) (s : State) : Host.Outcome State Fault Refusal := taperRow 0x06C w code s

/-- FCVTF (R232), opcode 0x06D: Signed integer b of width w ← the nearest float of width w. -/
def execFcvtf (w code : Nat) (s : State) : Host.Outcome State Fault Refusal := taperRow 0x06D w code s

/-- FCVTI (R232), opcode 0x06E: DST ← b rounded toward zero to a signed integer of width w. Out of range gives
−2^(w−1) or 2^(w−1) − 1 by sign and sets NV; NaN gives 0 and sets NV. -/
def execFcvti (w code : Nat) (s : State) : Host.Outcome State Fault Refusal := taperRow 0x06E w code s

/-- FWIDEN (R232), opcode 0x06F: Width 64 only: binary32 lane i of bytes 0 to 15 of SRC2 ← exact binary64; a NaN gives
R233's value. -/
def execFwiden (w code : Nat) (s : State) : Host.Outcome State Fault Refusal := taperRow 0x06F w code s

/-- FNARROW (R232), opcode 0x070: Width 64 only: each binary64 lane ← binary32, packed into bytes 0 to 15; bytes 16 to
31 ← 0. -/
def execFnarrow (w code : Nat) (s : State) : Host.Outcome State Fault Refusal := taperRow 0x070 w code s

end Sys2Proof.Machine
end

