-- ==== Sys2Proof/Machine/WordsHash.lean ====
section
/-! DEFINITION. Taper words: hash, CRC and strings (R236, R237; 05_taper_reference.md). Each row is one opcode; what it computes is
`vecOp`, `farOp`, `ladderOp`, `controlOp` or `halfEff` at that opcode. -/
namespace Sys2Proof.Machine

/-- HASH (R236), opcode 0x090: DST ← KH64(a, b). -/
def execHash (w code : Nat) (s : State) : Host.Outcome State Fault Refusal := taperRow 0x090 w code s

/-- HASHF (R236), opcode 0x091: DST ← KH64(d XOR KH64(a, b), b). -/
def execHashf (w code : Nat) (s : State) : Host.Outcome State Fault Refusal := taperRow 0x091 w code s

/-- CRCB (R237), opcode 0x092: As the pseudocode below. -/
def execCrcb (w code : Nat) (s : State) : Host.Outcome State Fault Refusal := taperRow 0x092 w code s

/-- PFXCMP (R229), opcode 0x093: Bytes 0 to 7 ← the count, 0 to 32, of leading bytes of SRC1 equal to those of SRC2.
Bytes 8 to 15 ← 0 when all 32 are equal, 1 when the first differing byte of SRC1 is greater as an unsigned byte, 2^64
− 1 when it is less. Bytes 16 to 31 ← 0. -/
def execPfxcmp (w code : Nat) (s : State) : Host.Outcome State Fault Refusal := taperRow 0x093 w code s

/-- BCLASS (R229), opcode 0x094: Byte i ← 0xFF when bit v of SRC2 is 1, where v is byte i of SRC1; otherwise 0x00. -/
def execBclass (w code : Nat) (s : State) : Host.Outcome State Fault Refusal := taperRow 0x094 w code s

end Sys2Proof.Machine
end

