-- ==== Sys2Proof/Machine/WordsInt.lean ====
section
/-! DEFINITION. Taper words: moves, integers, wide integers and decimals (R227 to R231; 05_taper_reference.md). Each row is one opcode; what it computes is
`vecOp`, `farOp`, `ladderOp`, `controlOp` or `halfEff` at that opcode. -/
namespace Sys2Proof.Machine

/-- WORD_NOP (R227), opcode 0x000: None; WIDTH must be 0b00. -/
def execWordNop (w code : Nat) (s : State) : Host.Outcome State Fault Refusal := taperRow 0x000 w code s

/-- MOV (R229), opcode 0x001: DST ← b. -/
def execMov (w code : Nat) (s : State) : Host.Outcome State Fault Refusal := taperRow 0x001 w code s

/-- ADD (R229), opcode 0x010: DST ← a + b mod 2^w. -/
def execAdd (w code : Nat) (s : State) : Host.Outcome State Fault Refusal := taperRow 0x010 w code s

/-- SUB (R229), opcode 0x011: DST ← a − b mod 2^w. -/
def execSub (w code : Nat) (s : State) : Host.Outcome State Fault Refusal := taperRow 0x011 w code s

/-- MUL (R229), opcode 0x012: DST ← low w bits of a × b. -/
def execMul (w code : Nat) (s : State) : Host.Outcome State Fault Refusal := taperRow 0x012 w code s

/-- MULH (R229), opcode 0x013: DST ← high w bits of the signed 2w-bit product. -/
def execMulh (w code : Nat) (s : State) : Host.Outcome State Fault Refusal := taperRow 0x013 w code s

/-- MULHU (R229), opcode 0x014: As MULH, unsigned. -/
def execMulhu (w code : Nat) (s : State) : Host.Outcome State Fault Refusal := taperRow 0x014 w code s

/-- DIV (R230), opcode 0x015: DST ← a ÷ b signed; −2^(w−1) ÷ −1 gives −2^(w−1). -/
def execDiv (w code : Nat) (s : State) : Host.Outcome State Fault Refusal := taperRow 0x015 w code s

/-- DIVU (R230), opcode 0x016: DST ← a ÷ b unsigned. -/
def execDivu (w code : Nat) (s : State) : Host.Outcome State Fault Refusal := taperRow 0x016 w code s

/-- REM (R230), opcode 0x017: DST ← a − b × (a ÷ b) signed; −2^(w−1) rem −1 gives 0. -/
def execRem (w code : Nat) (s : State) : Host.Outcome State Fault Refusal := taperRow 0x017 w code s

/-- REMU (R230), opcode 0x018: Unsigned remainder. -/
def execRemu (w code : Nat) (s : State) : Host.Outcome State Fault Refusal := taperRow 0x018 w code s

/-- MIN (R229), opcode 0x019: Signed minimum. -/
def execMin (w code : Nat) (s : State) : Host.Outcome State Fault Refusal := taperRow 0x019 w code s

/-- MAX (R229), opcode 0x01A: Signed maximum. -/
def execMax (w code : Nat) (s : State) : Host.Outcome State Fault Refusal := taperRow 0x01A w code s

/-- MINU (R229), opcode 0x01B: Unsigned minimum. -/
def execMinu (w code : Nat) (s : State) : Host.Outcome State Fault Refusal := taperRow 0x01B w code s

/-- MAXU (R229), opcode 0x01C: Unsigned maximum. -/
def execMaxu (w code : Nat) (s : State) : Host.Outcome State Fault Refusal := taperRow 0x01C w code s

/-- NEG (R229), opcode 0x01D: DST ← 0 − b mod 2^w. -/
def execNeg (w code : Nat) (s : State) : Host.Outcome State Fault Refusal := taperRow 0x01D w code s

/-- ABS (R229), opcode 0x01E: DST ← |b| mod 2^w; −2^(w−1) gives itself. -/
def execAbs (w code : Nat) (s : State) : Host.Outcome State Fault Refusal := taperRow 0x01E w code s

/-- AND (R229), opcode 0x020: Bitwise a AND b. -/
def execAnd (w code : Nat) (s : State) : Host.Outcome State Fault Refusal := taperRow 0x020 w code s

/-- OR (R229), opcode 0x021: Bitwise OR. -/
def execOr (w code : Nat) (s : State) : Host.Outcome State Fault Refusal := taperRow 0x021 w code s

/-- XOR (R229), opcode 0x022: Bitwise XOR. -/
def execXor (w code : Nat) (s : State) : Host.Outcome State Fault Refusal := taperRow 0x022 w code s

/-- ANDN (R229), opcode 0x023: A AND NOT b. -/
def execAndn (w code : Nat) (s : State) : Host.Outcome State Fault Refusal := taperRow 0x023 w code s

/-- NOT (R229), opcode 0x024: NOT b. -/
def execNot (w code : Nat) (s : State) : Host.Outcome State Fault Refusal := taperRow 0x024 w code s

/-- SHL (R229), opcode 0x025: A shifted left by (b mod w), zeros in. -/
def execShl (w code : Nat) (s : State) : Host.Outcome State Fault Refusal := taperRow 0x025 w code s

/-- SHR (R229), opcode 0x026: Logical right shift by (b mod w). -/
def execShr (w code : Nat) (s : State) : Host.Outcome State Fault Refusal := taperRow 0x026 w code s

/-- SAR (R229), opcode 0x027: Arithmetic right shift by (b mod w). -/
def execSar (w code : Nat) (s : State) : Host.Outcome State Fault Refusal := taperRow 0x027 w code s

/-- ADDO (R229), opcode 0x028: Mask lane TRUE when a + b overflows signed. -/
def execAddo (w code : Nat) (s : State) : Host.Outcome State Fault Refusal := taperRow 0x028 w code s

/-- SUBO (R229), opcode 0x029: Mask lane TRUE when a − b overflows signed. -/
def execSubo (w code : Nat) (s : State) : Host.Outcome State Fault Refusal := taperRow 0x029 w code s

/-- MULO (R229), opcode 0x02A: Mask lane TRUE when a × b overflows signed. -/
def execMulo (w code : Nat) (s : State) : Host.Outcome State Fault Refusal := taperRow 0x02A w code s

/-- ADDOU (R229), opcode 0x02B: Mask lane TRUE when a + b carries out unsigned. -/
def execAddou (w code : Nat) (s : State) : Host.Outcome State Fault Refusal := taperRow 0x02B w code s

/-- SUBOU (R229), opcode 0x02C: Mask lane TRUE when a − b borrows unsigned. -/
def execSubou (w code : Nat) (s : State) : Host.Outcome State Fault Refusal := taperRow 0x02C w code s

/-- SWIDEN (R229), opcode 0x02D: Lane i ← sign-extended lane i of width w ÷ 2 from bytes 0 to 15 of SRC2. -/
def execSwiden (w code : Nat) (s : State) : Host.Outcome State Fault Refusal := taperRow 0x02D w code s

/-- UWIDEN (R229), opcode 0x02E: As SWIDEN, zero-extended. -/
def execUwiden (w code : Nat) (s : State) : Host.Outcome State Fault Refusal := taperRow 0x02E w code s

/-- NARROW (R229), opcode 0x02F: Low w ÷ 2 bits of each lane of SRC2, packed into bytes 0 to 15; bytes 16 to 31 ← 0.
-/
def execNarrow (w code : Nat) (s : State) : Host.Outcome State Fault Refusal := taperRow 0x02F w code s

/-- ADDQ (R229), opcode 0x040: 128-bit lane k ← a + b mod 2^128. -/
def execAddq (w code : Nat) (s : State) : Host.Outcome State Fault Refusal := taperRow 0x040 w code s

/-- SUBQ (R229), opcode 0x041: 128-bit lane k ← a − b mod 2^128. -/
def execSubq (w code : Nat) (s : State) : Host.Outcome State Fault Refusal := taperRow 0x041 w code s

/-- ADDQO (R229), opcode 0x042: Both halves of lane k TRUE when the signed 128-bit sum overflows. -/
def execAddqo (w code : Nat) (s : State) : Host.Outcome State Fault Refusal := taperRow 0x042 w code s

/-- SUBQO (R229), opcode 0x043: Both halves of lane k TRUE when the signed 128-bit difference overflows. -/
def execSubqo (w code : Nat) (s : State) : Host.Outcome State Fault Refusal := taperRow 0x043 w code s

/-- DSCL (R229), opcode 0x044: DST ← a × 10^b mod 2^64, with b unsigned; b ≥ 19 gives 0. -/
def execDscl (w code : Nat) (s : State) : Host.Outcome State Fault Refusal := taperRow 0x044 w code s

/-- DSCLO (R229), opcode 0x045: Mask lane TRUE when the exact a × 10^b lies outside the signed 64-bit range; for b ≥
19, TRUE unless a = 0. -/
def execDsclo (w code : Nat) (s : State) : Host.Outcome State Fault Refusal := taperRow 0x045 w code s

/-- DDIVR (R231), opcode 0x046: DST ← a ÷ 10^b, with a a signed 64-bit unscaled integer and b unsigned, rounded to
nearest with halves away from zero; b ≥ 19 gives 0; 10^b never being 0, R230 does not apply. -/
def execDdivr (w code : Nat) (s : State) : Host.Outcome State Fault Refusal := taperRow 0x046 w code s

end Sys2Proof.Machine
end

