-- ==== Sys2Proof/Machine/WordsMask.lean ====
section
/-! DEFINITION. Taper words: compares and masks (R229; 05_taper_reference.md). Each row is one opcode; what it computes is
`vecOp`, `farOp`, `ladderOp`, `controlOp` or `halfEff` at that opcode. -/
namespace Sys2Proof.Machine

/-- CMPEQ (R229), opcode 0x050: Mask lane TRUE when a = b. -/
def execCmpeq (w code : Nat) (s : State) : Host.Outcome State Fault Refusal := taperRow 0x050 w code s

/-- CMPNE (R229), opcode 0x051: A ≠ b. -/
def execCmpne (w code : Nat) (s : State) : Host.Outcome State Fault Refusal := taperRow 0x051 w code s

/-- CMPLT (R229), opcode 0x052: A < b, signed. -/
def execCmplt (w code : Nat) (s : State) : Host.Outcome State Fault Refusal := taperRow 0x052 w code s

/-- CMPLE (R229), opcode 0x053: A ≤ b, signed. -/
def execCmple (w code : Nat) (s : State) : Host.Outcome State Fault Refusal := taperRow 0x053 w code s

/-- CMPGT (R229), opcode 0x054: A > b, signed. -/
def execCmpgt (w code : Nat) (s : State) : Host.Outcome State Fault Refusal := taperRow 0x054 w code s

/-- CMPGE (R229), opcode 0x055: A ≥ b, signed. -/
def execCmpge (w code : Nat) (s : State) : Host.Outcome State Fault Refusal := taperRow 0x055 w code s

/-- CMPLTU (R229), opcode 0x056: A < b, unsigned. -/
def execCmpltu (w code : Nat) (s : State) : Host.Outcome State Fault Refusal := taperRow 0x056 w code s

/-- CMPLEU (R229), opcode 0x057: A ≤ b, unsigned. -/
def execCmpleu (w code : Nat) (s : State) : Host.Outcome State Fault Refusal := taperRow 0x057 w code s

/-- CMPGTU (R229), opcode 0x058: A > b, unsigned. -/
def execCmpgtu (w code : Nat) (s : State) : Host.Outcome State Fault Refusal := taperRow 0x058 w code s

/-- CMPGEU (R229), opcode 0x059: A ≥ b, unsigned. -/
def execCmpgeu (w code : Nat) (s : State) : Host.Outcome State Fault Refusal := taperRow 0x059 w code s

/-- BLEND (R229), opcode 0x080: DST ← a when b is non-zero; otherwise d is unchanged. -/
def execBlend (w code : Nat) (s : State) : Host.Outcome State Fault Refusal := taperRow 0x080 w code s

/-- COMPRESS (R229), opcode 0x081: The lanes of SRC1 whose SRC2 lane is non-zero, in ascending order, fill lanes from
0 upward; the rest ← 0. -/
def execCompress (w code : Nat) (s : State) : Host.Outcome State Fault Refusal := taperRow 0x081 w code s

/-- EXPAND (R229), opcode 0x082: Lane i ← the next unused lane of SRC1, taken from lane 0 upward, when SRC2 lane i is
non-zero; otherwise 0. -/
def execExpand (w code : Nat) (s : State) : Host.Outcome State Fault Refusal := taperRow 0x082 w code s

/-- MCOUNT (R229), opcode 0x083: Bytes 0 to 7 ← the count of non-zero lanes of SRC2 at width w; bytes 8 to 31 ← 0. -/
def execMcount (w code : Nat) (s : State) : Host.Outcome State Fault Refusal := taperRow 0x083 w code s

/-- MEXP (R229), opcode 0x084: Lane i ← TRUE when bit (k + i) of SRC1 is 1, where k is SRC2 lane 0 taken unsigned
modulo 256, and bit indices are taken modulo 256. -/
def execMexp (w code : Nat) (s : State) : Host.Outcome State Fault Refusal := taperRow 0x084 w code s

/-- MPACK (R229), opcode 0x085: Bit i of the result ← 1 when lane i of SRC2 is non-zero; all bits from L up ← 0. -/
def execMpack (w code : Nat) (s : State) : Host.Outcome State Fault Refusal := taperRow 0x085 w code s

/-- MTAIL (R229), opcode 0x086: Lane i ← TRUE when i < n, where n is SRC2 lane 0 unsigned. -/
def execMtail (w code : Nat) (s : State) : Host.Outcome State Fault Refusal := taperRow 0x086 w code s

end Sys2Proof.Machine
end

