-- ==== Sys2Proof/Machine/WordsPort.lean ====
section
/-! DEFINITION. Taper words: output ports, Chandelier requests and the sort ladder (R244 to R256; 05_taper_reference.md). Each row is one opcode; what it computes is
`vecOp`, `farOp`, `ladderOp`, `controlOp` or `halfEff` at that opcode. -/
namespace Sys2Proof.Machine

/-- EMIT (R244), opcode 0x0B0: As R244. -/
def execEmit (w code : Nat) (s : State) : Host.Outcome State Fault Refusal := taperRow 0x0B0 w code s

/-- EFLUSH (R246), opcode 0x0B1: As R246, for port DST. -/
def execEflush (w code : Nat) (s : State) : Host.Outcome State Fault Refusal := taperRow 0x0B1 w code s

/-- SEARCH (R250), opcode 0x0B2: As R250; DST must be port 0x040. -/
def execSearch (w code : Nat) (s : State) : Host.Outcome State Fault Refusal := taperRow 0x0B2 w code s

/-- STEP (R250), opcode 0x0B3: As R250; DST must be port 0x040. -/
def execStep (w code : Nat) (s : State) : Host.Outcome State Fault Refusal := taperRow 0x0B3 w code s

/-- SLPUSH (R254), opcode 0x0B4: As R254. -/
def execSlpush (w code : Nat) (s : State) : Host.Outcome State Fault Refusal := taperRow 0x0B4 w code s

/-- SLSEAL (R254), opcode 0x0B5: As R254. -/
def execSlseal (w code : Nat) (s : State) : Host.Outcome State Fault Refusal := taperRow 0x0B5 w code s

/-- SLPOP (R255), opcode 0x0B6: As R255. -/
def execSlpop (w code : Nat) (s : State) : Host.Outcome State Fault Refusal := taperRow 0x0B6 w code s

end Sys2Proof.Machine
end

