-- ==== Sys2Proof/Machine/WordsReg.lean ====
section
/-! DEFINITION. Taper words: address registers and state (R257; 05_taper_reference.md). Each row is one opcode; what it computes is
`vecOp`, `farOp`, `ladderOp`, `controlOp` or `halfEff` at that opcode. -/
namespace Sys2Proof.Machine

/-- LDA (R257), opcode 0x0C0: Ar ← SRC2 lane 0; an immediate is sign-extended to 32 bits. -/
def execLda (w code : Nat) (s : State) : Host.Outcome State Fault Refusal := taperRow 0x0C0 w code s

/-- ADDA (R257), opcode 0x0C1: Ar ← Ar + SRC2 lane 0 mod 2^32. -/
def execAdda (w code : Nat) (s : State) : Host.Outcome State Fault Refusal := taperRow 0x0C1 w code s

/-- STA (R257), opcode 0x0C2: Bytes 0 to 3 of DST ← Ar; bytes 4 to 31 ← 0. -/
def execSta (w code : Nat) (s : State) : Host.Outcome State Fault Refusal := taperRow 0x0C2 w code s

/-- RDFF (R174), opcode 0x0C3: Byte 0 of DST ← FFLAGS; bytes 1 to 31 ← 0. -/
def execRdff (w code : Nat) (s : State) : Host.Outcome State Fault Refusal := taperRow 0x0C3 w code s

/-- CLRFF (R174), opcode 0x0C4: FFLAGS ← FFLAGS AND NOT SRC2[4:0]; SRC2[13:5] must be 0. -/
def execClrff (w code : Nat) (s : State) : Host.Outcome State Fault Refusal := taperRow 0x0C4 w code s

/-- RDREP (R174), opcode 0x0C5: Bytes 0 to 3 of DST ← REPCNT; bytes 4 to 31 ← 0. -/
def execRdrep (w code : Nat) (s : State) : Host.Outcome State Fault Refusal := taperRow 0x0C5 w code s

end Sys2Proof.Machine
end

