-- ==== Sys2Proof/Machine/Dispatch.lean ====
section
/-! DEFINITION. One arm per command: its meaning, or its name where it has none yet. -/
namespace Sys2Proof.Machine

/-- The effect of one command on everything but the queue of waiting commands. -/
def exec (i : Instr) (s : State) : Host.Outcome State Fault Refusal :=
  match i with
  | .csrWrite who off size val => Sys2Proof.Machine.execCsrWrite who off size val s
  | .csrReadClear who off => Sys2Proof.Machine.execCsrReadClear who off s
  | .unassignedAccess who unit write addr => Sys2Proof.Machine.execUnassignedAccess who unit write addr s
  | .tailDoorbell inst loc idx => Sys2Proof.Machine.execTailDoorbell inst loc idx s
  | .dbell port inst gen loc idx => Sys2Proof.Machine.execDbell port inst gen loc idx s
  | .cmdp port inst gen loc idx units => Sys2Proof.Machine.execCmdp port inst gen loc idx units s
  | .entryFetch g bytes => Sys2Proof.Machine.execEntryFetch g bytes s
  | .headPublish g => Sys2Proof.Machine.execHeadPublish g s
  | .ntfy g => Sys2Proof.Machine.execNtfy g s
  | .eventWrite inst => Sys2Proof.Machine.execEventWrite inst s
  | .overflowEvent g => Sys2Proof.Machine.execOverflowEvent g s
  | .mailboxDoorbell inst down val => Sys2Proof.Machine.execMailboxDoorbell inst down val s
  | .identify key => Sys2Proof.Machine.execIdentify key s
  | .queueCreate key g => Sys2Proof.Machine.execQueueCreate key g s
  | .queueDelete key => Sys2Proof.Machine.execQueueDelete key s
  | .queueDrain key => Sys2Proof.Machine.execQueueDrain key s
  | .queueFlush key firsts => Sys2Proof.Machine.execQueueFlush key firsts s
  | .getState key => Sys2Proof.Machine.execGetState key s
  | .setFeature key => Sys2Proof.Machine.execSetFeature key s
  | .getLog key upset => Sys2Proof.Machine.execGetLog key upset s
  | .instanceCreate key => Sys2Proof.Machine.execInstanceCreate key s
  | .instanceResize key => Sys2Proof.Machine.execInstanceResize key s
  | .resizeRelease inst => Sys2Proof.Machine.execResizeRelease inst s
  | .instanceReset key => Sys2Proof.Machine.execInstanceReset key s
  | .instanceDestroy key => Sys2Proof.Machine.execInstanceDestroy key s
  | .generationRetireEnd inst gen => Sys2Proof.Machine.execGenerationRetireEnd inst gen s
  | .staleWriteDrop n => Sys2Proof.Machine.execStaleWriteDrop n s
  | .poolSetup key => Sys2Proof.Machine.execPoolSetup key s
  | .fwStage key bytes => Sys2Proof.Machine.execFwStage key bytes s
  | .fwActivate key flash => Sys2Proof.Machine.execFwActivate key flash s
  | .fwActivateTimeout => Sys2Proof.Machine.execFwActivateTimeout s
  | .keyLoad key blob => Sys2Proof.Machine.execKeyLoad key blob s
  | .repair key left bad => Sys2Proof.Machine.execRepair key left bad s
  | .timeSet key => Sys2Proof.Machine.execTimeSet key s
  | .timeSetTimeout => Sys2Proof.Machine.execTimeSetTimeout s
  | .tableWrite key => Sys2Proof.Machine.execTableWrite key s
  | .xferRdy key xid => Sys2Proof.Machine.execXferRdy key xid s
  | .dataPacket port inst gen loc entry xid off last bytes => Sys2Proof.Machine.execDataPacket port inst gen loc entry xid off last bytes s
  | .xferTimeout key xid => Sys2Proof.Machine.execXferTimeout key xid s
  | .tableRead key => Sys2Proof.Machine.execTableRead key s
  | .tableCopy key => Sys2Proof.Machine.execTableCopy key s
  | .regionAlloc key num base => Sys2Proof.Machine.execRegionAlloc key num base s
  | .regionFree key => Sys2Proof.Machine.execRegionFree key s
  | .pipelineLoad key num kernels chds folds => Sys2Proof.Machine.execPipelineLoad key num kernels chds folds s
  | .pipelineUnload key => Sys2Proof.Machine.execPipelineUnload key s
  | .queryRun key => Sys2Proof.Machine.execQueryRun key s
  | .runStart key areas scans folds => Sys2Proof.Machine.execRunStart key areas scans folds s
  | .queryAbort key => Sys2Proof.Machine.execQueryAbort key s
  | .queryStatus key => Sys2Proof.Machine.execQueryStatus key s
  | .digest key bytes fails => Sys2Proof.Machine.execDigest key bytes fails s
  | .barrier key => Sys2Proof.Machine.execBarrier key s
  | .nop key => Sys2Proof.Machine.execNop key s
  | .qmQresetGo who g => Sys2Proof.Machine.execQmQresetGo who g s
  | .queueEnable who g en => Sys2Proof.Machine.execQueueEnable who g en s
  | .stageStart key stage picks => Sys2Proof.Machine.execStageStart key stage picks s
  | .stageBarrier key stage rows nulls => Sys2Proof.Machine.execStageBarrier key stage rows nulls s
  | .dispatch w ctx upset => Sys2Proof.Machine.execDispatch w ctx upset s
  | .cog => Sys2Proof.Machine.execCog s
  | .loadWindow => Sys2Proof.Machine.execLoadWindow s
  | .preempt w save => Sys2Proof.Machine.execPreempt w save s
  | .resumeTask w ctx => Sys2Proof.Machine.execResumeTask w ctx s
  | .watchdog w stall => Sys2Proof.Machine.execWatchdog w stall s
  | .stalledWordIssue w stall => Sys2Proof.Machine.execStalledWordIssue w stall s
  | .farLoadData w n => Sys2Proof.Machine.execFarLoadData w n s
  | .commitPass ctx => Sys2Proof.Machine.execCommitPass ctx s
  | .publish ctx => Sys2Proof.Machine.execPublish ctx s
  | .slotCommit key stage slot => Sys2Proof.Machine.execSlotCommit key stage slot s
  | .slotRestart key stage slot => Sys2Proof.Machine.execSlotRestart key stage slot s
  | .migration ctx slot => Sys2Proof.Machine.execMigration ctx slot s
  | .resultEntryWrite key => Sys2Proof.Machine.execResultEntryWrite key s
  | .endEntryWrite key => Sys2Proof.Machine.execEndEntryWrite key s
  | .resultStall key => Sys2Proof.Machine.execResultStall key s
  | .runResume key => Sys2Proof.Machine.execRunResume key s
  | .deadlineMissed key => Sys2Proof.Machine.execDeadlineMissed key s
  | .recipeSlotFill w fault => Sys2Proof.Machine.execRecipeSlotFill w fault s
  | .segmentDeliver w faults upset => Sys2Proof.Machine.execSegmentDeliver w faults upset s
  | .idBitmapBuild w => Sys2Proof.Machine.execIdBitmapBuild w s
  | .ledgerReport => Sys2Proof.Machine.execLedgerReport s
  | .ledgerFill k => Sys2Proof.Machine.execLedgerFill k s
  | .rcpinv who n slots => Sys2Proof.Machine.execRcpinv who n slots s
  | .recipeWindowWrite who n slot j val => Sys2Proof.Machine.execRecipeWindowWrite who n slot j val s
  | .wordNop w code => Sys2Proof.Machine.execWordNop w code s
  | .mov w code => Sys2Proof.Machine.execMov w code s
  | .add w code => Sys2Proof.Machine.execAdd w code s
  | .sub w code => Sys2Proof.Machine.execSub w code s
  | .mul w code => Sys2Proof.Machine.execMul w code s
  | .mulh w code => Sys2Proof.Machine.execMulh w code s
  | .mulhu w code => Sys2Proof.Machine.execMulhu w code s
  | .div w code => Sys2Proof.Machine.execDiv w code s
  | .divu w code => Sys2Proof.Machine.execDivu w code s
  | .rem w code => Sys2Proof.Machine.execRem w code s
  | .remu w code => Sys2Proof.Machine.execRemu w code s
  | .min w code => Sys2Proof.Machine.execMin w code s
  | .max w code => Sys2Proof.Machine.execMax w code s
  | .minu w code => Sys2Proof.Machine.execMinu w code s
  | .maxu w code => Sys2Proof.Machine.execMaxu w code s
  | .neg w code => Sys2Proof.Machine.execNeg w code s
  | .abs w code => Sys2Proof.Machine.execAbs w code s
  | .and w code => Sys2Proof.Machine.execAnd w code s
  | .or w code => Sys2Proof.Machine.execOr w code s
  | .xor w code => Sys2Proof.Machine.execXor w code s
  | .andn w code => Sys2Proof.Machine.execAndn w code s
  | .not w code => Sys2Proof.Machine.execNot w code s
  | .shl w code => Sys2Proof.Machine.execShl w code s
  | .shr w code => Sys2Proof.Machine.execShr w code s
  | .sar w code => Sys2Proof.Machine.execSar w code s
  | .addo w code => Sys2Proof.Machine.execAddo w code s
  | .subo w code => Sys2Proof.Machine.execSubo w code s
  | .mulo w code => Sys2Proof.Machine.execMulo w code s
  | .addou w code => Sys2Proof.Machine.execAddou w code s
  | .subou w code => Sys2Proof.Machine.execSubou w code s
  | .swiden w code => Sys2Proof.Machine.execSwiden w code s
  | .uwiden w code => Sys2Proof.Machine.execUwiden w code s
  | .narrow w code => Sys2Proof.Machine.execNarrow w code s
  | .addq w code => Sys2Proof.Machine.execAddq w code s
  | .subq w code => Sys2Proof.Machine.execSubq w code s
  | .addqo w code => Sys2Proof.Machine.execAddqo w code s
  | .subqo w code => Sys2Proof.Machine.execSubqo w code s
  | .dscl w code => Sys2Proof.Machine.execDscl w code s
  | .dsclo w code => Sys2Proof.Machine.execDsclo w code s
  | .ddivr w code => Sys2Proof.Machine.execDdivr w code s
  | .cmpeq w code => Sys2Proof.Machine.execCmpeq w code s
  | .cmpne w code => Sys2Proof.Machine.execCmpne w code s
  | .cmplt w code => Sys2Proof.Machine.execCmplt w code s
  | .cmple w code => Sys2Proof.Machine.execCmple w code s
  | .cmpgt w code => Sys2Proof.Machine.execCmpgt w code s
  | .cmpge w code => Sys2Proof.Machine.execCmpge w code s
  | .cmpltu w code => Sys2Proof.Machine.execCmpltu w code s
  | .cmpleu w code => Sys2Proof.Machine.execCmpleu w code s
  | .cmpgtu w code => Sys2Proof.Machine.execCmpgtu w code s
  | .cmpgeu w code => Sys2Proof.Machine.execCmpgeu w code s
  | .blend w code => Sys2Proof.Machine.execBlend w code s
  | .compress w code => Sys2Proof.Machine.execCompress w code s
  | .expand w code => Sys2Proof.Machine.execExpand w code s
  | .mcount w code => Sys2Proof.Machine.execMcount w code s
  | .mexp w code => Sys2Proof.Machine.execMexp w code s
  | .mpack w code => Sys2Proof.Machine.execMpack w code s
  | .mtail w code => Sys2Proof.Machine.execMtail w code s
  | .fadd w code => Sys2Proof.Machine.execFadd w code s
  | .fsub w code => Sys2Proof.Machine.execFsub w code s
  | .fmul w code => Sys2Proof.Machine.execFmul w code s
  | .fdiv w code => Sys2Proof.Machine.execFdiv w code s
  | .fsqrt w code => Sys2Proof.Machine.execFsqrt w code s
  | .fmin w code => Sys2Proof.Machine.execFmin w code s
  | .fmax w code => Sys2Proof.Machine.execFmax w code s
  | .fneg w code => Sys2Proof.Machine.execFneg w code s
  | .fabs w code => Sys2Proof.Machine.execFabs w code s
  | .fceq w code => Sys2Proof.Machine.execFceq w code s
  | .fclt w code => Sys2Proof.Machine.execFclt w code s
  | .fcle w code => Sys2Proof.Machine.execFcle w code s
  | .fcanon w code => Sys2Proof.Machine.execFcanon w code s
  | .fcvtf w code => Sys2Proof.Machine.execFcvtf w code s
  | .fcvti w code => Sys2Proof.Machine.execFcvti w code s
  | .fwiden w code => Sys2Proof.Machine.execFwiden w code s
  | .fnarrow w code => Sys2Proof.Machine.execFnarrow w code s
  | .hash w code => Sys2Proof.Machine.execHash w code s
  | .hashf w code => Sys2Proof.Machine.execHashf w code s
  | .crcb w code => Sys2Proof.Machine.execCrcb w code s
  | .pfxcmp w code => Sys2Proof.Machine.execPfxcmp w code s
  | .bclass w code => Sys2Proof.Machine.execBclass w code s
  | .ldx w code => Sys2Proof.Machine.execLdx w code s
  | .gather w code => Sys2Proof.Machine.execGather w code s
  | .stx w code => Sys2Proof.Machine.execStx w code s
  | .sfold w code => Sys2Proof.Machine.execSfold w code s
  | .emit w code => Sys2Proof.Machine.execEmit w code s
  | .eflush w code => Sys2Proof.Machine.execEflush w code s
  | .search w code => Sys2Proof.Machine.execSearch w code s
  | .step w code => Sys2Proof.Machine.execStep w code s
  | .slpush w code => Sys2Proof.Machine.execSlpush w code s
  | .slseal w code => Sys2Proof.Machine.execSlseal w code s
  | .slpop w code => Sys2Proof.Machine.execSlpop w code s
  | .lda w code => Sys2Proof.Machine.execLda w code s
  | .adda w code => Sys2Proof.Machine.execAdda w code s
  | .sta w code => Sys2Proof.Machine.execSta w code s
  | .rdff w code => Sys2Proof.Machine.execRdff w code s
  | .clrff w code => Sys2Proof.Machine.execClrff w code s
  | .rdrep w code => Sys2Proof.Machine.execRdrep w code s
  | .br w code => Sys2Proof.Machine.execBr w code s
  | .bany w code => Sys2Proof.Machine.execBany w code s
  | .ball w code => Sys2Proof.Machine.execBall w code s
  | .bnone w code => Sys2Proof.Machine.execBnone w code s
  | .bnall w code => Sys2Proof.Machine.execBnall w code s
  | .loop w code => Sys2Proof.Machine.execLoop w code s
  | .baz w code => Sys2Proof.Machine.execBaz w code s
  | .banz w code => Sys2Proof.Machine.execBanz w code s
  | .call w code => Sys2Proof.Machine.execCall w code s
  | .ret w code => Sys2Proof.Machine.execRet w code s
  | .yield w code => Sys2Proof.Machine.execYield w code s
  | .halt w code => Sys2Proof.Machine.execHalt w code s
  | .haltf w code => Sys2Proof.Machine.execHaltf w code s
  | .break w code => Sys2Proof.Machine.execBreak w code s
  | .rep w code => Sys2Proof.Machine.execRep w code s
  | .repi w code => Sys2Proof.Machine.execRepi w code s
  | .exchangeSend w p stall => Sys2Proof.Machine.execExchangeSend w p stall s
  | .exchangeFlitReceive nth => Sys2Proof.Machine.execExchangeFlitReceive nth s
  | .recordsPacket port src dst hops inst gen slot task exch epoch bytes => Sys2Proof.Machine.execRecordsPacket port src dst hops inst gen slot task exch epoch bytes s
  | .markPacket port src dst hops task epoch flits => Sys2Proof.Machine.execMarkPacket port src dst hops task epoch flits s
  | .markAck port src dst hops task epoch => Sys2Proof.Machine.execMarkAck port src dst hops task epoch s
  | .unreachable port src dst hops lost => Sys2Proof.Machine.execUnreachable port src dst hops lost s
  | .chdSearchServe w ups => Sys2Proof.Machine.execChdSearchServe w ups s
  | .chdStepServe w ups => Sys2Proof.Machine.execChdStepServe w ups s
  | .chdGo who c val => Sys2Proof.Machine.execChdGo who c val s
  | .chdClear who c val => Sys2Proof.Machine.execChdClear who c val s
  | .chdInsert c => Sys2Proof.Machine.execChdInsert c s
  | .chdDelete c => Sys2Proof.Machine.execChdDelete c s
  | .scrubRow c ups => Sys2Proof.Machine.execScrubRow c ups s
  | .bankWrite who c b val => Sys2Proof.Machine.execBankWrite who c b val s
  | .foldRequestApply nth upset => Sys2Proof.Machine.execFoldRequestApply nth upset s
  | .foldLineDrain ch => Sys2Proof.Machine.execFoldLineDrain ch s
  | .foldFinish key p => Sys2Proof.Machine.execFoldFinish key p s
  | .foldSpareSwap st u => Sys2Proof.Machine.execFoldSpareSwap st u s
  | .foldTblCfgWrite who t k val => Sys2Proof.Machine.execFoldTblCfgWrite who t k val s
  | .ladderSort n upset => Sys2Proof.Machine.execLadderSort n upset s
  | .runClose w a => Sys2Proof.Machine.execRunClose w a s
  | .sortMerge w a => Sys2Proof.Machine.execSortMerge w a s
  | .fmtctlSet who n bits => Sys2Proof.Machine.execFmtctlSet who n bits s
  | .fmtctlClear who n bits => Sys2Proof.Machine.execFmtctlClear who n bits s
  | .formatWindowWrite who n j val => Sys2Proof.Machine.execFormatWindowWrite who n j val s
  | .refWindow edges => Sys2Proof.Machine.execRefWindow edges s
  | .refLossTimeout => Sys2Proof.Machine.execRefLossTimeout s
  | .ppsPulse samples stamp => Sys2Proof.Machine.execPpsPulse samples stamp s
  | .ppsTimeout => Sys2Proof.Machine.execPpsTimeout s
  | .slewStep => Sys2Proof.Machine.execSlewStep s
  | .oscMeasure ppb => Sys2Proof.Machine.execOscMeasure ppb s
  | .cogcfgWrite who val => Sys2Proof.Machine.execCogcfgWrite who val s
  | .minuteBoundary => Sys2Proof.Machine.execMinuteBoundary s
  | .tallyRecordWrite => Sys2Proof.Machine.execTallyRecordWrite s
  | .flitReceive p bytes uncorr => Sys2Proof.Machine.execFlitReceive p bytes uncorr s
  | .replayTimeout p => Sys2Proof.Machine.execReplayTimeout p s
  | .controlResend p n => Sys2Proof.Machine.execControlResend p n s
  | .swapReq p k g => Sys2Proof.Machine.execSwapReq p k g s
  | .swapAt p tx => Sys2Proof.Machine.execSwapAt p tx s
  | .laneErrorWindow p counts unlocked => Sys2Proof.Machine.execLaneErrorWindow p counts unlocked s
  | .portEnable who p en => Sys2Proof.Machine.execPortEnable who p en s
  | .retrain p => Sys2Proof.Machine.execRetrain p s
  | .trainingFrames p lanes => Sys2Proof.Machine.execTrainingFrames p lanes s
  | .equaliseDone p good settled => Sys2Proof.Machine.execEqualiseDone p good settled s
  | .alignDone p lanes => Sys2Proof.Machine.execAlignDone p lanes s
  | .configAgreement p mode dev good credits resume ack => Sys2Proof.Machine.execConfigAgreement p mode dev good credits resume ack s
  | .trainTimeout p => Sys2Proof.Machine.execTrainTimeout p s
  | .refclkLoss p => Sys2Proof.Machine.execRefclkLoss p s
  | .linkLost p => Sys2Proof.Machine.execLinkLost p s
  | .cpl p tag st bytes => Sys2Proof.Machine.execCpl p tag st bytes s
  | .cplTimeout p tag => Sys2Proof.Machine.execCplTimeout p tag s
  | .publicationReissue p => Sys2Proof.Machine.execPublicationReissue p s
  | .hello p mode dev => Sys2Proof.Machine.execHello p mode dev s
  | .echo p bytes => Sys2Proof.Machine.execEcho p bytes s
  | .echoReply p bytes => Sys2Proof.Machine.execEchoReply p bytes s
  | .refresh st u => Sys2Proof.Machine.execRefresh st u s
  | .tempReadout st temp => Sys2Proof.Machine.execTempReadout st temp s
  | .patrolRead st fault dq => Sys2Proof.Machine.execPatrolRead st fault dq s
  | .hbmRetrain st u q moves => Sys2Proof.Machine.execHbmRetrain st u q moves s
  | .frameRetire ch frame spare faults => Sys2Proof.Machine.execFrameRetire ch frame spare faults s
  | .trnGo who st val fails count => Sys2Proof.Machine.execTrnGo who st val fails count s
  | .chainGo who c val faults => Sys2Proof.Machine.execChainGo who c val faults s
  | .chainAbort who c val => Sys2Proof.Machine.execChainAbort who c val s
  | .chainClear who c val => Sys2Proof.Machine.execChainClear who c val s
  | .chainComplete c faults => Sys2Proof.Machine.execChainComplete c faults s
  | .sconceRequest w n j upset => Sys2Proof.Machine.execSconceRequest w n j upset s
  | .sconceFill n w faults => Sys2Proof.Machine.execSconceFill n w faults s
  | .sconceWriteBack n => Sys2Proof.Machine.execSconceWriteBack n s
  | .scnClean who n val => Sys2Proof.Machine.execScnClean who n val s
  | .scnInvalidate who n val => Sys2Proof.Machine.execScnInvalidate who n val s
  | .scnCleanInvalidate who n val => Sys2Proof.Machine.execScnCleanInvalidate who n val s
  | .scnRange who n val => Sys2Proof.Machine.execScnRange who n val s
  | .scnLock who n w val => Sys2Proof.Machine.execScnLock who n w val s
  | .strokeEnd => Sys2Proof.Machine.execStrokeEnd s
  | .strokeCopy => Sys2Proof.Machine.execStrokeCopy s
  | .releaseStroke => Sys2Proof.Machine.execReleaseStroke s
  | .heartbeatWindow seat copy wire => Sys2Proof.Machine.execHeartbeatWindow seat copy wire s
  | .grantChange a b => Sys2Proof.Machine.execGrantChange a b s
  | .takeover => Sys2Proof.Machine.execTakeover s
  | .releaseGap => Sys2Proof.Machine.execReleaseGap s
  | .claimInstruction seat => Sys2Proof.Machine.execClaimInstruction seat s
  | .rejoin seat => Sys2Proof.Machine.execRejoin seat s
  | .seatBootTimeout => Sys2Proof.Machine.execSeatBootTimeout s
  | .swxBlock upset => Sys2Proof.Machine.execSwxBlock upset s
  | .swxExport => Sys2Proof.Machine.execSwxExport s
  | .swxImport n blob => Sys2Proof.Machine.execSwxImport n blob s
  | .swxWaitTimeout inst ctx => Sys2Proof.Machine.execSwxWaitTimeout inst ctx s
  | .sootMeasure ms => Sys2Proof.Machine.execSootMeasure ms s
  | .autoRepair cls unit detail ces ue left bad => Sys2Proof.Machine.execAutoRepair cls unit detail ces ue left bad s
  | .calSave ok => Sys2Proof.Machine.execCalSave ok s
  | .otpProgGo who val ok => Sys2Proof.Machine.execOtpProgGo who val ok s
  | .snuffPin low => Sys2Proof.Machine.execSnuffPin low s
  | .releaseWick who => Sys2Proof.Machine.execReleaseWick who s
  | .kill who => Sys2Proof.Machine.execKill who s
  | .rcpvalidGo who val => Sys2Proof.Machine.execRcpvalidGo who val s
  | .crkRejoinWrite who val => Sys2Proof.Machine.execCrkRejoinWrite who val s
  | .pwrgoodLow => Sys2Proof.Machine.execPwrgoodLow s
  | .pwrgoodHigh straps => Sys2Proof.Machine.execPwrgoodHigh straps s
  | .resetNLow => Sys2Proof.Machine.execResetNLow s
  | .resetNHigh => Sys2Proof.Machine.execResetNHigh s
  | .thermTrip => Sys2Proof.Machine.execThermTrip s
  | .vidMove => Sys2Proof.Machine.execVidMove s
  | .fusesStage => Sys2Proof.Machine.execFusesStage s
  | .sramTestStage banks => Sys2Proof.Machine.execSramTestStage banks s
  | .fetchStage => Sys2Proof.Machine.execFetchStage s
  | .fetchTimeout => Sys2Proof.Machine.execFetchTimeout s
  | .verifyStage seat => Sys2Proof.Machine.execVerifyStage seat s
  | .lamplighterStage fails => Sys2Proof.Machine.execLamplighterStage fails s
  | .hbmStage rates widths remaps codes => Sys2Proof.Machine.execHbmStage rates widths remaps codes s
  | .servicesStage bases => Sys2Proof.Machine.execServicesStage bases s
  | .linksStage => Sys2Proof.Machine.execLinksStage s
  | .bootGo who => Sys2Proof.Machine.execBootGo who s
  | .smbCsrRead off pec => Sys2Proof.Machine.execSmbCsrRead off pec s
  | .smbCsrWrite off val pec => Sys2Proof.Machine.execSmbCsrWrite off val pec s
  | .smbCommand bytes pec => Sys2Proof.Machine.execSmbCommand bytes pec s
  | .smbStatusRead pec => Sys2Proof.Machine.execSmbStatusRead pec s
  | .smbFreeze byte pec => Sys2Proof.Machine.execSmbFreeze byte pec s
  | .extest cells => Sys2Proof.Machine.execExtest cells s
  | .samplePreload cells => Sys2Proof.Machine.execSamplePreload cells s
  | .idcode => Sys2Proof.Machine.execIdcode s
  | .memAcc write addr data => Sys2Proof.Machine.execMemAcc write addr data s
  | .testAcc write addr data => Sys2Proof.Machine.execTestAcc write addr data s
  | .snuff => Sys2Proof.Machine.execSnuff s
  | .resume => Sys2Proof.Machine.execResume s
  | .bypass ir => Sys2Proof.Machine.execBypass ir s
  | .scrubVisitEnd c => Sys2Proof.Machine.execScrubVisitEnd c s
  | .dieSensorConversion n raw => Sys2Proof.Machine.execDieSensorConversion n raw s
  | .voltageMonitorReading v raw => Sys2Proof.Machine.execVoltageMonitorReading v raw s
  | .smbAlertResponse => Sys2Proof.Machine.execSmbAlertResponse s
  | .ackReport p => Sys2Proof.Machine.execAckReport p s
  | .memHeldSample => Sys2Proof.Machine.execMemHeldSample s

end Sys2Proof.Machine
end

