-- ==== Sys2Proof/Safety.lean ====
section
/-! DEFINITION. The terms claims are stated in: what the rules say a command does, in words of their own. -/
namespace Sys2Proof.Safety

open Sys2Proof.Machine

/-! ### Memories -/

/-- Every memory of the block is in canonical form. -/
def MemOk (s : State) : Prop :=
  Memory.wf s.mem = true ∧ Memory.wf s.hostMem = true ∧ Memory.wf s.flash = true ∧ Memory.wf s.mail = true

/-- R41: memory `m'` holds what `m` holds at every address outside the `n` bytes from `a` on. -/
def SameOutside (m m' : List Host.Cell) (a n : Nat) : Prop :=
  ∀ k, k < a ∨ a + n ≤ k → cellGet m' k = cellGet m k

/-! ### Words of the Taper -/

/-- R181 to R187: what the operands of the word at the `PC` of a wick resolve against. -/
def env (s : State) (pos : Nat) : Env :=
  { a := (s.wick pos).a, slots := (s.wick pos).waxSlots, bound := (s.wick pos).ports.map (·.num),
    packed := ((s.wick pos).ports.filter fun p => !p.pack.isEmpty).map (·.num) }

/-- R201: the word that follows the one at the `PC` lies in the kernel's code, or the word is repeated. -/
def Follows (k : Wick) : Prop :=
  (k.repKind ≠ 0 ∧ 1 < k.repLeft ∧ k.codeBase ≤ k.pc ∧ k.pc < k.codeBase + k.codeLen) ∨
    ((k.repKind = 0 ∨ k.repLeft ≤ 1) ∧ k.codeBase ≤ k.pc + 8 ∧ k.pc + 8 < k.codeBase + k.codeLen)

/-- The word at the `PC` of a running wick is to issue: it has the halves `hs`, the watchdog's budget is not reached
(R211), every port slot it takes is filled (R177), no far load past its shadow waits at one of its operands (R194), and
no far data has arrived for the wick. -/
structure Issues (s : State) (pos : Nat) (hs : List Half) : Prop where
  live : s.live = true
  runs : (s.wick pos).st = 1
  goes : (s.wick pos).stalled = false
  budget : (s.wick pos).cycles < (s.wick pos).budget
  word : decodeWord (env s pos) (s.codeWord (pos / 17) (s.wick pos).pc) = .ok hs
  slots : ∀ t ∈ takesOf hs, t.2 < ((s.wick pos).port t.1).filled
  apart : (s.wick pos).interlocked
    (hs.flatMap Half.waxEas ++ (takesOf hs).map fun t => ((s.wick pos).port t.1).slotEa t.2) = false
  quiet : ∀ l ∈ (s.wick pos).loads, l.arrived = false

/-- R188: the address registers of a wick after the post-increments of a half. -/
def bumped (a : List Nat) (h : Half) : List Nat :=
  ([h.d.bump, h.s1.bump, h.s2.bump].filterMap id).foldl (fun a b => b.apply a) a

/-- R202: where the `PC` goes after a word that is no branch. -/
def pcAfter (k : Wick) : Nat := if k.repKind ≠ 0 ∧ 1 < k.repLeft then k.pc else k.pc + 8

/-- R188: the values a long word reads: `SRC1`, `SRC2`, and the wax slot at `ea`. -/
def srcA (s : State) (pos : Nat) (h : Half) : Nat := s.source pos h.w h.s1 0
def srcB (s : State) (pos : Nat) (h : Half) : Nat := s.source pos h.w h.s2 (seenIn h.s2 [h.s1])
def slotAt (s : State) (pos ea : Nat) : Nat := leNat (s.peek (waxKey pos ea) 32)

/-- What a word that writes no memory leaves: the address registers `a`, the float flags `ff`, the link register `lr` and
the `PC` at `pc` in its wick, and the rest of the block as it was, but for the cycles charged to the wick and its
instance. -/
structure Leaves (s t : State) (pos : Nat) (a : List Nat) (ff lr pc : Nat) : Prop where
  regs : (t.wick pos).a = a
  flags : (t.wick pos).fflags = ff
  link : (t.wick pos).lr = lr
  next : (t.wick pos).pc = pc
  others : ∀ q, q ≠ pos → t.wick q = s.wick q
  frame : t = { s with wicks := t.wicks, insts := t.insts }

/-- What a word whose destination is the wax slot at `ea` leaves: the 32 bytes of `v` there, every other byte of memory as
it was, the address registers after their post-increments, the float flags with `ff` raised, the `PC` at the next word,
and the rest of the block as it was, but for the cycles charged to the wick and its instance. -/
structure Writes (s t : State) (pos : Nat) (h : Half) (ea v ff : Nat) : Prop where
  value : t.peek (waxKey pos ea) 32 = le v 32
  memory : SameOutside s.mem t.mem (waxKey pos ea) 32
  regs : (t.wick pos).a = bumped (s.wick pos).a h
  flags : (t.wick pos).fflags = ((s.wick pos).fflags &&& 31) ||| ff
  link : (t.wick pos).lr = (s.wick pos).lr
  next : (t.wick pos).pc = pcAfter (s.wick pos)
  others : ∀ q, q ≠ pos → t.wick q = s.wick q
  frame : t = { s with mem := t.mem, poison := t.poison, wicks := t.wicks, insts := t.insts }

/-- R217, R454: the run of the task on a wick has failed with a status: its context has ended with it, the wick is free,
no byte of memory has changed, and no other wick or context. -/
structure Fails (s t : State) (pos status : Nat) : Prop where
  context : ∀ c, Tab.get s.ctxs (s.wick pos).ctx = some c → ∃ d, Tab.get t.ctxs (s.wick pos).ctx = some d ∧
    d.st = .ended ∧ d.failed = status ∧ d.cycles = (s.wick pos).cycles
  free : (t.wick pos).st = 0
  wicks : ∀ q, q ≠ pos → t.wick q = s.wick q
  contexts : ∀ i, i ≠ (s.wick pos).ctx → Tab.get t.ctxs i = Tab.get s.ctxs i
  frame : t = { s with csr := t.csr, wicks := t.wicks, ctxs := t.ctxs }

/-! ### Lanes (R183, R229) -/

/-- R183: lane `i` of width `w` of a vector. -/
def lane (w n i : Nat) : BitVec w := BitVec.ofNat w (n >>> (i * w))

/-- R229: a mask lane. -/
def mask (w : Nat) (c : Bool) : BitVec w := if c then BitVec.allOnes w else 0#w

/-- A signed result lies outside width `w`. -/
def overflows (w : Nat) (i : Int) : Bool := decide (i < -(2 ^ (w - 1) : Nat) ∨ ((2 ^ (w - 1) : Nat) : Int) ≤ i)

/-- R236: KH64 in 64-bit arithmetic. -/
def mix (x seed : BitVec 64) : BitVec 64 :=
  let h := x ^^^ seed
  let h := (h ^^^ (h >>> 32)) * 0x9E3779B97F4A7C15#64
  let h := (h ^^^ (h >>> 29)) * 0xD6E8FEB86659FD93#64
  h ^^^ (h >>> 32)

/-- A row whose result lane is a function of the lanes of `SRC1`, `SRC2` and the old `DST`. -/
structure LaneRow where
  ctor : Nat → Nat → Instr
  op : Nat
  f : (w : Nat) → BitVec w → BitVec w → BitVec w → BitVec w

/-- R229: moves and integer operations. -/
def intRows : List LaneRow := [
  ⟨.mov, 0x001, fun _ _ y _ => y⟩,
  ⟨.add, 0x010, fun _ x y _ => x + y⟩,
  ⟨.sub, 0x011, fun _ x y _ => x - y⟩,
  ⟨.mul, 0x012, fun _ x y _ => x * y⟩,
  ⟨.mulh, 0x013, fun w x y _ => BitVec.ofInt w (x.toInt * y.toInt / 2 ^ w)⟩,
  ⟨.mulhu, 0x014, fun w x y _ => BitVec.ofNat w (x.toNat * y.toNat / 2 ^ w)⟩,
  ⟨.min, 0x019, fun _ x y _ => if y.toInt < x.toInt then y else x⟩,
  ⟨.max, 0x01A, fun _ x y _ => if x.toInt < y.toInt then y else x⟩,
  ⟨.minu, 0x01B, fun _ x y _ => if y.toNat < x.toNat then y else x⟩,
  ⟨.maxu, 0x01C, fun _ x y _ => if x.toNat < y.toNat then y else x⟩,
  ⟨.neg, 0x01D, fun w _ y _ => 0#w - y⟩,
  ⟨.abs, 0x01E, fun w _ y _ => if y.toInt < 0 then 0#w - y else y⟩,
  ⟨.and, 0x020, fun _ x y _ => x &&& y⟩,
  ⟨.or, 0x021, fun _ x y _ => x ||| y⟩,
  ⟨.xor, 0x022, fun _ x y _ => x ^^^ y⟩,
  ⟨.andn, 0x023, fun _ x y _ => x &&& ~~~y⟩,
  ⟨.not, 0x024, fun _ _ y _ => ~~~y⟩,
  ⟨.shl, 0x025, fun w x y _ => x <<< (y.toNat % w)⟩,
  ⟨.shr, 0x026, fun w x y _ => x >>> (y.toNat % w)⟩,
  ⟨.sar, 0x027, fun w x y _ => x.sshiftRight (y.toNat % w)⟩]

/-- R229, R230: divisions, whose divisor has no lane 0. -/
def divRows : List LaneRow := [
  ⟨.div, 0x015, fun _ x y _ => x.sdiv y⟩,
  ⟨.divu, 0x016, fun _ x y _ => x / y⟩,
  ⟨.rem, 0x017, fun _ x y _ => x.srem y⟩,
  ⟨.remu, 0x018, fun _ x y _ => x % y⟩]

/-- R229: rows that answer a mask. -/
def maskRows : List LaneRow := [
  ⟨.addo, 0x028, fun w x y _ => mask w (overflows w (x.toInt + y.toInt))⟩,
  ⟨.subo, 0x029, fun w x y _ => mask w (overflows w (x.toInt - y.toInt))⟩,
  ⟨.mulo, 0x02A, fun w x y _ => mask w (overflows w (x.toInt * y.toInt))⟩,
  ⟨.addou, 0x02B, fun w x y _ => mask w (decide (2 ^ w ≤ x.toNat + y.toNat))⟩,
  ⟨.subou, 0x02C, fun w x y _ => mask w (decide (x.toNat < y.toNat))⟩,
  ⟨.cmpeq, 0x050, fun w x y _ => mask w (x == y)⟩,
  ⟨.cmpne, 0x051, fun w x y _ => mask w (x != y)⟩,
  ⟨.cmplt, 0x052, fun w x y _ => mask w (x.slt y)⟩,
  ⟨.cmple, 0x053, fun w x y _ => mask w (x.sle y)⟩,
  ⟨.cmpgt, 0x054, fun w x y _ => mask w (y.slt x)⟩,
  ⟨.cmpge, 0x055, fun w x y _ => mask w (y.sle x)⟩,
  ⟨.cmpltu, 0x056, fun w x y _ => mask w (x.ult y)⟩,
  ⟨.cmpleu, 0x057, fun w x y _ => mask w (x.ule y)⟩,
  ⟨.cmpgtu, 0x058, fun w x y _ => mask w (y.ult x)⟩,
  ⟨.cmpgeu, 0x059, fun w x y _ => mask w (y.ule x)⟩]

/-- R229, R231, R236: decimal rows and hashes, on lanes of 64 bits. -/
def wideRows : List (LaneRow × Nat) := [
  (⟨.addq, 0x040, fun _ x y _ => x + y⟩, 128),
  (⟨.subq, 0x041, fun _ x y _ => x - y⟩, 128),
  (⟨.addqo, 0x042, fun w x y _ => mask w (overflows w (x.toInt + y.toInt))⟩, 128),
  (⟨.subqo, 0x043, fun w x y _ => mask w (overflows w (x.toInt - y.toInt))⟩, 128),
  (⟨.dscl, 0x044, fun w x y _ => if 19 ≤ y.toNat then 0#w else x * BitVec.ofNat w (10 ^ y.toNat)⟩, 64),
  (⟨.dsclo, 0x045, fun w x y _ =>
    mask w (if 19 ≤ y.toNat then x != 0#w else overflows w (x.toInt * (10 ^ y.toNat : Nat)))⟩, 64),
  (⟨.ddivr, 0x046, fun w x y _ =>
    if 19 ≤ y.toNat then 0#w
    else BitVec.ofInt w (x.toInt.sign * ((2 * x.toInt.natAbs + 10 ^ y.toNat) / (2 * 10 ^ y.toNat) : Nat))⟩, 64),
  (⟨.hash, 0x090, fun w x y _ => (mix (x.setWidth 64) (y.setWidth 64)).setWidth w⟩, 64),
  (⟨.hashf, 0x091, fun w x y d =>
    (mix (d.setWidth 64 ^^^ mix (x.setWidth 64) (y.setWidth 64)) (y.setWidth 64)).setWidth w⟩, 64)]

/-- A float row: what one lane gives, with its flags. -/
structure FloatRow where
  ctor : Nat → Nat → Instr
  op : Nat
  f : (w a b : Nat) → Nat × Nat

/-- R232 to R235: float operations, each lane by the named operation of its width. -/
def floatRows : List FloatRow := [
  ⟨.fadd, 0x060, fAdd⟩, ⟨.fsub, 0x061, fSub⟩, ⟨.fmul, 0x062, fMul⟩, ⟨.fdiv, 0x063, fDiv⟩,
  ⟨.fsqrt, 0x064, fun w _ b => fSqrt w b⟩,
  ⟨.fmin, 0x065, fun w a b => (fMin w a b, 0)⟩,
  ⟨.fmax, 0x066, fun w a b => (fMax w a b, 0)⟩,
  ⟨.fneg, 0x067, fun w _ b => ((BitVec.ofNat w b ^^^ BitVec.twoPow w (w - 1)).toNat, 0)⟩,
  ⟨.fabs, 0x068, fun w _ b => ((BitVec.ofNat w b &&& ~~~BitVec.twoPow w (w - 1)).toNat, 0)⟩,
  ⟨.fceq, 0x069, fun w a b => ((mask w (fKey w a == fKey w b)).toNat, 0)⟩,
  ⟨.fclt, 0x06A, fun w a b => ((mask w (decide (fKey w a < fKey w b))).toNat, 0)⟩,
  ⟨.fcle, 0x06B, fun w a b => ((mask w (decide (fKey w a ≤ fKey w b))).toNat, 0)⟩,
  ⟨.fcanon, 0x06C, fun w _ b => (fCanon w b, 0)⟩,
  ⟨.fcvtf, 0x06D, fun w _ b => fOfInt w b⟩,
  ⟨.fcvti, 0x06E, fun w _ b => fToInt w b⟩]

/-- How many lanes of a mask below lane `i` are non-zero. -/
def namedBelow (w b i : Nat) : Nat := ((List.range i).filter fun j => lane w b j != 0#w).length

/-! ### Control words (R199 to R203, R258, R259) -/

/-- R258: the target of a branch word. -/
def target (k : Wick) (h : Half) : Int := (k.pc : Int) + 8 * h.s2.immediate

/-- R201: an address of the kernel's code. -/
def InCode (k : Wick) (t : Nat) : Prop := k.codeBase ≤ t ∧ t < k.codeBase + k.codeLen ∧ t % 8 = 0

/-- The address register a word names. -/
def regOf (h : Half) : Nat := match h.d.loc with | .reg r => r | _ => 0

/-- A branch: when it is taken, by the lanes of `SRC1` of width `w` and the value `v` of its register. -/
structure BranchRow where
  ctor : Nat → Nat → Instr
  op : Nat
  taken : (w a v : Nat) → Bool

/-- R258, R259: the branches. -/
def branchRows : List BranchRow := [
  ⟨.br, 0x0E0, fun _ _ _ => true⟩,
  ⟨.bany, 0x0E1, fun w a _ => (List.range (256 / w)).any fun i => lane w a i != 0#w⟩,
  ⟨.ball, 0x0E2, fun w a _ => (List.range (256 / w)).all fun i => lane w a i != 0#w⟩,
  ⟨.bnone, 0x0E3, fun w a _ => (List.range (256 / w)).all fun i => lane w a i == 0#w⟩,
  ⟨.bnall, 0x0E4, fun w a _ => (List.range (256 / w)).any fun i => lane w a i == 0#w⟩,
  ⟨.loop, 0x0E5, fun _ _ v => BitVec.ofNat 32 v - 1#32 != 0#32⟩,
  ⟨.baz, 0x0E6, fun _ _ v => v == 0⟩,
  ⟨.banz, 0x0E7, fun _ _ v => v != 0⟩]

/-- R259: the address registers after a branch: `LOOP` writes its register back, less 1. -/
def afterBranch (r : BranchRow) (k : Wick) (h : Half) : List Nat :=
  if r.op = 0x0E5 then (bumped k.a h).set (regOf h) (BitVec.ofNat 32 (areg k.a (regOf h)) - 1#32).toNat
  else bumped k.a h

/-! ### Far accesses and ports -/

/-- R238: the window a far word names. -/
def window (k : Wick) (h : Half) : Nat × Nat × Nat := k.wins.getD (ofSgn 14 h.s2.immediate % 8) (0, 0, 0)

/-- R239: `n` bytes at offset `o` lie inside a window that permits a read (or a write). -/
def Inside (win : Nat × Nat × Nat) (write : Bool) (n o : Nat) : Prop :=
  (win.1 = 1 ∨ (write = false ∧ win.1 = 2)) ∧ o % n = 0 ∧ o + n ≤ win.2.2

/-- R192, R193: pending loads once an issue slot has passed for those before it, and the new one. -/
def shadowed (ls : List FarLoad) : List FarLoad := ls.map fun l => { l with shadow := l.shadow - 1 }

/-- The rest of a word's effect on the block: the wick's cycles, its instance's share, no other wick. -/
structure Quiet (s t : State) (pos : Nat) : Prop where
  next : (t.wick pos).pc = pcAfter (s.wick pos)
  others : ∀ q, q ≠ pos → t.wick q = s.wick q
  frame : t = { s with mem := t.mem, poison := t.poison, wicks := t.wicks, insts := t.insts, csr := t.csr,
                       sealCount := t.sealCount }

/-! ### Commands of the rings and of the management port -/

/-- R549 to R553: the accepted command `c` under a key is the next to act: the block serves commands, the command is
whole and unfinished, and it has started or nothing holds it back. -/
structure Due (s : State) (key op : Nat) (c : Cmd) : Prop where
  held : Tab.get s.cmds key = some c
  serving : s.serving = true
  opcode : c.opcode = op
  unfinished : c.finished = false
  whole : c.isOpen = false
  turn : c.started = true ∨ s.mayStart c = true

/-- R542, R548, R826: a command has finished: a ring command's status area is fixed and its write is with the head
publisher; a command of the management port has left its status area there. No other command has changed. -/
structure Done (s t : State) (key : Nat) (c : Cmd) (status residue result : Nat) : Prop where
  ring : c.mgmt = false → (∃ d, Tab.get t.cmds key = some d ∧ d.finished = true ∧ d.status = status ∧
    d.residue = residue % 2 ^ 32 ∧ d.result = result % 2 ^ 32 ∧ d.endT = time24 s.now) ∧
    ∃ o ∈ t.outbox, o.stage = 0 ∧ o.act = .status key
  mgmt : c.mgmt = true → Tab.get t.cmds key = none ∧ t.boot.mgmtCmd = none ∧ t.boot.mgmtState = 2 ∧
    t.boot.mgmtArea.take 10 = le status 2 ++ le (residue % 2 ^ 32) 4 ++ le (result % 2 ^ 32) 4
  others : ∀ k, k ≠ key → Tab.get t.cmds k = Tab.get s.cmds k
  boot : t.boot = { s.boot with mgmtCmd := t.boot.mgmtCmd, mgmtState := t.boot.mgmtState, mgmtArea := t.boot.mgmtArea }

/-- R542, R826: a command has ended: with a status and a result in its status area, for a ring command with the head
publisher, for one of the management port there. -/
structure Ends (t : State) (key : Nat) (c : Cmd) (status result : Nat) : Prop where
  ring : c.mgmt = false → ∃ d, Tab.get t.cmds key = some d ∧ d.finished = true ∧ d.status = status ∧
    d.result = result % 2 ^ 32
  mgmt : c.mgmt = true → Tab.get t.cmds key = none ∧ t.boot.mgmtState = 2 ∧ t.boot.mgmtArea.take 2 = le status 2

/-- R542: a command has begun and goes on. -/
def Begun (t : State) (key : Nat) : Prop :=
  ∃ d, Tab.get t.cmds key = some d ∧ d.started = true ∧ d.finished = false

/-- R640, R854: bytes for a host address are held until a read-back confirms them. -/
def HeldWrite (t : State) (what : HeldFor) (addr : Nat) (bytes : List Byte) : Prop :=
  ∃ h ∈ t.held, h.what = what ∧ h.addr = addr ∧ h.bytes = bytes

/-- R559: a region of the command's instance holds `n` bytes from an offset. -/
def Holds (s : State) (c : Cmd) (num off n : Nat) (r : Region) : Prop :=
  Tab.get s.regions num = some r ∧ r.inst = c.inst ∧ off + n ≤ r.size

/-- R672: no beat of a range is poisoned. -/
def Clean (s : State) (a n : Nat) : Prop := ∀ p ∈ s.poison, p + 32 ≤ a ∨ a + n ≤ p

/-- R597, R714: a change is with the journal recorder: bytes 8 to 59 of its record. -/
def Journalled (t : State) (body : List Byte) : Prop := ∃ o ∈ t.outbox, o.stage = 5 ∧ o.act = .journal body

/-- R773: the error log has taken a record. -/
structure Logged (s t : State) (e : RasEvent) : Prop where
  last : t.ras.log.getLast? = some (rasBytes (s.rd R.RAS_LOG_NEXT) s.now e)
  next : t.rd R.RAS_LOG_NEXT = (s.rd R.RAS_LOG_NEXT + 1) % 2 ^ 64
  kept : s.ras.log.length < 4096 → t.ras.log.length = s.ras.log.length + 1

/-! ### Runs -/

/-- R456: a run has failed with a status, and its command has completed with it; none of its tasks is left. -/
structure RunFails (s t : State) (key : Nat) (r : Run) (status : Nat) : Prop where
  record : ∃ q, Tab.get t.runs key = some q ∧ q.failing = true ∧ q.status = status ∧ q.st = 3 ∧ q.areas = [] ∧
    q.deliver = [] ∧ q.rows = r.rows
  tasks : ∀ e ∈ t.ctxs, e.2.run = key → e.2.st = .free
  command : ∀ c, Tab.get s.cmds key = some c → c.mgmt = false → Ends t key c status r.rows

/-- R376, R456: a run that can fail at once: it is in progress, and none of its fold requests is out. -/
structure CanFail (s : State) (key : Nat) (r : Run) : Prop where
  held : Tab.get s.runs key = some r
  going : r.st ≠ 3 ∧ r.failing = false
  folds : ∀ e ∈ s.ctxs, e.2.run = key → e.2.foldOut = 0

/-- R469, R539: an entry for a result ring is with the result publisher. -/
def RingWrite (t : State) (g idx : Nat) (bytes : List Byte) (next run : Nat) : Prop :=
  ∃ o ∈ t.outbox, o.stage = 1 ∧ o.act = .ring g idx bytes next run

/-! ### Registers -/

/-- A register of the blocks TB, DRL, RAS and DBG whose writes have no behaviour of their own. -/
def PlainReg (off : Nat) : Prop :=
  ((0x100000 ≤ off ∧ off < 0x110000) ∨ (0x200000 ≤ off ∧ off < 0x210000) ∨ (0x1200000 ≤ off ∧ off < 0x1210000) ∨
    (0x1300000 ≤ off ∧ off < 0x1310000)) ∧
  off ≠ R.TB_CTL ∧ off ≠ R.DRL_COGCFG ∧ off ≠ R.DBG_WICKCTL ∧ off ≠ R.DBG_RCPVALID

/-- R11: what a field of `w` bits that holds `old` holds after a write of `x` to it, by its access type. -/
def afterWrite (acc : Acc) (locked : Bool) (w old x : Nat) : Nat :=
  match acc with
  | .rw => x
  | .rwl => if locked then old else x
  | .w1c => old &&& ((2 ^ w - 1) ^^^ x)
  | .w1s => old ||| x
  | .ro | .wo | .rc => old

/-- The register has one field at these bits: every other field of it lies beside. -/
def Apart (r : RegDef) (f : RegField) : Prop :=
  f ∈ r.flds ∧ f.lo + f.wid ≤ 64 ∧ ∀ g ∈ r.flds, g = f ∨ g.lo + g.wid ≤ f.lo ∨ f.lo + f.wid ≤ g.lo

/-- A field of a register holds a value, and the bits beside it are as they were. -/
structure FieldSet (s t : State) (off : Nat) (f : Nat × Nat) (v : Nat) : Prop where
  value : t.fld off f = v
  others : ∀ g : Nat × Nat, (g.1 + g.2 ≤ f.1 ∨ f.1 + f.2 ≤ g.1) → g.1 + g.2 ≤ 64 → t.fld off g = s.fld off g

/-- No register but those listed has changed. -/
def RegsBut (s t : State) (offs : List Nat) : Prop := ∀ o, o ∉ offs → t.rd o = s.rd o

/-- A counter has advanced by `n`, modulo 2^64. -/
def Counts64 (s t : State) (off n : Nat) : Prop := t.rd off = (s.rd off + n) % 2 ^ 64

/-- R596: a register write by `who` changes the registers listed and no other; what a management or JTAG write changed is
journalled, and nothing else of the block moves. -/
structure RegWrite (s t : State) (offs : List Nat) : Prop where
  regs : RegsBut s t (offs ++ [R.JNL_NEXT, R.JNL_STAT, R.JNL_WRAPS])
  frame : t = { s with csr := t.csr, journal := t.journal, outbox := t.outbox }

/-! ### Tasks and requests -/

/-- R217, R454: the task in context `i` has failed with a status, and its wick is free. -/
def TaskFails (t : State) (pos i : Nat) (c : Ctx) (status check off : Nat) : Prop :=
  (t.wick pos).st = 0 ∧
    ∃ d, Tab.get t.ctxs i = some d ∧ d.st = .ended ∧ d.failed = status ∧ d.check = check ∧ d.failOff = off ∧
      d.run = c.run ∧ d.epoch = c.epoch

/-- R252: the front request of a wick, of `slots` slots, is answered with the 32 bytes `bs` at port 0x041. -/
structure Answered (s t : State) (pos slots : Nat) (bs : List Byte) : Prop where
  bytes : t.peek (waxKey pos (((s.wick pos).port 0x041).slotEa ((s.wick pos).port 0x041).filled)) 32 = bs
  filled : ((t.wick pos).port 0x041).filled = ((s.wick pos).port 0x041).filled + 1
  freed : ((t.wick pos).port 0x040).filled = ((s.wick pos).port 0x040).filled - slots
  asked : (t.wick pos).reqs = (s.wick pos).reqs - 1
  memory : SameOutside s.mem t.mem
    (waxKey pos (((s.wick pos).port 0x041).slotEa ((s.wick pos).port 0x041).filled)) 32
  others : ∀ p, p ≠ pos → t.wick p = s.wick p

/-- R326: a block that takes a record of a flit. -/
def Takes (b : Block) (f : XFlit) (part len : Nat) : Prop :=
  b.run = f.run ∧ b.desc = f.desc ∧ b.lantern = f.dest ∧ b.part = part ∧ b.epoch = f.epoch ∧ b.task = f.task ∧
    b.dev = f.dev ∧ b.st = 1 ∧ b.round = 0 ∧ b.bytes + len ≤ 4032

/-- R403: the records `rs` are those of `ls`, in ascending order. -/
def SortOf (ls rs : List Nat) : Prop := rs.Perm ls ∧ rs.Pairwise (· ≤ ·)

/-! ### The Snuffer (R792 to R796) -/

/-- R792, R793: the device has frozen with a cause: cause and rack time are latched, the freeze is logged, the stacks that
serve have entered self-refresh, the domains stop, and every memory is as it was. -/
structure Freezes (s t : State) (cause : Nat) : Prop where
  frozen : t.ras.frozen = true
  shown : t.bit R.DBG_STAT F.DBG_STAT_FROZEN = true
  cause_ : t.fld R.DBG_STAT F.DBG_STAT_CAUSE = cause
  time : t.rd R.DBG_FREEZE_TIME = s.now % 2 ^ 64
  domains : t.rd R.DBG_DOMSTOP = 2 ^ 60 - 1
  count : Counts64 s t R.DBG_FREEZES 1
  logged : Logged s t { kind := 0x0A, detail := cause }
  stackList : ∀ st, st < 8 → t.fld (R.HBM_STAT st) F.HBM_STAT_STATE =
    if s.fld (R.HBM_STAT st) F.HBM_STAT_STATE = 2 then 3 else s.fld (R.HBM_STAT st) F.HBM_STAT_STATE
  frame : t = { s with csr := t.csr, ras := t.ras, pins := t.pins, boot := t.boot }

/-- R794, R795: the commands that reach a frozen device: its reset and grant pins, SNUFF_N, and JTAG. -/
def reachesFrozen : Instr → Bool
  | .snuffPin _ | .snuff | .resume | .pwrgoodLow | .pwrgoodHigh _ | .resetNLow | .resetNHigh | .grantChange _ _ => true
  | .extest _ | .samplePreload _ | .idcode | .bypass _ | .memAcc _ _ _ | .testAcc _ _ _ => true
  | .csrWrite who _ _ _ | .csrReadClear who _ => who == .jtag
  | _ => false

end Sys2Proof.Safety
end

