-- ==== Sys2Proof/Certificates/Slice0/Obligations.lean ====
section
/-! DEFINITION. The statements about the block, one for each group of rows and each kind of state, in the terms of
`Safety.lean`. -/

open Sys2Proof Sys2Proof.Machine Sys2Proof.Safety

/-! ### Taper words -/

/-- R229: a word of a move, integer, overflow or compare row with a wax destination issues and writes there, lane by
lane, what the row's entry gives.
R229, R230: a division whose divisor has no lane 0 writes its quotients or remainders, rounded toward zero; one
whose divisor has a lane 0 traps DIVZERO, and its task fails.
R229, R231, R236: a word of a wide, decimal or hash row writes, in lanes of its own width, what its entry gives. -/
def Obligations.LaneWords : Prop :=
  (∀ r ∈ intRows ++ maskRows, ∀ (s : State) (pos : Nat) (h : Half) (ea : Nat),
      Issues s pos [h] → Follows (s.wick pos) → Memory.wf s.mem = true → h.op = r.op → h.d.loc = .wax ea →
      ∃ t v, exec (r.ctor pos 0) s = .next t ∧ Writes s t pos h ea v 0 ∧ v < 2 ^ 256 ∧
        ∀ i, i < 256 / h.w → lane h.w v i
          = r.f h.w (lane h.w (srcA s pos h) i) (lane h.w (srcB s pos h) i) (lane h.w (slotAt s pos ea) i)) ∧
  (∀ r ∈ divRows, ∀ (s : State) (pos : Nat) (h : Half), Issues s pos [h] → h.op = r.op →
      (∀ ea, h.d.loc = .wax ea → Follows (s.wick pos) → Memory.wf s.mem = true →
        (∀ i, i < 256 / h.w → lane h.w (srcB s pos h) i ≠ 0#h.w) →
        ∃ t v, exec (r.ctor pos 0) s = .next t ∧ Writes s t pos h ea v 0 ∧ v < 2 ^ 256 ∧
          ∀ i, i < 256 / h.w → lane h.w v i
            = r.f h.w (lane h.w (srcA s pos h) i) (lane h.w (srcB s pos h) i) (lane h.w (slotAt s pos ea) i)) ∧
      (∀ i, i < 256 / h.w → lane h.w (srcB s pos h) i = 0#h.w →
        ∃ t, exec (r.ctor pos 0) s = .next t ∧ Fails s t pos Status.trapDivzero)) ∧
  (∀ r ∈ wideRows, ∀ (s : State) (pos : Nat) (h : Half) (ea : Nat),
      Issues s pos [h] → Follows (s.wick pos) → Memory.wf s.mem = true → h.op = r.1.op → h.d.loc = .wax ea →
      ∃ t v, exec (r.1.ctor pos 0) s = .next t ∧ Writes s t pos h ea v 0 ∧ v < 2 ^ 256 ∧
        ∀ i, i < 256 / r.2 → lane r.2 v i
          = r.1.f r.2 (lane r.2 (srcA s pos h) i) (lane r.2 (srcB s pos h) i) (lane r.2 (slotAt s pos ea) i))

/-- R232 to R235, R174: a float word writes the result of each lane and raises the flags of every lane; `FWIDEN` takes
the low lanes of half width, and `FNARROW` packs its lanes into bytes 0 to 15. -/
def Obligations.WordFloat : Prop :=
  (∀ r ∈ floatRows, ∀ (s : State) (pos : Nat) (h : Half) (ea : Nat),
    Issues s pos [h] → Follows (s.wick pos) → Memory.wf s.mem = true → h.op = r.op → h.d.loc = .wax ea →
    let one := fun i => r.f h.w (lane h.w (srcA s pos h) i).toNat (lane h.w (srcB s pos h) i).toNat
    ∃ t v ff, exec (r.ctor pos 0) s = .next t ∧ Writes s t pos h ea v ff ∧ v < 2 ^ 256 ∧
      (∀ i, i < 256 / h.w → (lane h.w v i).toNat = (one i).1) ∧
      (∀ j, ff.testBit j = true ↔ ∃ i, i < 256 / h.w ∧ (one i).2.testBit j = true)) ∧
  (∀ (s : State) (pos : Nat) (h : Half) (ea : Nat),
    Issues s pos [h] → Follows (s.wick pos) → Memory.wf s.mem = true → h.d.loc = .wax ea →
    (h.op = 0x06F → ∃ t v, exec (.fwiden pos 0) s = .next t ∧ Writes s t pos h ea v 0 ∧ v < 2 ^ 256 ∧
      ∀ i, i < 4 → (lane 64 v i).toNat = fWiden (lane 32 (srcB s pos h) i).toNat) ∧
    (h.op = 0x070 → ∃ t v ff, exec (.fnarrow pos 0) s = .next t ∧ Writes s t pos h ea v ff ∧ v < 2 ^ 128 ∧
      (∀ i, i < 4 → (lane 32 v i).toNat = (fNarrow (lane 64 (srcB s pos h) i).toNat).1) ∧
      (∀ j, ff.testBit j = true ↔ ∃ i, i < 4 ∧ (fNarrow (lane 64 (srcB s pos h) i).toNat).2.testBit j = true)))

/-- R229, R237: the words that move lanes about, convert masks, and work on strings of bytes. -/
def Obligations.WordShuffle : Prop :=
  ∀ (s : State) (pos : Nat) (h : Half) (ea : Nat),
    Issues s pos [h] → Follows (s.wick pos) → Memory.wf s.mem = true → h.d.loc = .wax ea →
    let w := h.w
    let a := srcA s pos h
    let b := srcB s pos h
    let d := slotAt s pos ea
    let answers := fun (c : Instr) (P : Nat → Prop) =>
      ∃ t v, exec c s = .next t ∧ Writes s t pos h ea v 0 ∧ v < 2 ^ 256 ∧ P v
    (h.op = 0x02D → answers (.swiden pos 0) fun v => ∀ i, i < 256 / w → lane w v i = (lane (w / 2) b i).signExtend w) ∧
    (h.op = 0x02E → answers (.uwiden pos 0) fun v => ∀ i, i < 256 / w → lane w v i = (lane (w / 2) b i).setWidth w) ∧
    (h.op = 0x02F → answers (.narrow pos 0) fun v =>
      v < 2 ^ 128 ∧ ∀ i, i < 256 / w → lane (w / 2) v i = (lane w b i).setWidth (w / 2)) ∧
    (h.op = 0x080 → answers (.blend pos 0) fun v =>
      ∀ i, i < 256 / w → lane w v i = if lane w b i ≠ 0#w then lane w a i else lane w d i) ∧
    (h.op = 0x081 → answers (.compress pos 0) fun v =>
      (∀ i, i < 256 / w → lane w b i ≠ 0#w → lane w v (namedBelow w b i) = lane w a i) ∧
      (∀ i, i < 256 / w → namedBelow w b (256 / w) ≤ i → lane w v i = 0#w)) ∧
    (h.op = 0x082 → answers (.expand pos 0) fun v =>
      ∀ i, i < 256 / w → lane w v i = if lane w b i ≠ 0#w then lane w a (namedBelow w b i) else 0#w) ∧
    (h.op = 0x083 → answers (.mcount pos 0) fun v => v = namedBelow w b (256 / w)) ∧
    (h.op = 0x084 → answers (.mexp pos 0) fun v =>
      ∀ i, i < 256 / w → lane w v i = mask w (a.testBit (((lane w b 0).toNat % 256 + i) % 256))) ∧
    (h.op = 0x085 → answers (.mpack pos 0) fun v =>
      v < 2 ^ (256 / w) ∧ ∀ i, i < 256 / w → v.testBit i = (lane w b i != 0#w)) ∧
    (h.op = 0x086 → answers (.mtail pos 0) fun v =>
      ∀ i, i < 256 / w → lane w v i = mask w (decide (i < (lane w b 0).toNat))) ∧
    (h.op = 0x092 → answers (.crcb pos 0) fun v =>
      v = crc32cRaw (lane 32 a 0).toNat ((le b 32).take (min ((lane 32 a 1).toNat % 64) 32))) ∧
    (h.op = 0x093 → answers (.pfxcmp pos 0) fun v =>
      ∃ n, n ≤ 32 ∧ (∀ i, i < n → lane 8 a i = lane 8 b i) ∧ (n < 32 → lane 8 a n ≠ lane 8 b n) ∧
        lane 64 v 0 = BitVec.ofNat 64 n ∧ v < 2 ^ 128 ∧
        lane 64 v 1 = if n = 32 then 0#64 else if (lane 8 b n).ult (lane 8 a n) then 1#64 else BitVec.allOnes 64) ∧
    (h.op = 0x094 → answers (.bclass pos 0) fun v =>
      ∀ i, i < 32 → lane 8 v i = if b.testBit (lane 8 a i).toNat then 0xFF#8 else 0#8)

/-- R174, R227, R257: the words that move address registers, float flags and the repeat count, and the no-operation. -/
def Obligations.WordRegisters : Prop :=
  ∀ (s : State) (pos : Nat) (h : Half), Issues s pos [h] → Follows (s.wick pos) →
    let k := s.wick pos
    let a := bumped k.a h
    let b := (lane 32 (srcB s pos h) 0).toNat
    let ff := k.fflags &&& 31
    (∀ ea, Memory.wf s.mem = true → h.d.loc = .wax ea →
      (∀ r, h.op = 0x0C2 → h.s2.loc = .reg r →
        ∃ t, exec (.sta pos 0) s = .next t ∧ Writes s t pos h ea (areg k.a r) 0) ∧
      (h.op = 0x0C3 → ∃ t, exec (.rdff pos 0) s = .next t ∧ Writes s t pos h ea k.fflags 0) ∧
      (h.op = 0x0C5 → ∃ t, exec (.rdrep pos 0) s = .next t ∧ Writes s t pos h ea k.repcnt 0)) ∧
    (h.op = 0x0C0 → ∃ t, exec (.lda pos 0) s = .next t ∧ Leaves s t pos (a.set (regOf h) b) ff k.lr (pcAfter k)) ∧
    (h.op = 0x0C1 → ∃ t, exec (.adda pos 0) s = .next t ∧
      Leaves s t pos (a.set (regOf h) ((areg k.a (regOf h) + b) % 2 ^ 32)) ff k.lr (pcAfter k)) ∧
    (h.op = 0x0C4 → ∃ t, exec (.clrff pos 0) s = .next t ∧
      Leaves s t pos a (k.fflags &&& (31 ^^^ ofSgn 14 h.s2.immediate % 32)) k.lr (pcAfter k)) ∧
    (h.op = 0x000 → ∃ t, exec (.wordNop pos 0) s = .next t ∧ Leaves s t pos a ff k.lr (pcAfter k))

/-- R199 to R201, R258, R259: a branch that is taken goes to its target, one that is not goes on; `LOOP` counts its
register down; `CALL` links and `RET` returns. A jump outside the code traps ADDRESS. -/
def Obligations.WordBranches : Prop :=
  (∀ r ∈ branchRows, ∀ (s : State) (pos : Nat) (h : Half), Issues s pos [h] → h.op = r.op →
    let k := s.wick pos
    let taken := r.taken h.w (srcA s pos h) (areg k.a (regOf h))
    (∀ p : Nat, taken = true → target k h = p → InCode k p → ∃ t, exec (r.ctor pos 0) s = .next t ∧
      Leaves s t pos (afterBranch r k h) (k.fflags &&& 31) k.lr p) ∧
    (taken = false → Follows k → ∃ t, exec (r.ctor pos 0) s = .next t ∧
      Leaves s t pos (afterBranch r k h) (k.fflags &&& 31) k.lr (pcAfter k)) ∧
    (taken = true → (∀ p : Nat, target k h = p → ¬InCode k p) → ∃ t, exec (r.ctor pos 0) s = .next t ∧
      Fails s t pos Status.trapAddress)) ∧
  (∀ (s : State) (pos : Nat) (h : Half), Issues s pos [h] →
    let k := s.wick pos
    (∀ p : Nat, h.op = 0x0E8 → target k h = p → InCode k p → ∃ t, exec (.call pos 0) s = .next t ∧
      Leaves s t pos (bumped k.a h) (k.fflags &&& 31) ((k.pc + 8) % 2 ^ 18) p) ∧
    (h.op = 0x0E9 → k.lr ≠ 0x3FFFF → InCode k k.lr → ∃ t, exec (.ret pos 0) s = .next t ∧
      Leaves s t pos (bumped k.a h) (k.fflags &&& 31) k.lr k.lr))

/-- R202, R203, R210, R212, R216, R260: the words that end a task, hold the wick, stand at an interruption point or
repeat the next word. -/
def Obligations.WordEnds : Prop :=
  ∀ (s : State) (pos : Nat) (h : Half), Issues s pos [h] →
    let k := s.wick pos
    let next := s.codeWord (pos / 17) (k.pc + 8)
    (∀ c, Tab.get s.ctxs k.ctx = some c → partialRow s k = false → (∀ p ∈ k.ports, p.pack = []) →
      (k.ladder.getD {}).mode ≠ 2 → (k.ladder.getD {}).mode ≠ 3 →
      (h.op = 0x0EB → ∃ t d, exec (.halt pos 0) s = .next t ∧ Tab.get t.ctxs k.ctx = some d ∧ d.st = .ended ∧
        d.failed = c.failed ∧ t.mem = s.mem) ∧
      (h.op = 0x0E9 → k.lr = 0x3FFFF → ∃ t d, exec (.ret pos 0) s = .next t ∧ Tab.get t.ctxs k.ctx = some d ∧
        d.st = .ended ∧ d.failed = c.failed ∧ t.mem = s.mem)) ∧
    (h.op = 0x0EC → ∀ c, Tab.get s.ctxs k.ctx = some c → ∃ t d, exec (.haltf pos 0) s = .next t ∧
      Tab.get t.ctxs k.ctx = some d ∧ d.st = .ended ∧ d.failed = 0x0405 ∧ (t.wick pos).st = 0 ∧ t.mem = s.mem) ∧
    (h.op = 0x0ED → (s.fld (R.LAN_MON_CTL (pos / 17)) F.LAN_MON_CTL_BREAK_HOLD).testBit (pos % 17) = true →
      ∃ t, exec (.break pos 0) s = .next t ∧ (t.wick pos).st = 2 ∧ (t.wick pos).pc = k.pc ∧ t.ctxs = s.ctxs ∧
        t.mem = s.mem) ∧
    (h.op = 0x0ED → (s.fld (R.LAN_MON_CTL (pos / 17)) F.LAN_MON_CTL_BREAK_HOLD).testBit (pos % 17) = false →
      ∃ t, exec (.break pos 0) s = .next t ∧ Fails s t pos Status.trapBreak) ∧
    (h.op = 0x0EA → k.repKind = 0 → Follows k → ∃ t, exec (.yield pos 0) s = .next t ∧
      Leaves s t pos (bumped k.a h) (k.fflags &&& 31) k.lr (k.pc + 8) ∧ (t.wick pos).atPoint = true) ∧
    (h.op = 0x0F0 → noRepeat next = false → InCode k (k.pc + 8) → ∃ t, exec (.rep pos 0) s = .next t ∧
      Leaves s t pos (bumped k.a h) (k.fflags &&& 31) k.lr (k.pc + 8) ∧
      (t.wick pos).repKind = 1 ∧ ((t.wick pos).repLeft : Int) = h.s2.immediate) ∧
    (∀ n, h.op = 0x0F1 → noRepeat next = false → InCode k (k.pc + 8) → 1 ≤ n → n ≤ 65536 →
      (h.s2.loc = .imm n ∨ (∃ ea, h.s2.loc = .wax ea ∧ (lane 32 (srcB s pos h) 0).toNat = n)) →
      ∃ t, exec (.repi pos 0) s = .next t ∧ Leaves s t pos (bumped k.a h) (k.fflags &&& 31) k.lr (k.pc + 8) ∧
        (t.wick pos).repKind = 2 ∧ (t.wick pos).repLeft = n)

/-- R192, R193, R238 to R243: a far load waits for its data with four issue slots of shadow, a store or a fold writes at
the offsets its operand gives, and an access outside its window traps ADDRESS. -/
def Obligations.WordFar : Prop :=
  ∀ (s : State) (pos : Nat) (h : Half), Issues s pos [h] → Memory.wf s.mem = true →
    let k := s.wick pos
    let n := pos / 17
    let win := window k h
    let o := (lane 64 (srcA s pos h) 0).toNat
    let lanes := List.range (256 / h.w)
    (h.op = 0x0A0 → Inside win false 32 o → Follows k → ∀ ea, h.d.loc = .wax ea →
      ∃ t, exec (.ldx pos 0) s = .next t ∧ Quiet s t pos ∧ t.mem = s.mem ∧ (t.wick pos).loads = shadowed k.loads ++
        [{ ea := ea, addrs := [farKey n win o], wid := 32, hbm := win.1 == 2, got := [none] }]) ∧
    (h.op = 0x0A1 → (∀ i ∈ lanes, Inside win false (h.w / 8) (lane h.w (srcA s pos h) i).toNat) → Follows k →
      ∀ ea, h.d.loc = .wax ea → ∃ t, exec (.gather pos 0) s = .next t ∧ Quiet s t pos ∧ t.mem = s.mem ∧
        (t.wick pos).loads = shadowed k.loads ++
          [{ ea := ea, addrs := lanes.map fun i => farKey n win (lane h.w (srcA s pos h) i).toNat, wid := h.w / 8,
             hbm := win.1 == 2, got := lanes.map fun _ => none }]) ∧
    (h.op = 0x0A2 → Inside win true 32 o → Follows k → ∀ ea, h.d.loc = .wax ea →
      ∃ t, exec (.stx pos 0) s = .next t ∧ Quiet s t pos ∧ t.peek (farKey n win o) 32 = s.peek (waxKey pos ea) 32 ∧
        SameOutside s.mem t.mem (farKey n win o) 32) ∧
    (∀ ea, h.op = 0x0A3 → h.d.loc = .wax ea →
      let at_ := fun i => farKey n win (lane h.w (slotAt s pos ea) i).toNat
      (∀ i ∈ lanes, Inside win true (h.w / 8) (lane h.w (slotAt s pos ea) i).toNat) →
      (∀ i ∈ lanes, ∀ j ∈ lanes, i ≠ j → at_ i ≠ at_ j) → Follows k →
      ∃ t, exec (.sfold pos 0) s = .next t ∧ Quiet s t pos ∧
        (∀ i ∈ lanes, leNat (t.peek (at_ i) (h.w / 8)) = sfold (bitsOf (ofSgn 14 h.s2.immediate) 3 4) h.w
          (leNat (s.peek (at_ i) (h.w / 8))) (lane h.w (srcA s pos h) i).toNat) ∧
        (∀ x, (∀ i ∈ lanes, x < at_ i ∨ at_ i + h.w / 8 ≤ x) → cellGet t.mem x = cellGet s.mem x)) ∧
    (h.op = 0x0A0 → ¬Inside win false 32 o → ∃ t, exec (.ldx pos 0) s = .next t ∧ Fails s t pos Status.trapAddress) ∧
    (h.op = 0x0A2 → ¬Inside win true 32 o → ∃ t, exec (.stx pos 0) s = .next t ∧ Fails s t pos Status.trapAddress)

/-- R244 to R246, R250, R254, R255: the words of the output ports and of the sort ladder. -/
def Obligations.WordPorts : Prop :=
  ∀ (s : State) (pos : Nat) (h : Half), Issues s pos [h] → Follows (s.wick pos) → Memory.wf s.mem = true →
    let k := s.wick pos
    let a := srcA s pos h
    let b := srcB s pos h
    let lanes := List.range (256 / h.w)
    let sent := (lanes.filter fun i => lane h.w b i != 0#h.w).flatMap fun i => le (lane h.w a i).toNat (h.w / 8)
    (∀ p ∈ k.ports, 0x020 ≤ p.num → p.num ≤ 0x02F → k.port p.num = p → h.d.loc = .port p.num →
      (h.op = 0x0B0 → p.pack.length + sent.length < 32 → ∃ t, exec (.emit pos 0) s = .next t ∧ Quiet s t pos ∧
        t.mem = s.mem ∧ ((t.wick pos).port p.num).pack = p.pack ++ sent) ∧
      (h.op = 0x0B0 → 32 ≤ p.pack.length + sent.length → p.filled < p.len → ∃ t, exec (.emit pos 0) s = .next t ∧
        Quiet s t pos ∧ t.peek (waxKey pos (p.slotEa p.filled)) 32 = (p.pack ++ sent).take 32 ∧
        SameOutside s.mem t.mem (waxKey pos (p.slotEa p.filled)) 32 ∧
        ((t.wick pos).port p.num).pack = (p.pack ++ sent).drop 32 ∧
        ((t.wick pos).port p.num).counts = p.counts ++ [32]) ∧
      (h.op = 0x0B1 → p.pack ≠ [] → p.pack.length ≤ 32 → p.filled < p.len → ∃ t, exec (.eflush pos 0) s = .next t ∧
        Quiet s t pos ∧ t.peek (waxKey pos (p.slotEa p.filled)) 32 = padTo p.pack 32 ∧
        SameOutside s.mem t.mem (waxKey pos (p.slotEa p.filled)) 32 ∧ ((t.wick pos).port p.num).pack = [] ∧
        ((t.wick pos).port p.num).counts = p.counts ++ [p.pack.length])) ∧
    (∀ p ∈ k.ports, p.num = 0x040 → k.port 0x040 = p → h.d.loc = .port 0x040 → bitsOf b 64 8 < k.chds.length →
      (h.op = 0x0B2 → p.filled + 2 ≤ p.len → ∃ t, exec (.search pos 0) s = .next t ∧ Quiet s t pos ∧
        (t.wick pos).reqs = k.reqs + 1 ∧ ((t.wick pos).port 0x040).filled = p.filled + 2 ∧
        t.peek (waxKey pos (p.slotEa p.filled)) 32 = askSlot b 1 ∧
        t.peek (waxKey pos (p.slotEa (p.filled + 1))) 32 = le a 32 ∧
        (∀ x, (x < waxKey pos (p.slotEa p.filled) ∨ waxKey pos (p.slotEa p.filled) + 32 ≤ x) →
          (x < waxKey pos (p.slotEa (p.filled + 1)) ∨ waxKey pos (p.slotEa (p.filled + 1)) + 32 ≤ x) →
          cellGet t.mem x = cellGet s.mem x)) ∧
      (h.op = 0x0B3 → p.filled < p.len → ∃ t, exec (.step pos 0) s = .next t ∧ Quiet s t pos ∧
        (t.wick pos).reqs = k.reqs + 1 ∧ t.peek (waxKey pos (p.slotEa p.filled)) 32 = askSlot b 2 ∧
        SameOutside s.mem t.mem (waxKey pos (p.slotEa p.filled)) 32)) ∧
    (h.op = 0x0B4 → s.bit (R.LAN_SL_CTL (pos / 17)) F.LAN_SL_CTL_EN = true → k.closing = false →
      k.openRun.length < 256 → (k.openRun = [] → k.sealed.length < 2) → ∃ t, exec (.slpush pos 0) s = .next t ∧
      Quiet s t pos ∧ t.mem = s.mem ∧ (t.wick pos).openRun = k.openRun ++
        [beNat (sortRecord (s.fmtSlot (pos / 17) (k.ladder.getD {}).fmt) (le a 32 ++ le b 32))] ∧
      t.rd (R.LAN_SL_PUSHES (pos / 17)) = (s.rd (R.LAN_SL_PUSHES (pos / 17)) + 1) % 2 ^ 64 ∧
      ∀ off, off ≠ R.LAN_SL_PUSHES (pos / 17) → t.rd off = s.rd off) ∧
    (h.op = 0x0B5 → k.openRun ≠ [] → ∃ t, exec (.slseal pos 0) s = .next t ∧ Quiet s t pos ∧ t.mem = s.mem ∧
      (t.wick pos).openRun = [] ∧ (t.wick pos).sealed = k.sealed ++ [{ no := s.sealCount, recs := k.openRun }] ∧
      t.sealCount = s.sealCount + 1 ∧ t.csr = s.csr) ∧
    (h.op = 0x0B5 → k.openRun = [] → ∃ t, exec (.slseal pos 0) s = .next t ∧ Quiet s t pos ∧ t.mem = s.mem ∧
      (t.wick pos).sealed = k.sealed ∧ t.csr = s.csr ∧ t.sealCount = s.sealCount) ∧
    (∀ ea run rest, h.op = 0x0B6 → h.d.loc = .wax ea → (k.ladder.getD {}).mode ≠ 2 → (k.ladder.getD {}).mode ≠ 3 →
      k.sealed = run :: rest → run.sorted = true →
      let bytes := be (run.recs.headD 0) 64
      (h.s2.immediate = 0 → ∃ t, exec (.slpop pos 0) s = .next t ∧
        Writes s t pos h ea (leNat (bytes.take 32)) 0 ∧ (t.wick pos).sealed = k.sealed) ∧
      (h.s2.immediate = 1 → 1 < run.recs.length → ∃ t, exec (.slpop pos 0) s = .next t ∧
        Writes s t pos h ea (leNat (bytes.drop 32)) 0 ∧
        (t.wick pos).sealed = { run with recs := run.recs.drop 1 } :: rest))

/-- R182, R188, R189: the halves of a paired word both read before either writes, half A writes first, and where both
name one place what half B wrote stays. -/
def Obligations.WordPair : Prop :=
  ∀ (s : State) (pos : Nat) (x y : Half) (ea eb va vb fa fb : Nat) (r : LaneRow), Issues s pos [x, y] →
    Follows (s.wick pos) → Memory.wf s.mem = true → x.d.loc = .wax ea → y.d.loc = .wax eb →
    r ∈ intRows ++ maskRows → (r.op = x.op ∨ r.op = y.op) →
    vecOp x.op x.w (s.source pos x.w x.s1 0) (s.source pos x.w x.s2 (seenIn x.s2 [x.s1])) (slotAt s pos ea)
      = some (va, fa) →
    vecOp y.op y.w (s.source pos y.w y.s1 (seenIn y.s1 [x.s1, x.s2]))
      (s.source pos y.w y.s2 (seenIn y.s2 [x.s1, x.s2, y.s1])) (slotAt s pos eb) = some (vb, fb) →
    divByZero x.op x.w (s.source pos x.w x.s2 (seenIn x.s2 [x.s1])) = false →
    divByZero y.op y.w (s.source pos y.w y.s2 (seenIn y.s2 [x.s1, x.s2, y.s1])) = false →
    ∃ t, exec (r.ctor pos 0) s = .next t ∧ Quiet s t pos ∧ t.csr = s.csr ∧ t.sealCount = s.sealCount ∧
      t.peek (waxKey pos eb) 32 = le vb 32 ∧
      (ea + 32 ≤ eb ∨ eb + 32 ≤ ea → t.peek (waxKey pos ea) 32 = le va 32) ∧
      (∀ q, (q < waxKey pos ea ∨ waxKey pos ea + 32 ≤ q) → (q < waxKey pos eb ∨ waxKey pos eb + 32 ≤ q) →
        cellGet t.mem q = cellGet s.mem q) ∧
      (t.wick pos).a = bumped (bumped (s.wick pos).a x) y ∧
      (t.wick pos).fflags = ((((s.wick pos).fflags &&& 31) ||| fa) &&& 31) ||| fb

/-- R179, R245: a word of the lane rows that names an output port of the exchange fills the port's next slot with its
result, as a whole slot of 32 bytes. -/
def Obligations.WordPortResult : Prop :=
  ∀ r ∈ intRows ++ maskRows, ∀ (s : State) (pos : Nat) (h : Half) (p : Port) (v ff : Nat), Issues s pos [h] →
    Follows (s.wick pos) → Memory.wf s.mem = true → h.op = r.op → p ∈ (s.wick pos).ports → (s.wick pos).port p.num = p →
    0x020 ≤ p.num → p.num ≤ 0x02F → h.d.loc = .port p.num → p.filled < p.len →
    vecOp h.op h.w (srcA s pos h) (srcB s pos h) 0 = some (v, ff) →
    ∃ t, exec (r.ctor pos 0) s = .next t ∧ Quiet s t pos ∧ t.csr = s.csr ∧
      t.peek (waxKey pos (p.slotEa p.filled)) 32 = le v 32 ∧
      SameOutside s.mem t.mem (waxKey pos (p.slotEa p.filled)) 32 ∧
      ((t.wick pos).port p.num).filled = p.filled + 1 ∧ ((t.wick pos).port p.num).counts = p.counts ++ [32]

/-- R215, R217, R227, R229: a word that has no meaning (an undefined opcode, or a width its entry does not permit) traps
ILLEGAL under whatever row it is commanded, writes nothing, and its task fails. R219: a word the code store cannot
correct fails its task with `UNCORRECTABLE`. -/
def Obligations.WordTraps : Prop :=
  ∀ r ∈ intRows ++ maskRows ++ divRows ++ wideRows.map (·.1), ∀ (s : State) (pos : Nat), s.live = true →
    (s.wick pos).st = 1 → (s.wick pos).stalled = false → (s.wick pos).cycles < (s.wick pos).budget →
    let word := s.codeWord (pos / 17) (s.wick pos).pc
    (word.testBit 63 = false → opRow (bitsOf word 53 10) = none → ∃ t, exec (r.ctor pos 0) s = .next t ∧
      Fails s t pos Status.trapIllegal) ∧
    (word.testBit 63 = false → bitsOf word 53 10 = r.op →
      (∀ row, opRow r.op = some row → row.widths.contains (bitsOf word 51 2) = false) →
      ∃ t, exec (r.ctor pos 0) s = .next t ∧ Fails s t pos Status.trapIllegal) ∧
    (wordIs r.op word = true → ∃ t, exec (r.ctor pos 2) s = .next t ∧ Fails s t pos Status.uncorrectable ∧
      t.bit (R.LAN_MON_ERR (pos / 17)) F.LAN_MON_ERR_CODE_UE = true)

/-! ### Registers -/

/-- R11, R787: a whole-word write of a plain register does to each field what its access type says, clamps a user offset
to its limits, leaves every other register as it is, and changes nothing but the CSR file.
R17: a value reserved for its field is not stored: the field keeps its value, and the block's `BADCFG` is set. -/
def Obligations.CsrWrites : Prop :=
  (∀ (who : Who) (off val : Nat) (s : State) (r : RegDef) (f : RegField), s.busServes who = true → who ≠ .mgmt →
      who ≠ .jtag → off % 8 = 0 → val < 2 ^ 64 → occupied off = true → PlainReg off → regAt off = some r → Apart r f →
      (∀ g ∈ r.flds, reservedValue off g.lo (bitsOf val g.lo g.wid) = false) →
      ∃ t, exec (.csrWrite who off 8 val) s = .next t ∧ t = { s with csr := t.csr } ∧
        (∀ o, o ≠ off → t.rd o = s.rd o) ∧
        (userLimit off f.lo = none → bitsOf (t.rd off) f.lo f.wid
          = afterWrite f.acc (s.locked off) f.wid (bitsOf (s.rd off) f.lo f.wid) (bitsOf val f.lo f.wid)) ∧
        (∀ l : Nat, userLimit off f.lo = some (l : Int) → f.acc = .rw → l < 2 ^ (f.wid - 1) → 0 < f.wid →
          sgn f.wid (bitsOf (t.rd off) f.lo f.wid) = max (-(l : Int)) (min (l : Int) (sgn f.wid (bitsOf val f.lo f.wid))))) ∧
  (∀ (who : Who) (off val : Nat) (s : State) (r : RegDef) (f : RegField), s.busServes who = true → who ≠ .mgmt →
      who ≠ .jtag → off % 8 = 0 → val < 2 ^ 64 → occupied off = true → PlainReg off → regAt off = some r → Apart r f →
      f.acc = .rw →
      off ≠ errReg off → reservedValue off f.lo (bitsOf val f.lo f.wid) = true →
      ∃ t, exec (.csrWrite who off 8 val) s = .next t ∧ bitsOf (t.rd off) f.lo f.wid = bitsOf (s.rd off) f.lo f.wid ∧
        t.bit (errReg off) (0, 1) = true ∧ t = { s with csr := t.csr } ∧
        ∀ o, o ≠ off → o ≠ errReg off → t.rd o = s.rd o)

/-- R10, R14, R42 to R44: an access that is not a whole aligned word, or that names no register's range, is not performed
and is logged; a read of an RC register clears it; a requester that does not reach a register changes nothing.
R44, R45, R215: an access of a wick to an unassigned address is not performed, is logged with the task's instance,
and traps ADDRESS; one of the Reservoir fails its task with `CHUNK_CORRUPT`. -/
def Obligations.CsrAccesses : Prop :=
  (∀ (who : Who) (s : State), s.busServes who = true →
      (∀ off size val, s.ras.frozen = false → size ≠ 8 ∨ off % 8 ≠ 0 →
        ∃ t, exec (.csrWrite who off size val) s = .next t ∧
          Logged s t { kind := 1, detail := size, addr := off, who := who } ∧ t = { s with csr := t.csr, ras := t.ras } ∧
          ∀ o, o ≠ R.RAS_LOG_NEXT → o ≠ R.RAS_LOG_WRAPS → t.rd o = s.rd o) ∧
      (∀ off val, s.ras.frozen = false → off % 8 = 0 → occupied off = false →
        ∃ t, exec (.csrWrite who off 8 val) s = .next t ∧ Logged s t { kind := 2, detail := 1, addr := off, who := who } ∧
          t = { s with csr := t.csr, ras := t.ras }) ∧
      (∀ off val, off % 8 = 0 → occupied off = true → csrReaches who off = false →
        exec (.csrWrite who off 8 val) s = .next s) ∧
      (∀ off, R.DRL_HIST 0 ≤ off → off < R.DRL_HIST 1024 → off % 8 = 0 → s.ras.frozen = false →
        ∃ t, exec (.csrReadClear who off) s = .next t ∧ t.rd off = 0 ∧ t = { s with csr := t.csr } ∧
          ∀ o, o ≠ off → t.rd o = s.rd o) ∧
      (∀ unit write addr, who = .lamplighter ∨ who = .other ∨ who = .mgmt ∨ who = .jtag → s.ras.frozen = false →
        s.place addr = .unassigned → ∃ t, exec (.unassignedAccess who unit write addr) s = .next t ∧
          Logged s t { kind := 2, detail := b2n write, addr := addr, who := who } ∧ t = { s with csr := t.csr, ras := t.ras })) ∧
  (∀ (s : State) (pos : Nat) (write : Bool) (addr : Nat) (c : Ctx), s.live = true → (s.wick pos).st = 1 →
      Tab.get s.ctxs (s.wick pos).ctx = some c → s.place addr = .unassigned →
      (∃ t, exec (.unassignedAccess .wick pos write addr) s = .next t ∧
        (∃ d, Tab.get t.ctxs (s.wick pos).ctx = some d ∧ d.st = .ended ∧ d.failed = Status.trapAddress) ∧
        (t.wick pos).st = 0 ∧ t = { s with csr := t.csr, ras := t.ras, wicks := t.wicks, ctxs := t.ctxs } ∧
        t.ras.log.getLast? = some (rasBytes (s.rd R.RAS_LOG_NEXT) s.now
          { kind := 2, detail := b2n write, addr := addr, inst := c.inst, gen := c.gen, who := .wick })) ∧
      (∀ j, (s.wick pos).job = some j → j.slot.isSome = true →
        ∃ t, exec (.unassignedAccess .reservoir pos write addr) s = .next t ∧
          (∃ d, Tab.get t.ctxs (s.wick pos).ctx = some d ∧ d.st = .ended ∧ d.failed = Status.chunkCorrupt) ∧
          (t.wick pos).st = 0 ∧ t.mem = s.mem))

/-! ### Queues -/

/-- R532 to R535: the queue a doorbell names, its index well formed for it.
R534: a doorbell that names no queue, or whose index is out of form, or that is stale, changes no queue and is
counted; during a gap one is latched (R714).
R540, R542, R544 to R546: an entry that stands alone and passes the checks is accepted as a command; one whose length
is bad completes with `INVALID_LENGTH`, one of a stale generation with `STALE_GENERATION`. -/
def Obligations.Doorbells : Prop :=
  (∀ (s : State) (inst loc idx g : Nat) (q : Queue), s.live = true → s.crank.gap = false → s.crank.halted = false →
      inst ≤ 1024 → loc < 512 → s.globalOf inst loc = some g → Tab.get s.queues g = some q → q.st ≠ .overrun →
      idx < 131072 → idx % 65536 < q.n →
      (q.submits = true → occupancy q.n q.head q.tail + occupancy q.n q.tail idx ≤ q.n →
        ∃ t, exec (.tailDoorbell inst loc idx) s = .next t ∧ Tab.get t.queues g = some { q with tail := idx } ∧
          (∀ h, h ≠ g → Tab.get t.queues h = Tab.get s.queues h) ∧
          t.rd R.QM_DOORBELLS = (s.rd R.QM_DOORBELLS + 1) % 2 ^ 64 ∧ (∀ o, o ≠ R.QM_DOORBELLS → t.rd o = s.rd o) ∧
          t = { s with queues := t.queues, csr := t.csr }) ∧
      (q.submits = false → occupancy q.n q.head idx ≤ occupancy q.n q.head q.tail →
        ∃ t, exec (.tailDoorbell inst loc idx) s = .next t ∧
          Tab.get t.queues g = some { q with head := idx, passed := q.passed + occupancy q.n q.head idx } ∧
          t = { s with queues := t.queues, csr := t.csr }) ∧
      (q.submits = true → q.n < occupancy q.n q.head q.tail + occupancy q.n q.tail idx →
        ∃ t d, exec (.tailDoorbell inst loc idx) s = .next t ∧ Tab.get t.queues g = some d ∧ d.st = .overrun ∧
          d.cause = 1 ∧ d.tail = q.tail ∧ t.bit R.QM_ERR F.QM_ERR_OVERRUN = true ∧
          t = { s with queues := t.queues, csr := t.csr, insts := t.insts }) ∧
      (∀ port gen, s.hostUp port = true → gen = s.genOf inst → gen ≠ 0 → inst < 2048 → q.submits = true →
        occupancy q.n q.head q.tail + occupancy q.n q.tail idx ≤ q.n →
        ∃ t, exec (.dbell port inst gen loc idx) s = .next t ∧ Tab.get t.queues g = some { q with tail := idx } ∧
          t = { s with queues := t.queues, csr := t.csr }) ∧
      (∀ port gen units, s.hostUp port = true → s.genOf inst = gen → gen ≠ 0 → inst < 2048 → q.submits = true →
        q.push = true → 1 ≤ units → units ≤ 63 →
        (idx = q.tail → occupancy q.n q.head q.tail + units ≤ q.n →
          ∃ t, exec (.cmdp port inst gen loc idx units) s = .next t ∧
            Tab.get t.queues g = some { q with tail := advance q.n q.tail units } ∧
            t = { s with queues := t.queues, csr := t.csr }) ∧
        (idx ≠ q.tail → ∃ t d, exec (.cmdp port inst gen loc idx units) s = .next t ∧ Tab.get t.queues g = some d ∧
          d.st = .overrun ∧ d.cause = 2))) ∧
  (∀ (s : State) (inst loc idx : Nat), s.live = true → inst ≤ 1024 → loc < 512 → idx < 2 ^ 32 →
      (s.crank.gap = false → s.crank.halted = false →
        (s.globalOf inst loc = none ∨
          (∃ g q, s.globalOf inst loc = some g ∧ Tab.get s.queues g = some q ∧
            (q.st = .overrun ∨ 131072 ≤ idx ∨ q.n ≤ idx % 65536))) →
        ∃ t, exec (.tailDoorbell inst loc idx) s = .next t ∧ t.rd R.QM_BAD_DB = (s.rd R.QM_BAD_DB + 1) % 2 ^ 64 ∧
          t = { s with csr := t.csr } ∧ ∀ o, o ≠ R.QM_BAD_DB → t.rd o = s.rd o) ∧
      (s.crank.gap = true → (s.crank.latched.filter (·.port == 6)).length < 4096 →
        ∃ t, exec (.tailDoorbell inst loc idx) s = .next t ∧ t.queues = s.queues ∧
          t.crank.latched = s.crank.latched ++ [{ kind := 0, port := 6, inst := inst, loc := loc, idx := idx }] ∧
          t.rd R.CRK_LATCHED = (s.rd R.CRK_LATCHED + 1) % 2 ^ 64)) ∧
  (∀ (s : State) (g : Nat) (q : Queue) (bytes : List Byte), s.fetching g = true → Tab.get s.queues g = some q →
      q.chain = none → q.fwMark = 0 →
      let e := readEntry bytes
      let key := g * 65536 + q.fetch % 65536
      let whole := entryLengthBad q.n (q.fetch % 65536) e.units = false ∧ e.units ≤ q.unread ∧
        bytes.length = 64 * e.units ∧ bitAt e.flags 0 = true ∧ bitAt e.flags 1 = true
      (whole → e.gen = s.genOf q.inst →
        (∀ c : Cmd, c.prm = e.prm → c.opcode = e.opcode → c.ents = [(q.fetch % 65536, e.units)] →
          commandCheck g c (headerOffence e 0) = none) →
        ∃ t d, exec (.entryFetch g bytes) s = .next t ∧ Tab.get t.cmds key = some d ∧ d.opcode = e.opcode ∧
          d.tag = e.tag ∧ d.prm = e.prm ∧ d.finished = false ∧ d.started = false ∧ d.inst = q.inst ∧ d.isOpen = false ∧
          Tab.get t.queues g = some { q with fetch := advance q.n q.fetch e.units } ∧
          t.rd R.QM_ACCEPTED = (s.rd R.QM_ACCEPTED + 1) % 2 ^ 64 ∧
          t = { s with cmds := t.cmds, cmdSeq := s.cmdSeq + 1, queues := t.queues, csr := t.csr }) ∧
      (whole → e.gen ≠ s.genOf q.inst → ∃ t d, exec (.entryFetch g bytes) s = .next t ∧ Tab.get t.cmds key = some d ∧
        d.finished = true ∧ d.status = Status.staleGeneration) ∧
      (entryLengthBad q.n (q.fetch % 65536) e.units = true → 1 ≤ q.unread → bytes.length = 64 →
        ∃ t d, exec (.entryFetch g bytes) s = .next t ∧ Tab.get t.cmds key = some d ∧ d.finished = true ∧
          d.status = Status.invalidLength ∧ Tab.get t.queues g = some { q with fetch := advance q.n q.fetch 1 }))

/-- R536, R537: the head of a queue passes the entries whose status is written, and the index goes to the head
publisher. R567: only a prefix passes.
R539, R562, R570, R593, R594, R648: what the queue manager tells a host: a notification once its count is reached, an
event in the instance's EVENT ring or counted as lost, the count of lost events, and a mailbox doorbell's event. -/
def Obligations.Publication : Prop :=
  (∀ (s : State) (g : Nat) (q : Queue) (c : Cmd), s.serving = true → s.crank.gap = false → Tab.get s.queues g = some q →
      q.submits = true → q.st ≠ .absent →
      let key := g * 65536 + q.prod % 65536
      let next := advance q.n q.prod c.slots
      Tab.get s.cmds key = some c →
      (c.written = true → c.isOpen = false → Tab.get s.cmds (g * 65536 + next % 65536) = none →
        ∃ t, exec (.headPublish g) s = .next t ∧ Tab.get t.queues g = some { q with prod := next } ∧
          Tab.get t.cmds key = none ∧
          (∃ o ∈ t.outbox, o.stage = 0 ∧ o.act = .index g next (b2n (bitAt c.flags 4))) ∧
          t = { s with cmds := t.cmds, queues := t.queues, outbox := t.outbox }) ∧
      (c.written = false → exec (.headPublish g) s = .next s)) ∧
  ((∀ (s : State) (g : Nat) (q : Queue), s.live = true → s.crank.gap = false → s.crank.halted = false →
      Tab.get s.queues g = some q → q.st ≠ .absent → s.hostUp q.port = true → q.notifyEn = true → 0 < q.pendCount →
      q.coalCount ≤ q.pendCount →
      (s.fresh q.inst q.pubGen = true → ∃ t, exec (.ntfy g) s = .next t ∧
        Tab.get t.queues g = some { q with pendCount := 0, pendSince := none } ∧
        .ntfy q.port q.inst q.pubGen q.loc q.head q.vector (min 65535 q.pendCount) ∈ t.sent) ∧
      (s.fresh q.inst q.pubGen = false → ∃ t, exec (.ntfy g) s = .next t ∧
        t.sent = s.sent ∧ t.rd (R.INST_STALE q.inst) = (s.rd (R.INST_STALE q.inst) + 1) % 2 ^ 64)) ∧
    (∀ (s : State) (i g : Nat) (x : Inst) (e : Event) (rest : List Event) (q : Queue), s.live = true →
      Tab.get s.insts i = some x → x.events = e :: rest → e.kind ≠ 0xE2 → s.eventQueue i = some g →
      Tab.get s.queues g = some q →
      (q.lost = 0 → q.st = .enabled → 0 < q.room → ∃ t, exec (.eventWrite i) s = .next t ∧
        Tab.get t.insts i = some { x with events := rest } ∧
        Tab.get t.queues g = some { q with prod := advance q.n q.prod 1 } ∧
        (∃ o ∈ t.outbox, o.stage = 2 ∧ o.act = .ring g q.prod (eventBytes e) (advance q.n q.prod 1) 0) ∧
        t = { s with insts := t.insts, queues := t.queues, outbox := t.outbox }) ∧
      (q.room = 0 → ∃ t, exec (.eventWrite i) s = .next t ∧ Tab.get t.insts i = some { x with events := rest } ∧
        Tab.get t.queues g = some { q with lost := q.lost + 1 } ∧ t = { s with insts := t.insts, queues := t.queues })) ∧
    (∀ (s : State) (g : Nat) (q : Queue), s.live = true → Tab.get s.queues g = some q → q.st = .enabled → q.typ = 3 →
      0 < q.lost → 0 < q.room → ∃ t, exec (.overflowEvent g) s = .next t ∧
        Tab.get t.queues g = some { q with lost := 0, prod := advance q.n q.prod 1 } ∧
        (∃ o ∈ t.outbox, o.stage = 2 ∧ o.act = .ring g q.prod
          (eventBytes { kind := 0xE0, loc := q.loc, lost := q.lost % 2 ^ 32, time := s.now }) (advance q.n q.prod 1) 0) ∧
        t = { s with queues := t.queues, outbox := t.outbox }) ∧
    (∀ (s : State) (i val : Nat) (down : Bool), s.live = true → i ≤ 1024 → (Tab.at s.insts i).st = 1 →
      Memory.wf s.mail = true → 0 < val → val < 2 ^ 64 → s.mailPending i down = false →
      ∃ t, exec (.mailboxDoorbell i down val) s = .next t ∧ t.mailBits i down = (s.mailBits i down ||| val) ∧
        SameOutside s.mail t.mail (mailHalf i down + 8) 8 ∧
        (Tab.at t.insts (if down then i else 0)).events = (Tab.at s.insts (if down then i else 0)).events ++
          [{ kind := 0xE2, lost := b2n down, time := s.now, detail := zeros 8 ++ le i 2 ++ zeros 38 }] ∧
        t = { s with mail := t.mail, insts := t.insts }))

/-- R564, R571, R573: the enable bit of a queue moves it between ENABLED and DISABLED; a reset of an idle DISABLED or
OVERRUN queue puts its indices back to 0 and leaves it DISABLED, and one of a busy queue is refused.
R543, R553, R559, R562, R565 to R567: the commands on queues, each completing with its status. -/
def Obligations.QueueControl : Prop :=
  (∀ (s : State) (who : Who) (g : Nat) (q : Queue), s.live = true → reaches who = true → g < 16384 →
      Tab.get s.queues g = some q →
      (who = .lamplighter → q.st = .enabled → ∃ t, exec (.queueEnable who g false) s = .next t ∧
        Tab.get t.queues g = some { q with st := .disabled } ∧ t = { s with queues := t.queues }) ∧
      (who = .lamplighter → q.st = .disabled → ∃ t, exec (.queueEnable who g true) s = .next t ∧
        Tab.get t.queues g = some { q with st := .enabled } ∧ t = { s with queues := t.queues }) ∧
      (q.st = .disabled ∨ q.st = .overrun → s.queueIdle g = true → ∃ t d, exec (.qmQresetGo who g) s = .next t ∧
        Tab.get t.queues g = some d ∧ d.st = .disabled ∧ d.head = 0 ∧ d.tail = 0 ∧ d.fetch = 0 ∧ d.cause = 0 ∧
        d.base = q.base ∧ d.typ = q.typ ∧ ∀ h, h ≠ g → Tab.get t.queues h = Tab.get s.queues h) ∧
      (q.st = .enabled ∨ s.queueIdle g = false → ∃ t, exec (.qmQresetGo who g) s = .next t ∧
        t.bit R.QM_ERR F.QM_ERR_QRESET_BUSY = true ∧ t = { s with csr := t.csr } ∧
        ∀ o, o ≠ R.QM_ERR → t.rd o = s.rd o)) ∧
  (∀ (s : State) (key : Nat) (c : Cmd),
      (Due s key 0x5F c → ∃ t, exec (.nop key) s = .next t ∧ Done s t key c 0 0 0 ∧
        t = { s with cmds := t.cmds, outbox := t.outbox, boot := t.boot }) ∧
      (Due s key 0x58 c → ∃ t, exec (.barrier key) s = .next t ∧ Done s t key c 0 0 0 ∧
        t = { s with cmds := t.cmds, outbox := t.outbox, boot := t.boot }) ∧
      (∀ g, Due s key 0x02 c → s.fld (R.MLK_CFG (c.p 5 1)) F.MLK_CFG_MODE ≠ 1 → s.globalOf c.inst (c.p 0 2) = none →
        1025 ≤ g → g < 16384 → Tab.get s.queues g = none → ∃ t q, exec (.queueCreate key g) s = .next t ∧
        Done s t key c 0 0 g ∧ Tab.get t.queues g = some q ∧ q.st = .enabled ∧ q.typ = c.p 2 1 ∧ q.sizeLog2 = c.p 4 1 ∧
        q.port = c.p 5 1 ∧ q.vector = c.p 6 2 ∧ q.base = c.p 8 8 ∧ q.mirror = c.p 16 8 ∧ q.inst = c.inst ∧
        q.loc = c.p 0 2 ∧ q.head = 0 ∧ q.tail = 0 ∧ Journalled t (jBody s.now (c.journal 0x06 c.inst g 0 1 6)) ∧
        (∀ h, h ≠ g → Tab.get t.queues h = Tab.get s.queues h) ∧
        t = { s with cmds := t.cmds, outbox := t.outbox, boot := t.boot, queues := t.queues }) ∧
      (∀ g q, Due s key 0x03 c → c.p 0 2 ≠ 0 → s.globalOf c.inst (c.p 0 2) = some g → Tab.get s.queues g = some q →
        (q.st = .disabled ∨ q.st = .overrun → s.queueIdle g = true → ∃ t, exec (.queueDelete key) s = .next t ∧
          Done s t key c 0 0 0 ∧ Tab.get t.queues g = none ∧ (∀ h, h ≠ g → Tab.get t.queues h = Tab.get s.queues h) ∧
          Journalled t (jBody s.now (c.journal 0x07 c.inst g q.st.code 0 6)) ∧
          t = { s with cmds := t.cmds, outbox := t.outbox, boot := t.boot, queues := t.queues }) ∧
        (q.st = .enabled ∨ s.queueIdle g = false → ∃ t, exec (.queueDelete key) s = .next t ∧
          Done s t key c Status.busy 0 0 ∧ t.queues = s.queues)) ∧
      (∀ g q, Due s key 0x04 c → c.p 0 2 ≠ 0 → s.globalOf c.inst (c.p 0 2) = some g → Tab.get s.queues g = some q →
        (c.note ≤ q.passed → bitAt (c.p 2 1) 0 = false → ∃ t, exec (.queueDrain key) s = .next t ∧ Done s t key c 0 0 0 ∧
          t = { s with cmds := t.cmds, outbox := t.outbox, boot := t.boot }) ∧
        (q.passed < c.note → c.started = false → bitAt (c.p 2 1) 0 = true → q.st = .enabled → s.queueIdle g = false →
          ∃ t d, exec (.queueDrain key) s = .next t ∧ Tab.get t.queues g = some { q with st := .disabled } ∧
            Tab.get t.cmds key = some d ∧ d.started = true ∧ d.finished = false)) ∧
      (∀ g q, Due s key 0x05 c → c.p 0 2 ≠ 0 → s.globalOf c.inst (c.p 0 2) = some g → Tab.get s.queues g = some q →
        (q.submits = false → ∃ t, exec (.queueFlush key []) s = .next t ∧ Done s t key c 0 0 0) ∧
        (q.submits = true → ∀ k e, k ≠ key → Tab.get s.cmds k = some e → e.g = g → e.mgmt = false → e.started = false →
          e.finished = false → s.entryAt e < c.note → ∃ t d, exec (.queueFlush key []) s = .next t ∧
          Tab.get t.cmds k = some d ∧ d.finished = true ∧ d.status = Status.abortedFlush)) ∧
      (∀ g q, Due s key 0x07 c → c.p 2 2 ≠ 0 → s.globalOf c.inst (c.p 2 2) = some g → Tab.get s.queues g = some q →
        (c.p 0 2 = 1 → ∃ t, exec (.setFeature key) s = .next t ∧ Done s t key c 0 0 0 ∧ Tab.get t.queues g
          = some { q with coalCount := c.p 8 8 % 256, coalTime := c.p 8 8 / 256 }) ∧
        (c.p 0 2 = 2 → ∃ t, exec (.setFeature key) s = .next t ∧ Done s t key c 0 0 0 ∧ Tab.get t.queues g
          = some { q with notifyEn := c.p 8 8 == 1 })))

/-! ### Instances, pools and the Tally -/

/-- R575, R583, R584, R589, R590, R597: an instance is created with its amounts, its admin queue and a new generation; a
number that is in use is refused. `POOL_SETUP` takes what no reservation holds, and only while no POOLED instance
exists. -/
def Obligations.InstanceCreate : Prop :=
  ∀ (s : State) (key : Nat) (c : Cmd),
    (Due s key 0x10 c →
      let i := c.p 0 2
      let x := Tab.at s.insts i
      let g := if x.lastGen = 0xFFFF then 1 else x.lastGen + 1
      (c.p 2 1 = 1 → x.st = 0 → s.fld (R.MLK_CFG (c.p 19 1)) F.MLK_CFG_MODE ≠ 1 →
        s.reserveFits i 0 (c.p 4 2) = true → s.reserveFits i 1 (c.p 6 2) = true → s.reserveFits i 2 (c.p 8 8) = true →
        s.reserveFits i 3 (c.p 16 2) = true → Memory.wf s.mail = true →
        ∃ t q, exec (.instanceCreate key) s = .next t ∧ Done s t key c 0 0 g ∧
          Tab.get t.insts i = some { x with
            st := 1, cls := 1, wicks := c.p 4 2, banks := c.p 6 2, mem := c.p 8 8, fold := c.p 16 2, memRes := c.p 8 8,
            banksRes := c.p 6 2, lastGen := g, gen := g, seen := true } ∧
          Tab.get t.queues i = some q ∧ q.st = .enabled ∧ q.inst = i ∧ q.loc = 0 ∧ q.sizeLog2 = c.p 18 1 ∧
          q.port = c.p 19 1 ∧ q.base = c.p 20 8 ∧ q.mirror = c.p 28 8 ∧ q.vector = c.p 36 2 ∧ q.pubGen = g ∧
          cellsRead t.mail (mailHalf i false + 16) 2 = le g 2 ∧ cellsRead t.mail (mailHalf i true + 16) 2 = le g 2 ∧
          Journalled t (jBody s.now (c.journal 0x01 i 1 0 1 6)) ∧
          t = { s with cmds := t.cmds, outbox := t.outbox, boot := t.boot, insts := t.insts, queues := t.queues,
                       mail := t.mail }) ∧
      (x.st ≠ 0 → ∃ t, exec (.instanceCreate key) s = .next t ∧
        Done s t key c Status.invalidField (c.fieldResidue 0) 0 ∧ t.insts = s.insts ∧ t.queues = s.queues)) ∧
    (Due s key 0x14 c →
      ((∀ e ∈ s.insts, e.2.st = 0 ∨ e.2.cls ≠ 2) → c.p 0 2 ≤ 1024 → ∃ t, exec (.poolSetup key) s = .next t ∧
        Done s t key c 0 0 0 ∧ t.pool = [totalWicks - s.reservedSum 0 0,
          totalBanks - s.reservedSum 1 0 - s.heldBanks 0, totalMem - s.reservedSum 2 0 - s.heldMem 0,
          totalFold - s.reservedSum 3 0] ∧
        t.fld R.INST_POOL F.INST_POOL_MAX_POOLED = c.p 0 2 ∧ (∀ o, o ≠ R.INST_POOL → t.rd o = s.rd o) ∧
        t = { s with cmds := t.cmds, outbox := t.outbox, boot := t.boot, csr := t.csr, pool := t.pool }) ∧
      (∀ e ∈ s.insts, e.2.st ≠ 0 → e.2.cls = 2 → ∃ t, exec (.poolSetup key) s = .next t ∧
        Done s t key c Status.busy 0 0 ∧ t.pool = s.pool ∧ t.csr = s.csr))

/-- R592: a reservation's new sizes take effect at once where its work fits them; else the command goes on until it does,
and the larger sizes count. -/
def Obligations.InstanceResize : Prop :=
  ∀ (s : State) (key : Nat) (c : Cmd),
    (Due s key 0x11 c → c.started = false →
      let i := c.p 0 2
      let x := Tab.at s.insts i
      x.st = 1 → x.cls = 1 → x.shrinking = false →
      s.reserveFits i 0 (c.p 4 2) = true → s.reserveFits i 1 (c.p 6 2) = true → s.reserveFits i 2 (c.p 8 8) = true →
      s.reserveFits i 3 (c.p 16 2) = true → s.heldBanks i ≤ c.p 6 2 →
      (s.heldMem i ≤ c.p 8 8 → ∃ t, exec (.instanceResize key) s = .next t ∧ Done s t key c 0 0 0 ∧
        Tab.get t.insts i = some { x with
          wicks := c.p 4 2, banks := c.p 6 2, mem := c.p 8 8, fold := c.p 16 2, memRes := c.p 8 8, banksRes := c.p 6 2,
          shrinking := false, resizeCmd := none } ∧
        t = { s with cmds := t.cmds, outbox := t.outbox, boot := t.boot, insts := t.insts }) ∧
      (c.p 8 8 < s.heldMem i → ∃ t, exec (.instanceResize key) s = .next t ∧ Begun t key ∧
        Tab.get t.insts i = some { x with
          wicks := c.p 4 2, banks := c.p 6 2, mem := c.p 8 8, fold := c.p 16 2, memRes := max x.memRes (c.p 8 8),
          banksRes := c.p 6 2, shrinking := true, resizeCmd := some key })) ∧
    (∀ i, s.serving = true → Tab.get s.cmds key = some c → (Tab.at s.insts i).shrinking = true →
      (Tab.at s.insts i).resizeCmd = some key →
      (s.heldMem i ≤ (Tab.at s.insts i).mem → s.heldBanks i ≤ (Tab.at s.insts i).banks →
        ∃ t, exec (.resizeRelease i) s = .next t ∧ Done s t key c 0 0 0 ∧
          Tab.get t.insts i = some { Tab.at s.insts i with
            memRes := (Tab.at s.insts i).mem, banksRes := (Tab.at s.insts i).banks, shrinking := false,
            resizeCmd := none } ∧
          t = { s with cmds := t.cmds, outbox := t.outbox, boot := t.boot, insts := t.insts }) ∧
      ((Tab.at s.insts i).mem < s.heldMem i → ∃ t, exec (.resizeRelease i) s = .next t ∧ t.cmds = s.cmds ∧
        (Tab.at t.insts i).shrinking = true ∧ (Tab.at t.insts i).memRes = (Tab.at s.insts i).memRes))

/-- R578 to R580, R584, R585: a reset gives the instance a new generation and takes everything it had but its admin queue
and, if asked, its regions; a destroyed instance has nothing; the retired generation is tracked while its work is
outstanding, and three of them hold a further one back. A held write of a stale generation is dropped and counted. -/
def Obligations.InstanceReset : Prop :=
  (∀ (s : State) (key : Nat) (c : Cmd), c.inst ≠ c.p 0 2 →
    let i := c.p 0 2
    let x := Tab.at s.insts i
    let g := if x.lastGen = 0xFFFF then 1 else x.lastGen + 1
    x.st = 1 →
    (Due s key 0x12 c →
      (x.retired.length < 3 ∨ s.outstanding i x.gen = false → ∃ t q, exec (.instanceReset key) s = .next t ∧
        Ends t key c 0 g ∧ (Tab.at t.insts i).gen = g ∧ (Tab.at t.insts i).lastGen = g ∧ (Tab.at t.insts i).st = 1 ∧
        (s.outstanding i x.gen = true → (Tab.at t.insts i).retired = x.retired ++ [x.gen]) ∧
        (∀ e ∈ t.runs, e.2.inst ≠ i) ∧ (∀ e ∈ t.pipes, e.2.inst ≠ i) ∧ (∀ e ∈ t.ctxs, e.2.inst ≠ i) ∧
        (bitAt (c.p 2 1) 0 = false → ∀ e ∈ t.regions, e.2.inst ≠ i) ∧
        (bitAt (c.p 2 1) 0 = true → t.regions = s.regions) ∧
        Tab.get t.queues i = some q ∧ q.head = q.tail ∧ q.fetch = q.tail ∧ q.pubGen = g ∧
        (∃ o ∈ t.outbox, o.stage = 0 ∧ o.gen = g ∧ o.act = .index i q.tail 0)) ∧
      (3 ≤ x.retired.length → s.outstanding i x.gen = true → ∃ t, exec (.instanceReset key) s = .next t ∧
        Done s t key c Status.busy 0 0 ∧ t.insts = s.insts)) ∧
    (Due s key 0x13 c →
      (x.retired.length < 3 ∨ s.outstanding i x.gen = false → ∃ t, exec (.instanceDestroy key) s = .next t ∧
        (x.resizeCmd = none → Ends t key c 0 0) ∧ (Tab.at t.insts i).st = 0 ∧ (Tab.at t.insts i).gen = 0 ∧
        (Tab.at t.insts i).lastGen = x.lastGen ∧ (Tab.at t.insts i).wicks = 0 ∧ (Tab.at t.insts i).mem = 0 ∧
        (∀ e ∈ t.runs, e.2.inst ≠ i) ∧ (∀ e ∈ t.pipes, e.2.inst ≠ i) ∧ (∀ e ∈ t.ctxs, e.2.inst ≠ i) ∧
        (∀ e ∈ t.regions, e.2.inst ≠ i) ∧ Tab.get t.queues i = none ∧
        (∀ a, 4096 * i ≤ a → a < 4096 * i + 4096 → cellGet t.mail a = 0) ∧
        (∀ k e, x.resizeCmd = some k → k ≠ key → Tab.get s.cmds k = some e → e.inst ≠ i → e.mgmt = false →
          Ends t k e Status.abortedReset 0)) ∧
      (3 ≤ x.retired.length → s.outstanding i x.gen = true → ∃ t, exec (.instanceDestroy key) s = .next t ∧
        Done s t key c Status.busy 0 0 ∧ t.insts = s.insts))) ∧
  (∀ (s : State) (i gen : Nat), s.live = true → gen ∈ (Tab.at s.insts i).retired →
    (s.outstanding i gen = false → ∃ t, exec (.generationRetireEnd i gen) s = .next t ∧
      Tab.get t.insts i = some { Tab.at s.insts i with retired := (Tab.at s.insts i).retired.filter (· ≠ gen) } ∧
      t = { s with insts := t.insts }) ∧
    (s.outstanding i gen = true → exec (.generationRetireEnd i gen) s = .next s)) ∧
  (∀ (s : State) (n : Nat) (h : Held), s.live = true → s.held[n]? = some h → h.tag = none →
    (h.gen = 0 ∨ s.genOf h.inst ≠ h.gen → ∃ t, exec (.staleWriteDrop n) s = .next t ∧ t.held = s.held.eraseIdx n ∧
      t.rd (R.INST_STALE h.inst) = (s.rd (R.INST_STALE h.inst) + 1) % 2 ^ 64 ∧
      t = { s with held := t.held, csr := t.csr }) ∧
    (h.gen ≠ 0 → s.genOf h.inst = h.gen → exec (.staleWriteDrop n) s = .next s))

/-- R591, R600 to R605: the oldest held record goes to the tally ring under the next `SEQ`, with its `MAC` under slot 31;
held memory is sampled once a ms. -/
def Obligations.Tally : Prop :=
  (∀ (s : State) (g : Nat) (q : Queue) (r : TallyRec) (rest : List TallyRec) (k : List Byte), s.serving = true →
    s.crank.gap = false → s.tallyRing = some g → Tab.get s.queues g = some q → q.st = .enabled → 2 ≤ q.room →
    s.tally = r :: rest → (s.swxSlot 31).key = some k →
    ∃ t e, exec .tallyRecordWrite s = .next t ∧ t.tally = rest ∧
      t.rd R.INST_TALLYSEQ = (s.rd R.INST_TALLYSEQ + 1) % 2 ^ 64 ∧ (∀ o, o ≠ R.INST_TALLYSEQ → t.rd o = s.rd o) ∧
      fieldAt e 0 8 = s.rd R.INST_TALLYSEQ % 2 ^ 64 ∧ fieldAt e 8 8 = r.end_ % 2 ^ 64 ∧ fieldAt e 16 2 = r.inst % 2 ^ 16 ∧
      fieldAt e 18 2 = r.gen % 2 ^ 16 ∧ fieldAt e 24 8 = r.counts.wickCycles % 2 ^ 64 ∧
      e.drop 96 = hmac k (e.take 96) ∧
      (∃ o ∈ t.outbox, o.stage = 1 ∧ o.act = .ring g q.prod e (advance q.n q.prod (e.length / 64)) 0) ∧
      t = { s with tally := rest, csr := t.csr, queues := t.queues, outbox := t.outbox }) ∧
  (∀ (s : State), s.pins.pwrgood = true → s.ras.frozen = false → s.boot.tripped = false →
    s.tb.lastMs ≠ s.now / 1000000 → (s.insts.map (·.1)).Nodup →
    ∃ t, exec .memHeldSample s = .next t ∧ t.tb = { s.tb with lastMs := s.now / 1000000 } ∧
      (∀ i x, Tab.get s.insts i = some x → Tab.get t.insts i = some { x with counts := { x.counts with
        memHeld := x.counts.memHeld + (if x.st = 0 then 0 else s.heldMem i / 4096) } }) ∧
      t = { s with insts := t.insts, tb := t.tb })

/-! ### Regions, tables and pipelines -/

/-- R552, R559, R591: regions are allocated zeroed and freed, within the instance's memory; `TABLE_READ` sends a region's
bytes to host memory, and `TABLE_COPY` moves them to another region. That a new region reads zero is the model's choice
(log entry 20). -/
def Obligations.Regions : Prop :=
  ∀ (s : State) (key : Nat) (c : Cmd), Memory.wf s.mem = true →
    (∀ num base, Due s key 0x43 c →
      let size := c.p 8 8
      (s.heldMem c.inst + size ≤ s.capOf c.inst 2 → s.memRoom 65536 size = true → Tab.get s.regions num = none →
        num < 2 ^ 32 → base % 65536 = 0 → s.memFree base size = true →
        ∃ t, exec (.regionAlloc key num base) s = .next t ∧ Done s t key c 0 0 num ∧
          Tab.get t.regions num = some { inst := c.inst, base := base, size := size } ∧
          (∀ m, m ≠ num → Tab.get t.regions m = Tab.get s.regions m) ∧
          (∀ a, base ≤ a → a < base + size → cellGet t.mem a = 0) ∧ SameOutside s.mem t.mem base size ∧
          Journalled t (jBody s.now (c.journal 0x09 c.inst num 0 size)) ∧
          t = { s with cmds := t.cmds, outbox := t.outbox, boot := t.boot, regions := t.regions, mem := t.mem,
                       poison := t.poison }) ∧
      (s.capOf c.inst 2 < s.heldMem c.inst + size → ∃ t, exec (.regionAlloc key num base) s = .next t ∧
        Done s t key c Status.quotaExceeded 0 0 ∧ t.regions = s.regions ∧ t.mem = s.mem)) ∧
    (∀ r, Due s key 0x44 c → Holds s c (c.p 0 4) 0 0 r →
      (s.regionBusy (c.p 0 4) = false → ∃ t, exec (.regionFree key) s = .next t ∧ Done s t key c 0 0 0 ∧
        Tab.get t.regions (c.p 0 4) = none ∧ (∀ m, m ≠ c.p 0 4 → Tab.get t.regions m = Tab.get s.regions m) ∧
        Journalled t (jBody s.now (c.journal 0x0A c.inst (c.p 0 4) r.size 0)) ∧
        t = { s with cmds := t.cmds, outbox := t.outbox, boot := t.boot, regions := t.regions }) ∧
      (s.regionBusy (c.p 0 4) = true → ∃ t, exec (.regionFree key) s = .next t ∧ Done s t key c Status.busy 0 0 ∧
        t.regions = s.regions)) ∧
    (∀ r, Due s key 0x41 c → c.started = false → Holds s c (c.p 0 4) (c.p 8 8) (c.p 16 4) r →
      Clean s (r.base + c.p 8 8) (c.p 16 4) → 0 < c.p 16 4 → c.p 24 8 + c.p 16 4 ≤ 2 ^ 64 →
      ∃ t, exec (.tableRead key) s = .next t ∧ Begun t key ∧ t.mem = s.mem ∧
        HeldWrite t (.data key) (c.p 24 8) (s.hbmRead (r.base + c.p 8 8) (c.p 16 4))) ∧
    (∀ r q, Due s key 0x42 c → Holds s c (c.p 0 4) (c.p 8 8) (c.p 24 8) r → Holds s c (c.p 4 4) (c.p 16 8) (c.p 24 8) q →
      Clean s (r.base + c.p 8 8) (c.p 24 8) →
      ∃ t, exec (.tableCopy key) s = .next t ∧ Done s t key c 0 0 (c.p 24 8) ∧
        t.peek (q.base + c.p 16 8) (c.p 24 8) = s.peek (r.base + c.p 8 8) (c.p 24 8) ∧
        SameOutside s.mem t.mem (q.base + c.p 16 8) (c.p 24 8) ∧
        t = { s with cmds := t.cmds, outbox := t.outbox, boot := t.boot, insts := t.insts, mem := t.mem,
                     poison := t.poison })

/-- R555 to R558, R643 to R647: a `TABLE_WRITE` asks for its data in parts of 256 KiB; the data is applied to the region
when all of it has come, and not at all when a request times out. -/
def Obligations.TableWrite : Prop :=
  (∀ (s : State) (key : Nat) (c : Cmd) (r : Region), Due s key 0x40 c → c.started = false →
    Holds s c (c.p 0 4) (c.p 8 8) (c.p 16 4) r → ∃ t w, exec (.tableWrite key) s = .next t ∧ Begun t key ∧
      Tab.get t.writes key = some w ∧ w.region = c.p 0 4 ∧ w.off = c.p 8 8 ∧ w.len = c.p 16 4 ∧ w.reserved = 0 ∧
      w.reqs = [] ∧ w.asked = 0 ∧ w.data.length = w.len ∧ t = { s with cmds := t.cmds, writes := t.writes }) ∧
  (∀ (s : State) (key xid : Nat) (c : Cmd) (w : Write), Due s key 0x40 c → Tab.get s.writes key = some w →
    w.reserved ≠ 0 → s.hostUp (Tab.at s.queues c.g).port = true → xid < 4 → (∀ x ∈ w.reqs, x.xid = xid → x.sat = true) →
    w.asked < w.len → (w.reqs.filter fun x => !x.sat).length < 4 →
    let n := min 262144 (w.len - w.asked)
    ∃ t v, exec (.xferRdy key xid) s = .next t ∧ Tab.get t.writes key = some v ∧ v.asked = w.asked + n ∧
      { xid := xid, off := w.asked, len := n } ∈ v.reqs ∧ v.data = w.data ∧
      .xferRdy (Tab.at s.queues c.g).port c.inst c.gen (Tab.at s.queues c.g).loc (s.entryIndex c) xid w.asked n
        ((c.p 24 8 + w.asked) % 2 ^ 64) ∈ t.sent ∧
      t = { s with writes := t.writes, sent := t.sent, ports := t.ports, csr := t.csr }) ∧
  (∀ (s : State) (port inst gen loc entry off g : Nat) (last : Bool) (bytes : List Byte) (c : Cmd) (w : Write) (x : Xfer),
    let key := g * 65536 + entry % 65536
    s.live = true → s.hostUp port = true → 1 ≤ bytes.length → bytes.length ≤ 4096 → gen ≠ 0 → s.genOf inst = gen →
    s.globalOf inst loc = some g → Tab.get s.cmds key = some c → s.entryIndex c = entry → c.finished = false →
    Tab.get s.writes key = some w → w.reqs = [x] → x.sat = false → off = x.off + x.got → w.data.length = w.len →
    x.off + x.len ≤ w.len →
    (x.got + bytes.length < x.len → last = false →
      ∃ t v, exec (.dataPacket port inst gen loc entry x.xid off last bytes) s = .next t ∧
        Tab.get t.writes key = some v ∧ slice v.data off bytes.length = bytes ∧
        (∀ i, i < off ∨ off + bytes.length ≤ i → v.data[i]? = w.data[i]?) ∧ v.reqs.map (·.got) = [x.got + bytes.length] ∧
        t = { s with writes := t.writes, insts := t.insts }) ∧
    (∀ r, x.got + bytes.length = x.len → w.asked = w.len → Tab.get s.regions w.region = some r → Memory.wf s.mem = true →
      c.mgmt = false →
      ∃ t, exec (.dataPacket port inst gen loc entry x.xid off last bytes) s = .next t ∧ Ends t key c 0 w.len ∧
        Tab.get t.writes key = none ∧
        t.peek (r.base + w.off) w.len = patch w.data off bytes ∧ SameOutside s.mem t.mem (r.base + w.off) w.len) ∧
    (∀ m : Nat, last = true → x.got + bytes.length + m = x.len → 0 < m → c.mgmt = false →
      ∃ t d, exec (.dataPacket port inst gen loc entry x.xid off last bytes) s = .next t ∧
        Tab.get t.cmds key = some d ∧ d.status = Status.dataUnderrun ∧ d.residue = m % 2 ^ 32 ∧ t.mem = s.mem)) ∧
  (∀ (s : State) (port inst gen loc entry xid off : Nat) (last : Bool) (bytes : List Byte), s.live = true →
    s.hostUp port = true → 1 ≤ bytes.length → bytes.length ≤ 4096 → (gen = 0 ∨ s.genOf inst ≠ gen) →
    ∃ t, exec (.dataPacket port inst gen loc entry xid off last bytes) s = .next t ∧
      t.rd (R.MLK_STALE_IN port) = (s.rd (R.MLK_STALE_IN port) + 1) % 2 ^ 64 ∧ t = { s with csr := t.csr }) ∧
  (∀ (s : State) (key xid : Nat) (c : Cmd) (w : Write) (x : Xfer), s.live = true → Tab.get s.cmds key = some c →
    Tab.get s.writes key = some w → (w.reqs.find? fun x => x.xid == xid && !x.sat) = some x →
    let port := (Tab.at s.queues c.g).port
    (1000000 * s.fld (R.MLK_CFG port) F.MLK_CFG_XFER_TO ≤ x.idle → ∃ t, exec (.xferTimeout key xid) s = .next t ∧
      Done s t key c Status.dataUnderrun (x.len - x.got) 0 ∧ Tab.get t.writes key = none ∧ t.mem = s.mem) ∧
    (x.idle < 1000000 * s.fld (R.MLK_CFG port) F.MLK_CFG_XFER_TO → exec (.xferTimeout key xid) s = .next s))

/-- R423, R427 to R430: an image that passes every check is loaded under its number, its kernels in the code stores of
their lanterns; a pipeline without runs is unloaded, and one with runs is not. -/
def Obligations.Pipelines : Prop :=
  ∀ (s : State) (key : Nat) (c : Cmd),
    (∀ (num : Nat) (kernels : List (Nat × Nat × Nat)) (chds : List (Nat × List Nat)) (folds : List Nat) (r : Region),
      Due s key 0x48 c → Tab.get s.regions (c.p 0 4) = some r → r.inst = c.inst → c.p 8 8 % 64 = 0 →
      let a := r.base + c.p 8 8
      let len := fieldAt (s.hbmRead a 64) 8 4
      let img := s.hbmRead a len
      c.p 8 8 + 64 ≤ r.size → c.p 8 8 + len ≤ r.size → Clean s a len → bitAt (fieldAt img 16 1) 0 = false →
      s.pipeSigReq = false → imageFault s.imageMinorMax img = none → s.pipeQuota c.inst img = false →
      s.pipes.countP (·.2.inst == c.inst) < 64 → s.pipes.length < 65535 → s.codeRoom img = true →
      s.chdRoom img = true → Img.entries img 7 32 ≤ s.freeFolds.length → 1 ≤ num → num ≤ 65535 →
      Tab.get s.pipes num = none → s.kernelsOk img kernels = true → s.chdsOk img chds = true →
      folds.length = Img.entries img 7 32 → folds.eraseDups.length = folds.length →
      (∀ f ∈ folds, f ∈ s.freeFolds) →
      ∃ t p, exec (.pipelineLoad key num kernels chds folds) s = .next t ∧ Done s t key c 0 0 num ∧
        Tab.get t.pipes num = some p ∧ p.inst = c.inst ∧ p.gen = c.gen ∧ p.img = img ∧ p.kernels = kernels ∧
        (∀ m, m ≠ num → Tab.get t.pipes m = Tab.get s.pipes m) ∧
        Journalled t (jBody s.now (c.journal 0x0B c.inst num 0 (fieldAt img 24 8))) ∧
        (∀ k n, kernels = [k] → chds = [] → s.lanternOf k.1 = some n → Memory.wf s.mem = true →
          t.peek (codeKey n k.2.2) (kernelBytes img k.2.1).length = kernelBytes img k.2.1)) ∧
    (∀ p, Due s key 0x49 c → Tab.get s.pipes (c.p 0 2) = some p → p.inst = c.inst →
      (s.pipeBusy c.inst (c.p 0 2) = false → ∃ t, exec (.pipelineUnload key) s = .next t ∧ Done s t key c 0 0 0 ∧
        Tab.get t.pipes (c.p 0 2) = none ∧ (∀ m, m ≠ c.p 0 2 → Tab.get t.pipes m = Tab.get s.pipes m) ∧
        Journalled t (jBody s.now (c.journal 0x0C c.inst (c.p 0 2) p.imageId 0))) ∧
      (s.pipeBusy c.inst (c.p 0 2) = true → ∃ t, exec (.pipelineUnload key) s = .next t ∧
        Done s t key c Status.busy 0 0 ∧ t.pipes = s.pipes))

/-- R561, R599, R777, R838 to R844: what the device tells of itself goes to host memory as whole records, and the command
completes once that is confirmed. -/
def Obligations.Census : Prop :=
  ∀ (s : State) (key : Nat) (c : Cmd), c.started = false →
    (Due s key 0x01 c → c.p 0 8 + 4096 ≤ 2 ^ 64 → ∃ t b, exec (.identify key) s = .next t ∧ Begun t key ∧
      HeldWrite t (.data key) (c.p 0 8) b ∧ b.length = 4096 ∧ b.take 5 = [0x4B, 0x58, 0x50, 0x32, 0xA1] ∧
      fieldAt b 16 2 = c.inst % 2 ^ 16 ∧ fieldAt b 18 2 = c.gen % 2 ^ 16 ∧
      fieldAt b 24 8 = (s.capOf c.inst 2 - s.heldMem c.inst) % 2 ^ 64 ∧ slice b 64 16 = (List.range 16).map Config.serialByte) ∧
    (∀ n : Nat, Due s key 0x08 c → 0 < n → c.p 24 8 + 64 * n ≤ 2 ^ 64 →
      (let log := s.logRecords (c.p 0 1) c.inst
       ((log.filter fun r => c.p 8 8 ≤ r.1).take (c.p 16 4)).length = n → (∀ r ∈ log, r.2.length = 64) →
       ∃ t d, exec (.getLog key false) s = .next t ∧ Begun t key ∧ Tab.get t.cmds key = some d ∧ d.result = n ∧
        HeldWrite t (.data key) (c.p 24 8) (((log.filter fun r => c.p 8 8 ≤ r.1).take (c.p 16 4)).flatMap (·.2)))) ∧
    (Due s key 0x08 c → (∀ r ∈ s.logRecords (c.p 0 1) c.inst, r.1 < c.p 8 8) → c.p 24 8 ≤ 2 ^ 64 →
      ∃ t, exec (.getLog key false) s = .next t ∧ ((s.held.any fun h => h.what == .data key) = false → Ends t key c 0 0) ∧
        t.held = s.held) ∧
    (Due s key 0x06 c → c.p 0 1 = 1 → c.p 4 4 = 0 → 64 ≤ c.p 16 4 → c.p 8 8 + 64 ≤ 2 ^ 64 →
      ∃ t b, exec (.getState key) s = .next t ∧ Begun t key ∧ HeldWrite t (.data key) (c.p 8 8) b ∧ b.length = 64 ∧
        fieldAt b 0 1 = 1 ∧ fieldAt b 8 8 = s.now % 2 ^ 64 ∧ fieldAt b 56 8 = s.rd R.JNL_NEXT % 2 ^ 64)

/-! ### Runs and stages -/

/-- R438 to R440, R456, R476, R560: `QUERY_RUN` queues a run; the next run of its pipeline starts once its areas have
their places, and fails when its deadline has passed. -/
def Obligations.RunStart : Prop :=
  (∀ (s : State) (key g : Nat) (c : Cmd) (p : Pipe), Due s key 0x4A c → c.started = false →
    Tab.get s.pipes (c.p 0 2) = some p → p.inst = c.inst → s.globalOf c.inst (c.p 2 2) = some g →
    ((Tab.at s.queues g).typ = 2 → ∃ t r, exec (.queryRun key) s = .next t ∧ Begun t key ∧
      Tab.get t.runs key = some r ∧ r.pipe = c.p 0 2 ∧ r.tag = c.tag ∧ r.inst = c.inst ∧ r.gen = c.gen ∧ r.resultG = g ∧
      r.delivery = c.p 4 1 ∧ r.batch = c.p 5 1 ∧ r.deadline = c.p 16 8 ∧ r.rowLimit = c.p 24 8 ∧ r.st = 0 ∧
      t = { s with cmds := t.cmds, runs := t.runs }) ∧
    ((Tab.at s.queues g).typ ≠ 2 → ∃ t, exec (.queryRun key) s = .next t ∧ Done s t key c Status.invalidQueue 0 0 ∧
      t.runs = s.runs)) ∧
  (∀ (s : State) (key : Nat) (areas scans folds : List Nat) (r : Run), s.serving = true → Tab.get s.runs key = some r →
    r.st = 0 → r.failing = false → s.runWaits key = false →
    let img := s.imgOf r
    let u := s.setRun key fun r => { r with st := 1, startT := s.now, stages := List.replicate (Img.stages img) {} }
    (∀ v, (r.deadline = 0 ∨ s.now < r.deadline) → s.runOffence (Tab.at s.cmds key) r img = none →
      s.heldMem r.inst + total ((Img.areas img).map (·.2.2)) ≤ s.capOf r.inst 2 →
      ((u.takeAreas key (Img.areas img) areas).bind fun t =>
        (t.takeScans key r.scans scans).bind fun t => t.takeFolds key (Tab.at s.pipes r.pipe).foldTabs folds) = .ok v →
      ∃ t q, exec (.runStart key areas scans folds) s = .next t ∧ Tab.get t.runs key = some q ∧ q.st = 1 ∧
        q.startT = s.now ∧ q.stages = List.replicate (Img.stages img) {} ∧
        (r.areas = [] → q.areas.map (fun a => (a.1, a.2.1, a.2.2.2)) = Img.areas img) ∧ t.cmds = s.cmds) ∧
    (0 < r.deadline → r.deadline ≤ s.now → (∀ e ∈ s.ctxs, e.2.run = key → e.2.foldOut = 0) →
      ∃ t, exec (.runStart key areas scans folds) s = .next t ∧ RunFails s t key r Status.deadlineMissed))

/-- R443, R445, R446: a stage whose waits are over starts with the tasks its descriptor asks for, each READY in the list
of its slot and priority; a stage that is at its barrier with nothing to load is complete. -/
def Obligations.Stages : Prop :=
  (∀ (s : State) (key j : Nat) (picks : List (Nat × Nat)) (r : Run), s.live = true → Tab.get s.runs key = some r →
    r.st = 1 → r.failing = false → j < r.stages.length → (r.stages.getD j {}).st = 0 →
    (r.stages.getD j {}).created = 0 →
    let img := s.imgOf r
    (r.waitsOver img j = false → exec (.stageStart key j picks) s = .next s) ∧
    (r.waitsOver img j = true → Img.st img j 1 1 = 4 → picks.length = min (Img.st img j 28 4) (2097152 - s.ctxs.length) →
      (∃ t q, exec (.stageStart key j picks) s = .next t ∧ Tab.get t.runs key = some q ∧ (q.stages.getD j {}).st = 1 ∧
        (q.stages.getD j {}).total = Img.st img j 28 4 ∧ t.cmds = s.cmds ∧ t.queues = s.queues) ∧
      (∀ i slot, picks = [(i, slot)] → i < 2097152 → Tab.get s.ctxs i = none → slot ∈ Img.slots img j →
        (s.lanternOf slot).isSome = true → ∃ t c, exec (.stageStart key j picks) s = .next t ∧
          Tab.get t.ctxs i = some c ∧ c.taskNo = 0 ∧ c.stage = j ∧ c.slot = slot ∧ c.run = key ∧ c.inst = r.inst ∧
          c.gen = r.gen ∧ c.epoch = 0 ∧ c.st = .ready ∧ i ∈ Tab.at t.ready (8 * slot + c.prio)))) ∧
  (∀ (s : State) (key j rows nulls : Nat) (r : Run), s.serving = true → Tab.get s.runs key = some r → r.st = 1 →
    r.failing = false → j < r.stages.length →
    let x := r.stages.getD j {}
    let img := s.imgOf r
    x.created = x.total → s.stageTasksDone key j = true → s.foldsFinished key j = true →
    (x.barrier = false → Img.emit img j = false → r.released img j = [] →
      ∃ t q, exec (.stageBarrier key j rows nulls) s = .next t ∧ Tab.get t.runs key = some q ∧
        q.stages.getD j {} = { x with barrier := true, loads := [] } ∧ t = { s with runs := t.runs }) ∧
    (x.barrier = true → x.loads = [] → s.loadsAt key j = [] →
      ∃ t q, exec (.stageBarrier key j rows nulls) s = .next t ∧ Tab.get t.runs key = some q ∧
        q.stages.getD j {} = { x with barrier := false, st := 2 } ∧ t = { s with runs := t.runs }))

/-- R456, R458, R475, R477, R563: `QUERY_ABORT` ends a run; so does a deadline that comes before its `END` entry;
`QUERY_STATUS` writes the record of the run. -/
def Obligations.RunEnds : Prop :=
  (∀ (s : State) (key g : Nat) (c : Cmd), Due s key 0x4B c → s.globalOf c.inst (c.p 0 2) = some g →
    (∀ k r, s.runOfTag g (c.p 2 2) = some (k, r) → k ≠ key → CanFail s k r → ∃ t, exec (.queryAbort key) s = .next t ∧
      RunFails s t k r Status.abortedHost ∧ Ends t key c 0 1) ∧
    (s.runOfTag g (c.p 2 2) = none → s.queuedRun g (c.p 2 2) = none → ∃ t, exec (.queryAbort key) s = .next t ∧
      Done s t key c 0 0 0 ∧ t.runs = s.runs)) ∧
  (∀ (s : State) (key g : Nat) (c : Cmd), Due s key 0x4C c → c.started = false → s.globalOf c.inst (c.p 0 2) = some g →
    c.p 8 8 + 64 ≤ 2 ^ 64 → ∃ t b, exec (.queryStatus key) s = .next t ∧ Begun t key ∧
      HeldWrite t (.data key) (c.p 8 8) b ∧ b.length = 64 ∧ t.runs = s.runs ∧
      (s.runOfTag g (c.p 2 2) = none → s.queuedRun g (c.p 2 2) = none → b = 0xFF :: zeros 63) ∧
      (∀ k r, s.runOfTag g (c.p 2 2) = some (k, r) → r.st ≠ 3 → fieldAt b 0 1 = r.st % 256 ∧
        fieldAt b 2 2 = r.status % 65536 ∧ fieldAt b 24 8 = r.rows % 2 ^ 64 ∧ fieldAt b 40 8 = 0)) ∧
  (∀ (s : State) (key : Nat) (r : Run), s.live = true → s.crank.gap = false → CanFail s key r → r.st ≠ 0 →
    r.endWritten = false → 0 < r.deadline →
    (r.deadline ≤ s.now → ∃ t, exec (.deadlineMissed key) s = .next t ∧ RunFails s t key r Status.deadlineMissed) ∧
    (s.now < r.deadline → exec (.deadlineMissed key) s = .next s))

/-- R444, R466 to R474: entries go to the result ring under the run's next `SEQ`, the rows of a task whole where they
fit; a full ring stalls the run; the `END` entry comes last; a stalled run fails or is suspended, and resumes. -/
def Obligations.Results : Prop :=
  (∀ (s : State) (key : Nat) (r : Run) (q : Queue), s.serving = true → Tab.get s.runs key = some r → r.st = 1 →
    r.failing = false → Tab.get s.queues r.resultG = some q → q.st = .enabled →
    let img := s.imgOf r
    (∀ i c, r.cont = none → r.deliver.find? (s.mayDeliver key) = some i → Tab.get s.ctxs i = some c → r.rowLimit = 0 →
      let rows := piecesOf (Img.rowLen img) c.emit
      let k := fitting r img rows
      let e := entryBytes r (0xA0 + r.delivery) 0 k c.taskNo 0 (s.payload r img c.stage (rows.take k))
      0 < k →
      (e.length / 64 ≤ q.room → ∃ t d, exec (.resultEntryWrite key) s = .next t ∧
        RingWrite t r.resultG q.prod e (advance q.n q.prod (e.length / 64)) 0 ∧ Tab.get t.runs key = some d ∧
        d.seq = r.seq + 1 ∧ d.rows = r.rows + k ∧ d.stallSince = none ∧ t.mem = s.mem) ∧
      (q.room < e.length / 64 → ∃ t d, exec (.resultEntryWrite key) s = .next t ∧ Tab.get t.runs key = some d ∧
        d.stallSince.isSome = true ∧ d.seq = r.seq ∧ t = { s with runs := t.runs })) ∧
    (∀ task bs, r.cont = some (task, bs) → bs.length ≤ 64 * r.batch - 64 →
      let e := entryBytes r (0xA0 + r.delivery) 0 0 task 0 bs
      e.length / 64 ≤ q.room → ∃ t d, exec (.resultEntryWrite key) s = .next t ∧
        RingWrite t r.resultG q.prod e (advance q.n q.prod (e.length / 64)) 0 ∧ Tab.get t.runs key = some d ∧
        d.cont = none ∧ d.seq = r.seq + 1 ∧ d.rows = r.rows) ∧
    (s.runOver key = true → r.endIssued = false → 1 ≤ q.room → ∃ t d, exec (.endEntryWrite key) s = .next t ∧
      RingWrite t r.resultG q.prod (entryBytes r 0xA2 0 0 0 r.rows []) (advance q.n q.prod 1) (key + 1) ∧
      Tab.get t.runs key = some d ∧ d.endIssued = true ∧ d.st = 1 ∧
      t = { s with runs := t.runs, queues := t.queues, outbox := t.outbox })) ∧
  (∀ (s : State) (key : Nat) (r : Run), s.serving = true → CanFail s key r → r.st = 1 → s.stallOver r = true →
    (r.hold = false → ∃ t, exec (.resultStall key) s = .next t ∧ RunFails s t key r Status.resultStall) ∧
    (r.hold = true → (∀ e ∈ s.ctxs, e.2.run ≠ key) → s.runningRanges key = [] → s.heldMem r.inst ≤ s.capOf r.inst 2 →
      ∃ t, exec (.resultStall key) s = .next t ∧
        Tab.get t.runs key = some { r with st := 2, saved := [], savedSize := 0, stallSince := none } ∧
        t = { s with runs := t.runs })) ∧
  (∀ (s : State) (key : Nat) (r : Run), s.serving = true → Tab.get s.runs key = some r → r.st = 2 → r.failing = false →
    r.saved = [] →
    ((Tab.at s.queues r.resultG).n ≤ 4 * (Tab.at s.queues r.resultG).room → ∃ t, exec (.runResume key) s = .next t ∧
      Tab.get t.runs key = some { r with st := 1, saved := [], savedSize := 0 } ∧
      (∀ i c, Tab.get s.ctxs i = some c → c.run = key → c.st = .discarded → ∃ d, Tab.get t.ctxs i = some d ∧
        d.st = .ready) ∧
      t = { s with runs := t.runs, ctxs := t.ctxs, ready := t.ready }) ∧
    (4 * (Tab.at s.queues r.resultG).room < (Tab.at s.queues r.resultG).n → exec (.runResume key) s = .next s))

/-! ### Tasks -/

/-- R209, R213, R214, R447, R515 to R517: a dispatched task finds its wick as the kernel header says, its wax zero but for
its parameter block; a preempted one leaves its wax and registers in its save area and finds them again. -/
def Obligations.Dispatch : Prop :=
  (∀ (s : State) (w i m : Nat) (c : Ctx) (r : Run) (k : Nat × Nat × Nat), s.live = true →
    s.bit R.DRL_CTL F.DRL_CTL_EN = true → s.wickFree w = true → Tab.get s.ctxs i = some c → c.st = .ready →
    s.slotOf (w / 17) = some m → s.mayChoose m i = true → Tab.get s.runs c.run = some r → Memory.wf s.mem = true →
    let img := s.imgOf r
    let h := Img.kernel img c.stage
    let at_ := waxKey w (32 * fieldAt h 18 2)
    let prm := s.paramBlock i (fieldAt h 20 2)
    (Tab.at s.pipes r.pipe).kernels.find? (fun k => k.1 == m && k.2.1 == Img.st img c.stage 4 2) = some k →
    s.ladderOf i (w / 17) = some none →
    ∃ t d, exec (.dispatch w i 0) s = .next t ∧ Tab.get t.ctxs i = some d ∧ d.st = .running ∧ d.pos = w ∧ d.emit = [] ∧
      d.folds = [] ∧ d.failed = 0 ∧ (t.wick w).st = 1 ∧ (t.wick w).ctx = i ∧ (t.wick w).lr = 0x3FFFF ∧
      (t.wick w).pc = k.2.2 + 384 + fieldAt h 12 4 ∧ (t.wick w).cycles = 0 ∧ (t.wick w).budget = fieldAt h 32 8 ∧
      areg (t.wick w).a 0 = 32 * fieldAt h 18 2 ∧ areg (t.wick w).a 15 = fieldAt h 24 4 ∧
      t.peek at_ prm.length = prm ∧
      (∀ a, waxKey w 0 ≤ a → a < waxKey w 0 + 0x20000 → (a < at_ ∨ at_ + prm.length ≤ a) → cellGet t.mem a = 0) ∧
      (∀ p, p ≠ w → t.wick p = s.wick p) ∧ (∀ j, j ≠ i → Tab.get t.ctxs j = Tab.get s.ctxs j) ∧
      t = { s with mem := t.mem, poison := t.poison, wicks := t.wicks, ctxs := t.ctxs, ready := t.ready,
                   delay := t.delay, csr := t.csr }) ∧
  (∀ (s : State) (w save : Nat) (c : Ctx), s.live = true → s.preemptDue w = true → (s.wick w).settled = true →
    0 < save → save < 2 ^ 32 → Tab.get s.saves save = none → Tab.get s.ctxs (s.wick w).ctx = some c →
    Memory.wf s.mem = true →
    ∃ t d k, exec (.preempt w save) s = .next t ∧ Tab.get t.ctxs (s.wick w).ctx = some d ∧ d.st = .preempted ∧
      d.save = save ∧ d.saved = true ∧ (t.wick w).st = 0 ∧ Tab.get t.saves save = some k ∧ k.a = (s.wick w).a ∧
      k.pc = (s.wick w).pc ∧ k.lr = (s.wick w).lr ∧ k.fflags = (s.wick w).fflags ∧ k.ctx = (s.wick w).ctx ∧
      t.peek (saveKey save 0) (32 * (s.wick w).waxSlots) = s.peek (waxKey w 0) (32 * (s.wick w).waxSlots) ∧
      (s.wick w).ctx ∈ Tab.at t.ready (8 * c.slot + c.prio) ∧
      (∀ p, p ≠ w → t.wick p = s.wick p)) ∧
  (∀ (s : State) (w i m : Nat) (c : Ctx) (k : Wick), s.live = true → s.bit R.DRL_CTL F.DRL_CTL_EN = true →
    s.wickFree w = true → Tab.get s.ctxs i = some c → c.st = .preempted → s.slotOf (w / 17) = some m → c.slot = m →
    s.mayChoose m i = true → Tab.get s.saves c.save = some k → k.ctx = i → k.waxSlots ≤ 4096 → Memory.wf s.mem = true →
    ∃ t d, exec (.resumeTask w i) s = .next t ∧ Tab.get t.ctxs i = some d ∧ d.st = .running ∧ d.pos = w ∧
      d.saved = false ∧ (t.wick w).st = 1 ∧ (t.wick w).a = k.a ∧ (t.wick w).pc = k.pc ∧ (t.wick w).lr = k.lr ∧
      (t.wick w).fflags = k.fflags ∧ (t.wick w).cycles = k.cycles ∧ Tab.get t.saves c.save = none ∧
      t.peek (waxKey w 0) (32 * k.waxSlots) = s.peek (saveKey c.save 0) (32 * k.waxSlots) ∧
      (∀ p, p ≠ w → t.wick p = s.wick p))

/-- R148, R305, R327, R376, R411, R453 to R456: the commit check discards a run of an old generation, fails the query of a
failed one, waits for chunks that are not verified, and passes the rest; publication makes what a passed task staged take
effect at once. -/
def Obligations.Commit : Prop :=
  (∀ (s : State) (i : Nat) (c : Ctx), s.serving = true → s.crank.gap = false → Tab.get s.ctxs i = some c →
    c.st = .ended →
    (c.gen ≠ s.genOf c.inst → ∃ t d, exec (.commitPass i) s = .next t ∧ Tab.get t.ctxs i = some d ∧ d.st = .discarded ∧
      d.emit = [] ∧ d.folds = [] ∧ d.runs = [] ∧ t.runs = s.runs ∧ t.foldMsgs = s.foldMsgs) ∧
    (c.gen = s.genOf c.inst →
      (∀ r, 1 < c.failed → CanFail s c.run r → ∃ t, exec (.commitPass i) s = .next t ∧ RunFails s t c.run r c.failed) ∧
      (c.failed = 0 → s.wickOf i = none → s.recordsOut i c.epoch = false →
        ((∀ k ∈ c.chunks, ∀ e, Tab.get s.ledger k = some e → e.st = 1) → s.gatePassed c = true → c.peers = [] →
          ∃ t, exec (.commitPass i) s = .next t ∧ Tab.get t.ctxs i = some { c with st := .passed } ∧
            t.runs = s.runs ∧ t.foldMsgs = s.foldMsgs ∧ t.wicks = s.wicks ∧
            ((s.blocks.map (·.1)).Nodup → ∀ a b, Tab.get s.blocks a = some b → b.task = i → b.dev = s.ownDev →
              b.epoch = c.epoch → b.st = 1 → Tab.get t.blocks a = some { b with st := 2 })) ∧
        (∀ k ∈ c.chunks, ∀ e, Tab.get s.ledger k = some e → e.st = 0 →
          (∀ k ∈ c.chunks, ∀ e, Tab.get s.ledger k = some e → e.st ≠ 2) → exec (.commitPass i) s = .next s)))) ∧
  (∀ (s : State) (i : Nat) (c : Ctx) (r : Run), s.serving = true → s.crank.gap = false → Tab.get s.ctxs i = some c →
    c.st = .passed → Tab.get s.runs c.run = some r → Img.owned (s.imgOf r) c.stage = [] → s.outputDirty i = false →
    ∃ t q ms, exec (.publish i) s = .next t ∧ Tab.get t.ctxs i = some { c with
        st := .committed, foldOut := c.folds.length, folds := [], runs := [], chunks := [], banks := [], peers := [] } ∧
      t.foldMsgs = s.foldMsgs ++ ms ∧ ms.map (·.body) = c.folds.map (·.body) ∧ (∀ m ∈ ms, m.ctx = i ∧ m.inst = c.inst) ∧
      Tab.get t.runs c.run = some q ∧ q.committed = r.committed + 1 ∧
      (Img.emitting (s.imgOf r) c.stage = true → c.emit ≠ [] → q.deliver = r.deliver ++ [i]) ∧
      ((s.blocks.map (·.1)).Nodup → ∀ a b, Tab.get s.blocks a = some b → b.task = i → b.dev = s.ownDev →
        b.epoch = c.epoch → b.st = 2 → Tab.get t.blocks a = some { b with st := 3 }) ∧
      t = { s with ctxs := t.ctxs, runs := t.runs, blocks := t.blocks, sruns := t.sruns, foldMsgs := t.foldMsgs,
                   mem := t.mem, poison := t.poison })

/-- R449 to R452, R459 to R461, R479, R480: the tasks of a stage that owns windows commit together on a slot, or all start
over; another task is moved alone, and starts over under the next epoch if its run has begun. -/
def Obligations.Slots : Prop :=
  (∀ (s : State) (key j slot : Nat) (r : Run), s.serving = true → s.crank.gap = false → Tab.get s.runs key = some r →
    r.failing = false → Img.owned (s.imgOf r) j ≠ [] → j < r.stages.length →
    (r.stages.getD j {}).created = (r.stages.getD j {}).total → s.openOn key j slot ≠ [] →
    (∀ i ∈ s.openOn key j slot, (Tab.at s.ctxs i).st = .passed ∧ s.outputDirty i = false) →
    ∃ t q, exec (.slotCommit key j slot) s = .next t ∧ Tab.get t.runs key = some q ∧
      (q.stages.getD j {}).slotsDone = (r.stages.getD j {}).slotsDone ++ [slot] ∧
      (∀ i ∈ s.openOn key j slot, ∃ d, Tab.get t.ctxs i = some d ∧ d.st = .committed)) ∧
  (∀ (s : State) (key j slot : Nat) (r : Run), s.live = true → Tab.get s.runs key = some r → r.st = 1 →
    r.failing = false → Img.owned (s.imgOf r) j ≠ [] → (s.ctxs.map (·.1)).Nodup →
    (∃ i c, Tab.get s.ctxs i = some c ∧ c.run = key ∧ c.stage = j ∧ c.slot = slot ∧ c.st = .running) →
    (∀ i c, Tab.get s.ctxs i = some c → c.run = key → c.epoch < 255) →
    ∃ t, exec (.slotRestart key j slot) s = .next t ∧ t.runs = s.runs ∧
      ∀ i c, Tab.get s.ctxs i = some c → c.run = key → c.stage = j → c.slot = slot → c.st ≠ .free →
        c.st ≠ .committed → c.st ≠ .discarded → ∃ d, Tab.get t.ctxs i = some d ∧ d.st = .ready ∧
          d.epoch = c.epoch + 1 ∧ d.emit = [] ∧ d.folds = [] ∧ d.failed = 0 ∧ i ∈ Tab.at t.ready (8 * slot + c.prio)) ∧
  (∀ (s : State) (i slot : Nat) (c : Ctx), s.live = true → Tab.get s.ctxs i = some c → s.mayMove i slot = true →
    Img.owned (s.imgOf (Tab.at s.runs c.run)) c.stage = [] →
    (c.st = .ready → ∃ t, exec (.migration i slot) s = .next t ∧ Tab.get t.ctxs i = some { c with slot := slot } ∧
      i ∈ Tab.at t.ready (8 * slot + c.prio) ∧ t = { s with ctxs := t.ctxs, ready := t.ready, delay := t.delay }) ∧
    (c.st = .running → c.epoch < 255 → ∃ t d, exec (.migration i slot) s = .next t ∧ Tab.get t.ctxs i = some d ∧
      d.st = .ready ∧ d.slot = slot ∧ d.epoch = c.epoch + 1 ∧ d.emit = [] ∧ d.failed = 0 ∧
      (∀ p, s.wickOf i = some p → (t.wick p).st = 0)) ∧
    (c.st = .passed → exec (.migration i slot) s = .next s))

/-- R177, R179, R192, R195, R196, R211, R215: a stalled word issues once what it waits for is there; a wick whose budget
is reached traps WATCHDOG; the data of a far load is written when its shadow has passed. -/
def Obligations.WickEvents : Prop :=
  (∀ (s : State) (pos stall : Nat) (h : Half),
    let k := s.wick pos
    k.stalled = true → k.cycles + stall < k.budget → h.op = 0x000 → Follows k →
    Issues { s with wicks := Tab.put s.wicks pos { k with stalled := false } } pos [h] →
    ∃ t, exec (.stalledWordIssue pos stall) s = .next t ∧ (t.wick pos).pc = pcAfter k ∧ (t.wick pos).stalled = false ∧
      k.cycles + stall < (t.wick pos).cycles ∧ t.mem = s.mem ∧ (∀ q, q ≠ pos → t.wick q = s.wick q)) ∧
  (∀ (s : State) (pos stall : Nat) (hs : List Half),
    let k := s.wick pos
    s.live = true → k.st = 1 → k.stalled = true → k.cycles + stall < k.budget →
    decodeWord (env s pos) (s.codeWord (pos / 17) k.pc) = .ok hs →
    (∃ x ∈ takesOf hs, (k.port x.1).filled ≤ x.2) →
    (∀ x ∈ takesOf hs, (k.port x.1).filled ≤ x.2 → k.partnerMore x.1 = true) →
    ∃ t, exec (.stalledWordIssue pos stall) s = .next t ∧ (t.wick pos).pc = k.pc ∧ (t.wick pos).stalled = true ∧
      (t.wick pos).cycles = k.cycles + stall ∧ t.mem = s.mem ∧ t.ctxs = s.ctxs) ∧
  (∀ (s : State) (pos stall : Nat) (c : Ctx),
    let k := s.wick pos
    s.live = true → k.st = 1 → (k.stalled = true ∨ stall = 0) → k.budget ≤ k.cycles + stall →
    (k.repKind ≠ 1 ∨ k.repMid = false) → Tab.get s.ctxs k.ctx = some c →
    ∃ t d, exec (.watchdog pos stall) s = .next t ∧ Tab.get t.ctxs k.ctx = some d ∧ d.st = .ended ∧
      d.failed = Status.trapWatchdog ∧ d.cycles = k.cycles + stall ∧ (t.wick pos).st = 0 ∧ t.mem = s.mem ∧
      (∀ q, q ≠ pos → t.wick q = s.wick q)) ∧
  (∀ (s : State) (pos a : Nat) (l : FarLoad), s.live = true → (s.wick pos).loads = [l] → l.arrived = false →
    l.addrs = [a] → l.wid = 32 → l.got = [none] → l.hbm = false → Memory.wf s.mem = true →
    (l.shadow = 0 → ∃ t, exec (.farLoadData pos 0) s = .next t ∧ (t.wick pos).loads = [] ∧
      t.peek (waxKey pos l.ea) 32 = s.peek a 32 ∧ SameOutside s.mem t.mem (waxKey pos l.ea) 32 ∧
      t = { s with wicks := t.wicks, mem := t.mem, poison := t.poison }) ∧
    (0 < l.shadow → ∃ t, exec (.farLoadData pos 0) s = .next t ∧
      (t.wick pos).loads = [{ l with got := [some (s.peek a 32)], arrived := true }] ∧
      t = { s with wicks := t.wicks }))

/-! ### Time -/

/-- R489 to R499, R505, R506: the reference, the pulses of TB_PPS and what they do to the counter; the oscillator.
R501 to R504: a `TIME_SET` waits for an edge, which sets the counter; without one for 3 s it completes with `BUSY`.
R507 to R509, R519, R520, R524, R525, R588, R600 to R606: the cog, the load window and the minute. -/
def Obligations.TimeAndCog : Prop :=
  (∀ (s : State), s.pins.pwrgood = true → s.ras.frozen = false → s.boot.tripped = false →
      (∀ edges, let good := if s.bit R.TB_STAT F.TB_STAT_REF_SEL then 248 ≤ edges ∧ edges ≤ 252 else 99 ≤ edges ∧ edges ≤ 101
        (good → ∃ t, exec (.refWindow edges) s = .next t ∧ t.bit R.TB_STAT F.TB_STAT_REF_OK = true ∧ t.tb.lostFor = 0 ∧
          t.fld R.TB_STAT F.TB_STAT_STATE = s.fld R.TB_STAT F.TB_STAT_STATE ∧ t = { s with csr := t.csr, tb := t.tb }) ∧
        (¬good → s.bit R.TB_STAT F.TB_STAT_REF_OK = true → ∃ t, exec (.refWindow edges) s = .next t ∧
          t.bit R.TB_STAT F.TB_STAT_REF_OK = false ∧ t.bit R.TB_ERR F.TB_ERR_REF_LOST = true ∧ t.tb.dirty = true ∧
          t.tb.now = s.tb.now ∧
          (s.fld R.TB_STAT F.TB_STAT_STATE = 1 ∨ s.fld R.TB_STAT F.TB_STAT_STATE = 2 →
            t.fld R.TB_STAT F.TB_STAT_STATE = 3 ∧ t.fld R.TB_STAT F.TB_STAT_CLEAN = 0 ∧
            t.rd R.TB_HOLDOVERS = (s.rd R.TB_HOLDOVERS + 1) % 2 ^ 64) ∧
          t = { s with csr := t.csr, tb := t.tb })) ∧
      (s.fld R.TB_STAT F.TB_STAT_STATE = 0 → s.tb.refKnown = true → s.bit R.TB_STAT F.TB_STAT_REF_OK = false →
        1500000000 ≤ s.tb.lostFor → ∃ t, exec .refLossTimeout s = .next t ∧ t.fld R.TB_STAT F.TB_STAT_STATE = 3 ∧
          t.tb.now = s.tb.now ∧ t = { s with csr := t.csr, tb := t.tb }) ∧
      (s.fld R.TB_STAT F.TB_STAT_STATE = 1 ∨ s.fld R.TB_STAT F.TB_STAT_STATE = 2 → 1500000000 ≤ s.tb.sinceEdge →
        ∃ t, exec .ppsTimeout s = .next t ∧ t.fld R.TB_STAT F.TB_STAT_STATE = 3 ∧
          t.bit R.TB_ERR F.TB_ERR_HOLDOVER = true ∧ t.tb.now = s.tb.now ∧ t = { s with csr := t.csr, tb := t.tb }) ∧
      (∀ samples stamp, 0 < samples → stamp ≤ s.now →
        (samples < 13 → ∃ t, exec (.ppsPulse samples stamp) s = .next t ∧
          t.rd R.TB_RUNTS = (s.rd R.TB_RUNTS + 1) % 2 ^ 64 ∧ t = { s with csr := t.csr }) ∧
        (∀ l, 13 ≤ samples → s.tb.lastEdge = some l → stamp < l + 900000000 → ∃ t, exec (.ppsPulse samples stamp) s = .next t ∧
          t.rd R.TB_GLITCH = (s.rd R.TB_GLITCH + 1) % 2 ^ 64 ∧ t.tb.now = s.tb.now ∧ t.tb.lastEdge = some l ∧
          t.tb.dirty = true) ∧
        (13 ≤ samples → (∀ l, s.tb.lastEdge = some l → l + 900000000 ≤ stamp) → s.tb.tset = none →
          let r := stamp % 1000000000
          (s.bit R.TB_STAT F.TB_STAT_TIME_VALID = true → s.fld R.TB_STAT F.TB_STAT_STATE ≠ 2 →
            s.bit R.TB_CTL F.TB_CTL_SLEW_EN = true → ∃ t, exec (.ppsPulse samples stamp) s = .next t ∧
              (r ≤ 100000000 → t.tb.slew = -(r : Int)) ∧ (900000000 ≤ r → t.tb.slew = 1000000000 - (r : Int)) ∧
              (100000000 < r → r < 900000000 → t.tb.slew = 0 ∧ t.bit R.TB_ERR F.TB_ERR_PHASE = true) ∧
              t.tb.now = s.tb.now ∧ t.tb.lastEdge = some stamp ∧
              t.rd R.TB_ACCEPTED = (s.rd R.TB_ACCEPTED + 1) % 2 ^ 64) ∧
          (s.bit R.TB_STAT F.TB_STAT_TIME_VALID = false → 0 < r → r < 500000000 → s.now < 2 ^ 64 →
            ∃ t, exec (.ppsPulse samples stamp) s = .next t ∧ t.tb.now = s.now - r ∧ t.tb.lastEdge = some (stamp - r) ∧
              t.tb.slew = 0) ∧
          (∀ l, s.tb.lastEdge = some l → l + 999000000 ≤ stamp → stamp ≤ l + 1001000000 → s.tb.dirty = false →
            s.bit R.TB_STAT F.TB_STAT_REF_OK = true → s.fld R.TB_STAT F.TB_STAT_CLEAN ≤ 4 →
            ∃ t, exec (.ppsPulse samples stamp) s = .next t ∧
              t.fld R.TB_STAT F.TB_STAT_CLEAN = min 4 (s.fld R.TB_STAT F.TB_STAT_CLEAN + 1) ∧
              (3 ≤ s.fld R.TB_STAT F.TB_STAT_CLEAN → s.bit R.TB_CTL F.TB_CTL_FORCE_HOLD = false →
                t.fld R.TB_STAT F.TB_STAT_STATE = 1)))) ∧
      (39999 ≤ s.tb.slewCycles → s.fld R.TB_STAT F.TB_STAT_STATE ≠ 2 → s.bit R.TB_CTL F.TB_CTL_SLEW_EN = true →
        s.bit R.TB_STAT F.TB_STAT_TIME_VALID = true →
        (0 < s.tb.slew → ∃ t, exec .slewStep s = .next t ∧ t.tb.now = (s.tb.now + 5) % 2 ^ 64 ∧
          t.tb.slew = s.tb.slew - 1 ∧ t.tb.slewCycles = 0) ∧
        (s.tb.slew < 0 → ∃ t, exec .slewStep s = .next t ∧ t.tb.now = (s.tb.now + 3) % 2 ^ 64 ∧
          t.tb.slew = s.tb.slew + 1 ∧ t.tb.slewCycles = 0)) ∧
      (∀ ppb : Int, s.bit R.TB_STAT F.TB_STAT_REF_OK = true → 1000000000 ≤ s.tb.oscNs →
        ∃ t, exec (.oscMeasure ppb) s = .next t ∧
          (-524287 ≤ ppb → ppb ≤ 524287 → sgn 20 (t.fld R.TB_OSCTRIM F.TB_OSCTRIM_MEASURED) = ppb) ∧
          (524287 < ppb → sgn 20 (t.fld R.TB_OSCTRIM F.TB_OSCTRIM_MEASURED) = 524287) ∧
          (ppb < -524287 → sgn 20 (t.fld R.TB_OSCTRIM F.TB_OSCTRIM_MEASURED) = -524287) ∧
          (∀ o, o ≠ R.TB_OSCTRIM → t.rd o = s.rd o) ∧ t.tb = { s.tb with oscNs := 0 } ∧
          t = { s with csr := t.csr, tb := t.tb })) ∧
  ((∀ (s : State) (key : Nat) (c : Cmd), Due s key 0x1E c → c.started = false →
      (c.p 0 8 % 1000000000 = 0 → 1000000000 ≤ c.p 0 8 → s.tb.tset = none → ∃ t, exec (.timeSet key) s = .next t ∧
        Begun t key ∧ t.tb = { s.tb with tset := some (c.p 0 8, key, s.tb.mono) } ∧
        t = { s with cmds := t.cmds, tb := t.tb }) ∧
      (c.p 0 8 % 1000000000 ≠ 0 ∨ c.p 0 8 < 1000000000 → ∃ t, exec (.timeSet key) s = .next t ∧
        Done s t key c Status.invalidField (c.fieldResidue 0) 0 ∧ t.tb = s.tb) ∧
      (c.p 0 8 % 1000000000 = 0 → 1000000000 ≤ c.p 0 8 → s.tb.tset.isSome = true → ∃ t, exec (.timeSet key) s = .next t ∧
        Done s t key c Status.busy 0 0 ∧ t.tb = s.tb)) ∧
    (∀ (s : State) (key v recv : Nat) (c : Cmd), s.pins.pwrgood = true → s.ras.frozen = false → s.boot.tripped = false →
      s.tb.tset = some (v, key, recv) → Tab.get s.cmds key = some c →
      (recv + 3000000000 ≤ s.tb.mono → ∃ t, exec .timeSetTimeout s = .next t ∧ Done s t key c Status.busy 0 0 ∧
        t.tb = { s.tb with tset := none }) ∧
      (s.tb.mono < recv + 3000000000 → exec .timeSetTimeout s = .next s) ∧
      (∀ samples stamp, 13 ≤ samples → stamp ≤ s.now → (∀ l, s.tb.lastEdge = some l → l + 900000000 ≤ stamp) →
        recv + 4 + (s.now - stamp) ≤ s.tb.mono → ∃ t, exec (.ppsPulse samples stamp) s = .next t ∧
          t.tb.now = (v + (s.now - stamp)) % 2 ^ 64 ∧ t.tb.tset = none ∧ t.tb.lastEdge = some v ∧
          t.bit R.TB_STAT F.TB_STAT_TIME_VALID = true ∧ Ends t key c 0 0))) ∧
  ((∀ (s : State), s.live = true →
      (s.fld R.DRL_COGCFG F.DRL_COGCFG_PERIOD ≤ s.tb.cogNs → ∃ t, exec .cog s = .next t ∧ t.cog = (s.cog + 1) % 2 ^ 32 ∧
        t.tb = { s.tb with cogNs := s.tb.cogNs - s.fld R.DRL_COGCFG F.DRL_COGCFG_PERIOD, winCogs := s.tb.winCogs + 1 } ∧
        (∀ l d i c rest, l < 16 → Tab.at s.delay l = (d, i) :: rest → isDue ((s.cog + 1) % 2 ^ 32) d = true →
          Tab.get s.ctxs i = some c → ∃ e, Tab.get t.ctxs i = some e ∧ e.st = .ready ∧
            i ∈ Tab.at t.ready (8 * c.slot + c.prio)) ∧
        ((∀ l d i rest, Tab.at s.delay l = (d, i) :: rest → isDue ((s.cog + 1) % 2 ^ 32) d = false) →
          t.ctxs = s.ctxs ∧ t.ready = s.ready ∧ ∀ l, Tab.at t.delay l = Tab.at s.delay l) ∧
        t = { s with cog := t.cog, tb := t.tb, ctxs := t.ctxs, ready := t.ready, delay := t.delay }) ∧
      (s.tb.cogNs < s.fld R.DRL_COGCFG F.DRL_COGCFG_PERIOD → exec .cog s = .next s) ∧
      (s.fld R.DRL_COGCFG F.DRL_COGCFG_LOADWIN ≤ s.tb.winCogs → ∃ t, exec .loadWindow s = .next t ∧
        t.tb = { s.tb with winCogs := 0, windows := (s.tb.windows + 1) % 2 ^ 24 } ∧
        (∀ i x, Tab.get s.insts i = some x → Tab.get t.insts i = some { x with lastShare := x.curShare, curShare := 0 }) ∧
        (∀ p, Tab.get t.wicks p = (Tab.get s.wicks p).map fun k => { k with lastBusy := k.busy % 2 ^ 40, busy := 0 }) ∧
        t = { s with tb := t.tb, insts := t.insts, wicks := t.wicks })) ∧
    (∀ (s : State) (val : Nat), s.live = true →
      let p := val % 2 ^ 20
      let w := val / 2 ^ 20 % 2 ^ 16
      ((∀ e ∈ s.delay, e.2 = []) → 100 ≤ p → p ≤ 1000000 → 1 ≤ w →
        ∃ t, exec (.cogcfgWrite .lamplighter val) s = .next t ∧ t.fld R.DRL_COGCFG F.DRL_COGCFG_PERIOD = p ∧
          t.fld R.DRL_COGCFG F.DRL_COGCFG_LOADWIN = w ∧ (∀ o, o ≠ R.DRL_COGCFG → t.rd o = s.rd o) ∧
          t = { s with csr := t.csr }) ∧
      ((∀ e ∈ s.delay, e.2 = []) → p < 100 ∨ 1000000 < p → 1 ≤ w →
        ∃ t, exec (.cogcfgWrite .lamplighter val) s = .next t ∧
          t.fld R.DRL_COGCFG F.DRL_COGCFG_PERIOD = s.fld R.DRL_COGCFG F.DRL_COGCFG_PERIOD ∧
          t.fld R.DRL_COGCFG F.DRL_COGCFG_LOADWIN = w ∧ t.bit R.DRL_ERR F.DRL_ERR_BADCFG = true ∧ t = { s with csr := t.csr }) ∧
      (∀ e ∈ s.delay, e.2 ≠ [] → ∃ t, exec (.cogcfgWrite .lamplighter val) s = .next t ∧
        t.rd R.DRL_COGCFG = s.rd R.DRL_COGCFG ∧ t.bit R.DRL_ERR F.DRL_ERR_COG_BUSY = true ∧ t = { s with csr := t.csr })) ∧
    (∀ (s : State), s.pins.pwrgood = true → s.ras.frozen = false → s.boot.tripped = false →
      s.tb.boundary + 60000000000 ≤ s.now →
      ∃ t, exec .minuteBoundary s = .next t ∧ t.tb.boundary = s.tb.boundary + 60000000000 ∧
        t.tb.minutes = s.tb.minutes + 1 ∧ t.tb.now = s.tb.now ∧
        (∀ i x, Tab.get s.insts i = some x → Tab.get t.insts i = some { x with counts := {}, seen := x.st != 0 } ∧
          (x.st ≠ 0 → s.heldMinutes < 64 → ∃ r ∈ t.tally, r.inst = i ∧ r.gen = x.gen ∧ r.counts = x.counts ∧
            r.end_ = s.tb.boundary + 60000000000) ∧
          (x.st ≠ 0 → 64 ≤ s.heldMinutes → ∃ r ∈ t.merges, r.inst = i)) ∧
        (64 ≤ s.heldMinutes → t.tally = s.tally ∧
          t.rd R.INST_TALLY_MERGES = (s.rd R.INST_TALLY_MERGES + 1) % 2 ^ 64) ∧
        t = { s with csr := t.csr, tb := t.tb, insts := t.insts, tally := t.tally, merges := t.merges }))

/-! ### Reservoir and ledger -/

/-- R111 to R113, R154: a task is bound to the slot that holds its recipe, or the least recently used idle slot is filled
with it; a faulty copy fails the task, as does a chunk header that fails a check of R98.
R168 to R170, R430: recipe slots through their registers: a window word is written and its slot loses `SLOT_VALID`, but
for a slot in use (`RCP_FAULT`) and a reserved value (`BADCFG`); `RCPINV` clears `SLOT_VALID` bits. -/
def Obligations.Recipes : Prop :=
  (∀ (s : State) (w slot : Nat) (fault : Bool) (j : Job) (c : Ctx), s.live = true → w < 1156 → (s.wick w).st = 1 →
      (s.wick w).job = some j → j.slot = none → s.bit (R.LAN_RSV_CTL (w / 17)) F.LAN_RSV_CTL_EN = true →
      Tab.get s.ctxs (s.wick w).ctx = some c →
      let held := (List.range 16).find? fun i => s.holdsRecipe (w / 17) (s.wick w).ctx i
      (j.ready = true → held = some slot → ∃ t, exec (.recipeSlotFill w fault) s = .next t ∧
        (t.wick w).job = some { j with slot := some slot } ∧
        t = { s with wicks := t.wicks, recSlots := t.recSlots, recClock := t.recClock }) ∧
      (j.ready = true → held = none → s.idleSlot (w / 17) = some slot → fault = false →
        ∃ t, exec (.recipeSlotFill w fault) s = .next t ∧ (t.wick w).job = some { j with slot := some slot } ∧
          t.slotValid (w / 17) slot = true ∧ t.window (w / 17) slot = Rcp.window (s.recipeOf (s.wick w).ctx) ∧
          (Tab.at t.recSlots (slotKey (w / 17) slot)).ref = some (s.recipeRef (s.wick w).ctx) ∧
          t = { s with wicks := t.wicks, recSlots := t.recSlots, recClock := t.recClock, csr := t.csr }) ∧
      (held = none → s.idleSlot (w / 17) = some slot → fault = true → ∃ t, exec (.recipeSlotFill w fault) s = .next t ∧
        TaskFails t w (s.wick w).ctx c Status.uncorrectable 0 0 ∧ t.slotValid (w / 17) slot = false ∧
        t.bit (R.LAN_RSV_ERR (w / 17)) F.LAN_RSV_ERR_RCP_FAULT = true ∧
        Logged s t { kind := 8, detail := slot, addr := (s.recipeRef (s.wick w).ctx).1 * 65536 +
          (s.recipeRef (s.wick w).ctx).2, inst := c.inst, gen := c.gen, who := .reservoir }) ∧
      (∀ k ks, j.ready = false → held = some slot →
        let rcp := s.slotRecipe (w / 17) slot
        let run := Tab.at s.runs c.run
        let region := Tab.at s.regions (run.scans.getD (Img.st (s.imgOf run) c.stage 32 2) (0, 0)).1
        let off := leNat (s.peek (fieldAt c.morsel 0 8 + 16 + 8 * Rcp.b rcp k) 8)
        let check := if off % 64 ≠ 0 ∨ region.size < off + 64 then 1
          else headerCheck (s.hbmRead (region.base + off) 64) off region.size
        Rcp.withOp rcp 1 = k :: ks → check ≠ 0 → s.poisoned (region.base + off) 64 = false →
        ∃ t, exec (.recipeSlotFill w fault) s = .next t ∧
          TaskFails t w (s.wick w).ctx c Status.chunkCorrupt check off ∧
          t.bit (R.LAN_RSV_ERR (w / 17)) F.LAN_RSV_ERR_CORRUPT = true ∧
          Counts64 s t (R.LAN_RSV_CORRUPTS (w / 17)) 1 ∧ t.mem = s.mem)) ∧
  ((∀ (s : State) (who : Who) (n slot j val : Nat), s.live = true → reaches who = true → n < 68 → slot < 16 → j < 384 →
      (s.slotBusy n slot = true → ∃ t, exec (.recipeWindowWrite who n slot j val) s = .next t ∧
        FieldSet s t (R.LAN_RSV_ERR n) F.LAN_RSV_ERR_RCP_FAULT 1 ∧ RegWrite s t [R.LAN_RSV_ERR n]) ∧
      (s.slotBusy n slot = false → windowReserved (8 * j) val = true →
        ∃ t, exec (.recipeWindowWrite who n slot j val) s = .next t ∧
          FieldSet s t (R.LAN_RSV_ERR n) F.LAN_RSV_ERR_BADCFG 1 ∧ RegWrite s t [R.LAN_RSV_ERR n]) ∧
      (s.slotBusy n slot = false → windowReserved (8 * j) val = false →
        ∃ t, exec (.recipeWindowWrite who n slot j val) s = .next t ∧
          t.rd (R.LAN_RSV_WIN n (384 * slot + j)) = val % 2 ^ 64 ∧ t.slotValid n slot = false ∧
          (∀ i, i < 16 → i ≠ slot → t.slotValid n i = s.slotValid n i) ∧
          RegsBut s t [R.LAN_RSV_WIN n (384 * slot + j), R.LAN_RSV_STAT n, R.JNL_NEXT, R.JNL_STAT, R.JNL_WRAPS] ∧
          t = { s with csr := t.csr, recSlots := t.recSlots, journal := t.journal, outbox := t.outbox })) ∧
    (∀ (s : State) (who : Who) (n slot j val : Nat), reaches who = false →
      exec (.recipeWindowWrite who n slot j val) s = .next s) ∧
    (∀ (s : State) (who : Who) (n slots : Nat), s.live = true → n < 68 → ∃ t, exec (.rcpinv who n slots) s = .next t ∧
      (∀ i, i < 16 → t.slotValid n i = (s.slotValid n i && !bitAt slots i)) ∧ RegWrite s t [R.LAN_RSV_STAT n]))

/-- R131 to R133, R155 to R158, R162: the Reservoir delivers a segment's slots as far as the ports have room, and fails the
task at a chunk that fails a check; an id bitmap holds a bit for each dictionary entry. -/
def Obligations.Segments : Prop :=
  (∀ (s : State) (w : Nat) (upset : Bool) (j : Job) (slot : Nat), s.live = true → (s.wick w).st = 1 →
    (s.wick w).job = some j → j.slot = some slot → j.ready = true → j.spent = false → j.prep = [] →
    (j.pending = [] → j.done = j.count → ∃ t, exec (.segmentDeliver w [] upset) s = .next t ∧
      (t.wick w).job = some { j with spent := true } ∧ t = { s with wicks := t.wicks, csr := t.csr } ∧
      (upset = true → t.bit (R.LAN_RSV_ERR (w / 17)) F.LAN_RSV_ERR_PARITY = true)) ∧
    (∀ port bs rest, j.pending = (port, bs) :: rest → port < 0x030 →
      let p := (s.wick w).port port
      (port ∈ (s.wick w).ports.map (·.num) → p.filled < p.len → rest = [] → bs.length = 32 → Memory.wf s.mem = true →
        ∃ t d, exec (.segmentDeliver w [] false) s = .next t ∧ (t.wick w).job = some d ∧ d.pending = [] ∧
          d.spent = decide (j.done = j.count) ∧ ((t.wick w).port port).filled = p.filled + 1 ∧
          t.peek (waxKey w (p.slotEa p.filled)) 32 = bs ∧
          SameOutside s.mem t.mem (waxKey w (p.slotEa p.filled)) 32 ∧
          t = { s with wicks := t.wicks, mem := t.mem, poison := t.poison }) ∧
      (port ∈ (s.wick w).ports.map (·.num) → p.len ≤ p.filled → exec (.segmentDeliver w [] false) s = .next s)) ∧
    (j.pending = [] → j.done < j.count →
      let rcp := s.slotRecipe (w / 17) slot
      let n := min 1024 (j.count - j.done)
      (∀ u ds, s.decodeColumns w rcp (j.first + j.done) (j.first + j.done + n) j.cols [] = (u, .ok ds) →
        let seg := segmentSlots j rcp ds (j.first + j.done) n
        (∀ x ∈ seg.1.head?, ((s.wick w).ports.any (·.num == x.1)) = false) →
        ∃ t d, exec (.segmentDeliver w [] false) s = .next t ∧ (t.wick w).job = some d ∧ d.pending = seg.1 ∧
          d.done = j.done + n ∧ Counts64 s t (R.LAN_RSV_ROWS_OUT (w / 17)) seg.2.1.length) ∧
      (∀ u off check c, s.decodeColumns w rcp (j.first + j.done) (j.first + j.done + n) j.cols [] =
          (u, .error (.corrupt off check)) → Tab.get s.ctxs (s.wick w).ctx = some c →
        ∃ t, exec (.segmentDeliver w [] false) s = .next t ∧
          TaskFails t w (s.wick w).ctx c Status.chunkCorrupt check off ∧ t.mem = s.mem))) ∧
  (∀ (s : State) (w k slot : Nat) (ks : List Nat) (j : Job), s.live = true → (s.wick w).st = 1 →
    (s.wick w).job = some j → j.prep = k :: ks → j.ready = true → j.slot = some slot →
    let rcp := s.slotRecipe (w / 17) slot
    let col := j.col (Rcp.a rcp k)
    (col.dict = none → ∃ t, exec (.idBitmapBuild w) s = .next t ∧ (t.wick w).job = some { j with prep := ks } ∧
      t = { s with wicks := t.wicks }) ∧
    (∀ off hdr u es, col.dict = some (off, hdr) → s.dictionary w off hdr = (u, .ok es) →
      total ((s.bitmaps.filter (·.lantern == w / 17)).map (·.size)) + (Hd.of hdr).rows ≤ 262144 →
      (∀ b ∈ s.bitmaps, ¬(b.lantern = w / 17 ∧ b.run = (Tab.at s.ctxs (s.wick w).ctx).run ∧ b.step = k ∧
        b.dict = (Tab.at s.regions j.region).base + off)) →
      ∃ t b, exec (.idBitmapBuild w) s = .next t ∧ t.bitmaps = s.bitmaps ++ [b] ∧ b.lantern = w / 17 ∧
        b.size = (Hd.of hdr).rows ∧ b.step = k ∧ b.dict = (Tab.at s.regions j.region).base + off ∧
        (∀ i v, es[i]? = some v → bitAt b.bits i =
          predHolds (Rcp.form rcp k) (Hd.of hdr).ty (Rcp.arg64 rcp k) ((Rcp.consts rcp k).getD []) v) ∧
        Counts64 s t (R.LAN_RSV_BMP_BUILDS (w / 17)) 1 ∧ t.mem = s.mem))

/-- R142 to R149: the ledger takes each block's first report; a chunk is VERIFIED when the CRC of its blocks is that of its
header, and fails the tasks that read it when it is not; missing blocks are fetched when every planned task has
reported. -/
def Obligations.LedgerReports : Prop :=
  (∀ (s : State) (r : Report) (rest : List Report) (e : Machine.Ledger), s.live = true → s.reports = r :: rest →
    Tab.get s.ledger r.entry = some e → e.st = 0 →
    (r.last = false → (∀ b ∈ e.blocks, b.1 ≠ r.block) →
      let e' := { e with blocks := e.blocks ++ [(r.block, r.crc, r.zero)] }
      (e'.blocks.length ≠ e.blockCount → ∃ t, exec .ledgerReport s = .next t ∧ Tab.get t.ledger r.entry = some e' ∧
        t = { s with reports := rest, ledger := t.ledger }) ∧
      (e'.blocks.length = e.blockCount → e.hdr ≠ [] → e'.crc = (Hd.of e.hdr).crc →
        ((Hd.of e.hdr).kind ≠ 1 ∨ ∀ z ∈ e.nulls, z = total (e'.blocks.map (·.2.2))) →
        ∃ t, exec .ledgerReport s = .next t ∧ Tab.get t.ledger r.entry = some { e' with st := 1 } ∧
          Counts64 s t R.DRL_LED_VERIFIED 1 ∧ t = { s with reports := rest, ledger := t.ledger, csr := t.csr }) ∧
      (e'.blocks.length = e.blockCount → e.hdr ≠ [] → e'.crc ≠ (Hd.of e.hdr).crc →
        ∃ t, exec .ledgerReport s = .next t ∧ Tab.get t.ledger r.entry = some { e' with st := 2, check := 11 } ∧
          Counts64 s t R.DRL_LED_FAILED 1 ∧
          (∀ i c, Tab.get s.ctxs i = some c → c.run = e.run → r.entry ∈ c.chunks → c.st = .ended → c.failed = 0 →
            s.wickOf i = none → ∃ d, Tab.get t.ctxs i = some d ∧ d.st = .ended ∧ d.failed = Status.chunkCorrupt ∧
              d.check = 11 ∧ d.failOff = e.off))) ∧
    (r.last = true → r.task ∉ e.who → e.blocks ≠ [] → e.blocks.length ≠ e.blockCount →
      ∃ t d, exec .ledgerReport s = .next t ∧ Tab.get t.ledger r.entry = some d ∧ d.who = e.who ++ [r.task] ∧
        d.blocks = e.blocks ∧ d.st = 0 ∧ t = { s with reports := rest, ledger := t.ledger })) ∧
  (∀ (s : State) (k : Nat) (e : Machine.Ledger), s.live = true → Tab.get s.ledger k = some e → e.st = 0 →
    e.blocks ≠ [] → (∀ t ∈ e.planned, t ∈ e.who) → e.blocks.length < e.blockCount →
    let base := (Tab.at s.regions e.region).base + e.off + 64
    let missing := (List.range e.blockCount).filter fun b => !e.blocks.any (·.1 == b)
    let size := fun b => min 4096 (e.len - 4096 * b)
    (Clean s base e.len → ∃ t d, exec (.ledgerFill k) s = .next t ∧ Tab.get t.ledger k = some d ∧ d.hdr = e.hdr ∧
      d.blocks.map (fun b => (b.1, b.2.1)) = e.blocks.map (fun b => (b.1, b.2.1)) ++
        missing.map (fun b => (b, crc32c (s.hbmRead (base + 4096 * b) (size b)))) ∧
      Counts64 s t R.DRL_LED_FILLS missing.length ∧ t.mem = s.mem) ∧
    (∀ b r, b ∈ missing → s.poisoned (base + 4096 * b) (size b) = true → CanFail s e.run r →
      ∃ t, exec (.ledgerFill k) s = .next t ∧ RunFails s t e.run r Status.uncorrectable))

/-! ### Exchanges -/

/-- R322 to R334, R653 to R656: a whole record leaves for the lantern or device its hash names, one credit a flit; a flit's
record lands in a block of its producer and partition; a peer packet is delivered, answered or forwarded. -/
def Obligations.Exchanges : Prop :=
  (∀ (s : State) (w p stall : Nat) (c : Ctx), s.live = true → w < 1156 → (s.wick w).st = 1 → p < 16 →
    0x020 + p ∈ (s.wick w).ports.map (·.num) → s.bit (R.LAN_XCH_CTL (w / 17)) F.LAN_XCH_CTL_EN = true →
    Tab.get s.ctxs (s.wick w).ctx = some c →
    let img := s.imgOf (Tab.at s.runs c.run)
    let d := Img.st img c.stage (192 + p) 1
    let lx := Img.xch img d 2 2
    let port := drawRecord s w lx ((s.wick w).port (0x020 + p)) 1024
    let rec_ := port.carry.take lx
    0 < lx →
    (port.carry.length < lx → ∃ t, exec (.exchangeSend w p stall) s = .next t ∧ t.flits = s.flits ∧
      t = { s with wicks := t.wicks, csr := t.csr }) ∧
    (lx ≤ port.carry.length →
      (∀ dest slot, s.recordRoute img d (fieldAt rec_ 0 8) c.inst = .lantern dest slot →
        ((flitPieces rec_).length ≤ s.creditsLeft dest (w / 17) → ∃ t, exec (.exchangeSend w p stall) s = .next t ∧
          t.flits = s.flits ++ (flitPieces rec_).map (fun b => {
            frm := w / 17, dest := dest, run := c.run, desc := d, task := (s.wick w).ctx, epoch := c.epoch, inst := c.inst,
            gen := c.gen, dev := s.ownDev, bytes := b }) ∧
          t.creditsLeft dest (w / 17) = s.creditsLeft dest (w / 17) - (flitPieces rec_).length ∧
          ((t.wick w).port (0x020 + p)).carry = port.carry.drop lx ∧ Counts64 s t (R.LAN_XCH_RECS_OUT (w / 17)) 1 ∧
          t = { s with wicks := t.wicks, csr := t.csr, flits := t.flits, credits := t.credits }) ∧
        (s.creditsLeft dest (w / 17) < (flitPieces rec_).length → ∃ t, exec (.exchangeSend w p stall) s = .next t ∧
          ((t.wick w).port (0x020 + p)).carry = port.carry ∧ t.flits = s.flits ∧
          t = { s with wicks := t.wicks, csr := t.csr })) ∧
      (s.recordRoute img d (fieldAt rec_ 0 8) c.inst = .nowhere → ∃ t, exec (.exchangeSend w p stall) s = .next t ∧
        TaskFails t w (s.wick w).ctx c Status.trapAddress 0 0 ∧
        t.bit (R.LAN_XCH_ERR (w / 17)) F.LAN_XCH_ERR_BAD_ROUTE = true ∧ t.flits = s.flits))) ∧
  (∀ (s : State) (i : Nat) (f : XFlit), s.live = true → s.flits[i]? = some f → f.dest < 68 →
    s.bit (R.LAN_XCH_CTL f.dest) F.LAN_XCH_CTL_EN = true → (∀ e ∈ s.flits.take i, ¬(e.frm = f.frm ∧ e.dest = f.dest)) →
    let r := Tab.at s.runs f.run
    let lx := Img.xch (s.imgOf r) f.desc 2 2
    let part := fieldAt f.bytes 0 8 % 64
    let exch := Img.xch (s.imgOf r) f.desc 0 2
    (r.active = false → ∃ t, exec (.exchangeFlitReceive i) s = .next t ∧ t.flits = s.flits.eraseIdx i ∧
      t = { s with flits := t.flits, credits := t.credits, xparts := t.xparts }) ∧
    (r.active = true → s.xparts.any (sameFlow f) = false → f.dev = s.ownDev → 0 < f.bytes.length →
      (f.bytes.length < lx → ∃ t, exec (.exchangeFlitReceive i) s = .next t ∧
        t.xparts = s.xparts ++ [f] ∧ t.blocks = s.blocks ∧ t.mem = s.mem) ∧
      (lx = f.bytes.length → lx ≤ 4032 → f.gen = s.genOf f.inst → Memory.wf s.mem = true →
        (∀ a, (∀ e ∈ s.blocks, ¬Takes e.2 f part lx) → s.probeSpills f.run f.desc part = false →
          s.freeHere f.run f.desc f.dest = some a → ∃ t b, exec (.exchangeFlitReceive i) s = .next t ∧
            Tab.get t.blocks a = some b ∧ b.run = f.run ∧ b.desc = f.desc ∧ b.lantern = f.dest ∧ b.part = part ∧
            b.epoch = f.epoch ∧ b.task = f.task ∧ b.inst = f.inst ∧ b.gen = f.gen ∧ b.bytes = lx ∧ b.st = 1 ∧
            b.hbm = false ∧ t.peek a 64 = blockHeader exch b ∧ t.peek (a + 64) lx = f.bytes ∧
            SameOutside s.mem t.mem a (64 + lx) ∧ t.flits = s.flits.eraseIdx i ∧
            Counts64 s t (R.LAN_XCH_RECS_IN f.dest) 1) ∧
        (∀ r, (∀ e ∈ s.blocks, ¬Takes e.2 f part lx) → s.freeLanding f.run f.desc f.dest part = none → CanFail s f.run r →
          ∃ t, exec (.exchangeFlitReceive i) s = .next t ∧ RunFails s t f.run r Status.spillFull ∧
            t.bit (R.LAN_XCH_ERR f.dest) F.LAN_XCH_ERR_SPILL_FULL = true)) ∧
      (lx = f.bytes.length → f.gen ≠ s.genOf f.inst → ∃ t, exec (.exchangeFlitReceive i) s = .next t ∧
        t.blocks = s.blocks ∧ t.mem = s.mem ∧ Counts64 s t (R.LAN_XCH_STALE f.dest) 1))) ∧
  (∀ (s : State) (port src dst hops : Nat), s.peerDue port = true →
    (dst = s.ownDev →
      (∀ inst gen slot task exch epoch bytes n run d, s.lanternOf slot = some n → s.runFor inst exch = some (run, d) →
        0 < s.creditsLeft n (68 + port) → 0 < bytes.length →
        ∃ t, exec (.recordsPacket port src dst hops inst gen slot task exch epoch bytes) s = .next t ∧
          t.flits = s.flits ++ [{
            frm := 68 + port, dest := n, run := run, desc := d, task := task, epoch := epoch, inst := inst, gen := gen,
            dev := src, bytes := bytes.take 112 }] ∧
          t.creditsLeft n (68 + port) = s.creditsLeft n (68 + port) - 1 ∧
          t = { s with flits := t.flits, credits := t.credits, insts := t.insts }) ∧
      (∀ task epoch flits, (∀ q ∈ s.peerIns, ¬(q.dev = src ∧ q.task = task ∧ q.epoch = epoch)) →
        (0 < flits → ∃ t, exec (.markPacket port src dst hops task epoch flits) s = .next t ∧
          t.peerIns = s.peerIns ++ [{ dev := src, task := task, epoch := epoch, port := port, mark := some flits }] ∧
          t = { s with peerIns := t.peerIns }) ∧
        (flits = 0 → s.routeOf src = none → src ≠ s.ownDev → (s.blocks.map (·.1)).Nodup →
          ∃ t, exec (.markPacket port src dst hops task epoch flits) s = .next t ∧ t.peerIns = s.peerIns ∧
            (∀ a b, Tab.get s.blocks a = some b → b.dev = src → b.task = task → b.epoch = epoch →
              Tab.get t.blocks a = some { b with st := 3 }) ∧
            (∀ a b, Tab.get s.blocks a = some b → b.dev = src → b.task = task → b.epoch ≠ epoch → b.st ≠ 3 →
              Tab.get t.blocks a = none))) ∧
      (∀ task epoch c, Tab.get s.ctxs task = some c → c.epoch = epoch →
        ∃ t, exec (.markAck port src dst hops task epoch) s = .next t ∧ Tab.get t.ctxs task = some { c with
          peers := c.peers.map fun p => if p.1 = src then (p.1, p.2.1, true, p.2.2.2) else p } ∧
          t = { s with ctxs := t.ctxs }) ∧
      (∀ lost i c r, Tab.get s.ctxs i = some c → c.st ≠ .free → c.st ≠ .committed → lost ∈ c.peers.map (·.1) →
        CanFail s c.run r → ∃ t, exec (.unreachable port src dst hops lost) s = .next t ∧
          RunFails s t c.run r Status.linkLost)) ∧
    (dst ≠ s.ownDev → ∀ inst gen slot task exch epoch flits lost bytes,
      let packets : List (Instr × (Nat → Nat → Sent)) := [
        (.recordsPacket port src dst hops inst gen slot task exch epoch bytes, fun q h =>
          .peer q 1 src dst h inst gen slot task exch epoch 0 0 bytes),
        (.markPacket port src dst hops task epoch flits, fun q h => .peer q 2 src dst h 0 0 0 task 0 epoch 0 flits []),
        (.markAck port src dst hops task epoch, fun q h => .peer q 3 src dst h 0 0 0 task 0 epoch 0 0 []),
        (.unreachable port src dst hops lost, fun q h => .peer q 4 src dst h 0 0 0 0 0 0 lost 0 [])]
      ∀ x ∈ packets,
        (∀ q, s.routeOf dst = some q → s.peerUp q = true → 0 < hops → ∃ t, exec x.1 s = .next t ∧
          t.sent = s.sent ++ [x.2 q (hops - 1)] ∧ Counts64 s t (R.MLK_FORWARDS port) 1) ∧
        (s.routeOf dst = none ∨ hops = 0 → ∀ q, s.routeOf src = some q → ∃ t, exec x.1 s = .next t ∧
          t.sent = s.sent ++ [.peer q 4 s.ownDev src 3 0 0 0 0 0 0 dst 0 []] ∧ Counts64 s t (R.MLK_HOP_DROPS port) 1)))

/-! ### Chandeliers -/

/-- R252, R273, R274, R286 to R293: a `SEARCH` or `STEP` is answered with the lowest entry that matches, a handle while
more do, and nothing for a table that is not leased to the task.
R268, R271, R277 to R284, R297, R314, R315: a load applies its records in turn, in the array and in the shadow, and
stops at one it cannot apply; `CLEAR` empties the banks of a table; `CHDc_BANKb` is held while its table is valid. -/
def Obligations.Chandelier : Prop :=
  ((∀ (s : State) (w c t : Nat) (req key : List Byte) (ups : List (Nat × Nat × Nat)),
      Memory.wf s.mem = true →
      s.frontRequest w 1 = some (c, t, req, key) → 0x041 ∈ (s.wick w).ports.map (·.num) →
      let cookie := slice req 16 8
      let hash := fieldAt req 0 8
      (s.leaseHolds w c t = false → ∃ u, exec (.chdSearchServe w ups) s = .next u ∧
        Answered s u w 2 (response 0 1 0 0 0 cookie) ∧ u.bit (R.CHD_ERR c) F.CHD_ERR_LEASE_VIOL = true ∧
        Counts64 s u (R.CHD_SEARCHES c) 1 ∧ Counts64 s u (R.CHD_LEASE_VIOLS c) 1 ∧ u.chds = s.chds ∧ u.ctxs = s.ctxs) ∧
      (s.leaseHolds w c t = true → s.hashBank c t hash = none → ∃ u, exec (.chdSearchServe w ups) s = .next u ∧
        Answered s u w 2 (response 0 1 0 0 0 cookie) ∧ u.chds = s.chds) ∧
      (∀ b, s.leaseHolds w c t = true → s.hashBank c t hash = some b →
        let h := (s.upsetRows c b ups).chd c
        let n := s.bankUnits c b
        let tag := bitsOf hash 60 4
        let hits := h.matches b n tag (leNat key)
        ((∀ e, e < 2048 / n → hits e = false) → ∃ u, exec (.chdSearchServe w ups) s = .next u ∧
          Answered s u w 2 (response 0 1 0 0 0 cookie) ∧ Counts64 s u (R.CHD_SEARCHES c) 1) ∧
        (∀ e, e < 2048 / n → hits e = true → (∀ d, d < e → hits d = false) → h.verifies b n e = true →
          let index := s.fld (R.CHD_BANK c b) F.CHD_BANK_TBANK * (2048 / n) + e
          let value := (h.sideOf b e).value
          ((∀ d, e < d → d < 2048 / n → hits d = false) → ∃ u, exec (.chdSearchServe w ups) s = .next u ∧
            Answered s u w 2 (response 1 1 index value 0 cookie) ∧ Counts64 s u (R.CHD_HITS c) 1 ∧
            (∀ x, Tab.get s.ctxs (s.wick w).ctx = some x → ∃ y, Tab.get u.ctxs (s.wick w).ctx = some y ∧
              (32 * c + b, s.fld (R.CHD_BSCRUB c b) F.CHD_BSCRUB_STARTED) ∈ y.banks)) ∧
          (∀ d, e < d → d < 2048 / n → hits d = true → ∃ u slot x, exec (.chdSearchServe w ups) s = .next u ∧
            Answered s u w 2 (response 3 1 index value (handleWord c slot x.seq) cookie) ∧
            Tab.get (u.chd c).handles slot = some x ∧ x.task = (s.wick w).ctx ∧ x.table = t ∧ x.bank = b ∧
            x.key = leNat key ∧ x.tag = tag ∧ x.last = e ∧ Counts64 s u (R.CHD_MULTIS c) 1)))) ∧
    (∀ (s : State) (w c t : Nat) (req key : List Byte) (ups : List (Nat × Nat × Nat)),
      Memory.wf s.mem = true →
      s.frontRequest w 2 = some (c, t, req, key) → 0x041 ∈ (s.wick w).ports.map (·.num) →
      let cookie := slice req 16 8
      (s.leaseHolds w c t = true → s.goodHandle w c t (fieldAt req 0 8) = none →
        ∃ u, exec (.chdStepServe w ups) s = .next u ∧ Answered s u w 1 (response 0x80 2 0 0 0 cookie) ∧
          Counts64 s u (R.CHD_STEPS c) 1 ∧ Counts64 s u (R.CHD_BADHANDLES c) 1 ∧ u.chds = s.chds) ∧
      (∀ i x, s.leaseHolds w c t = true → s.goodHandle w c t (fieldAt req 0 8) = some (i, x) →
        let b := x.bank
        let h := (s.upsetRows c b ups).chd c
        let n := s.bankUnits c b
        let hits := h.matches b n x.tag x.key
        ((∀ e, x.last < e → e < 2048 / n → hits e = false) → ∃ u, exec (.chdStepServe w ups) s = .next u ∧
          Answered s u w 1 (response 0 2 0 0 0 cookie) ∧ Tab.get (u.chd c).handles i = none) ∧
        (∀ e, x.last < e → e < 2048 / n → hits e = true → (∀ d, x.last < d → d < e → hits d = false) →
          h.verifies b n e = true →
          let index := s.fld (R.CHD_BANK c b) F.CHD_BANK_TBANK * (2048 / n) + e
          let value := (h.sideOf b e).value
          ((∀ d, e < d → d < 2048 / n → hits d = false) → ∃ u, exec (.chdStepServe w ups) s = .next u ∧
            Answered s u w 1 (response 1 2 index value 0 cookie) ∧ Tab.get (u.chd c).handles i = none) ∧
          (∀ d, e < d → d < 2048 / n → hits d = true → ∃ u y, exec (.chdStepServe w ups) s = .next u ∧
            Answered s u w 1 (response 3 2 index value (fieldAt req 0 8 % 2 ^ 50) cookie) ∧
            Tab.get (u.chd c).handles i = some y ∧ y.last = e ∧ y.seq = x.seq ∧ y.key = x.key))))) ∧
  ((∀ (s : State) (who : Who) (c val : Nat), s.live = true → c < 4 → bitAt val 22 = true → bitAt val 23 = false →
      let n := bitsOf val 0 17
      let tb := bitsOf val 17 5
      (n = 0 ∨ 65536 < n → ∃ t, exec (.chdGo who c val) s = .next t ∧
        FieldSet s t (R.CHD_ERR c) F.CHD_ERR_BADCFG 1 ∧ RegWrite s t [R.CHD_LOAD_CTL c, R.CHD_ERR c]) ∧
      (1 ≤ n → n ≤ 65536 → (s.chd c).load = none → ∃ t, exec (.chdGo who c val) s = .next t ∧
        (t.chd c).load = some (tb, s.fld (R.CHD_LOAD_ADDR c) F.CHD_LOAD_ADDR_ADDR, n, 0, s.tableRun c tb) ∧
        t.bit (R.CHD_STAT c) F.CHD_STAT_LOADING = true ∧ t.bit (R.CHD_TABLE c tb) F.CHD_TABLE_LOADING = true ∧
        (∀ e ∈ (t.chd c).handles, e.2.table ≠ tb) ∧
        t = { s with chds := t.chds, csr := t.csr, journal := t.journal, outbox := t.outbox })) ∧
    (∀ (s : State) (who : Who) (c val : Nat), s.live = true → c < 4 → bitAt val 23 = true → bitAt val 22 = false →
      let tb := bitsOf val 17 5
      ∃ t, exec (.chdClear who c val) s = .next t ∧
        (∀ b e, b ∈ s.tableBanks c tb → e < 2048 → ((t.chd c).sideOf b e).valid = false) ∧
        (∀ b a, b ∈ s.tableBanks c tb → s.shadowAt c b 0 ≤ a → a < s.shadowAt c b 0 + 32768 → cellGet t.mem a = 0) ∧
        (∀ b e, b ∉ s.tableBanks c tb → e < 2048 → (t.chd c).sideOf b e = (s.chd c).sideOf b e) ∧
        (∀ a, (∀ b ∈ s.tableBanks c tb, a < s.shadowAt c b 0 ∨ s.shadowAt c b 0 + 32768 ≤ a) →
          cellGet t.mem a = cellGet s.mem a) ∧
        (∀ e ∈ (t.chd c).handles, e.2.table ≠ tb) ∧
        t = { s with chds := t.chds, mem := t.mem, poison := t.poison, csr := t.csr, journal := t.journal,
                     outbox := t.outbox }) ∧
    (∀ (s : State) (c tb a n i run : Nat), s.live = true → c < 4 → (s.chd c).load = some (tb, a, n, i, run) →
      let rec_ := s.hbmRead (a + 64 * i) 64
      let hash := fieldAt rec_ 0 8
      let more (t : State) : Prop := (t.chd c).load = if n ≤ i + 1 then none else some (tb, a, n, i + 1, run)
      (s.poisoned (a + 64 * i) 64 = false →
        (fieldAt rec_ 12 1 = 1 →
          (∀ b e, s.hashBank c tb hash = some b → e < 2048 / s.bankUnits c b → ((s.chd c).sideOf b e).valid = false →
            (∀ d, d < e → ((s.chd c).sideOf b d).valid = true) →
            let u := s.bankUnits c b
            let row (k : Nat) := u * e + k
            ∃ t, exec (.chdInsert c) s = .next t ∧ more t ∧ (t.chd c).sideOf b e =
                { valid := true, tag := bitsOf hash 60 4, value := fieldAt rec_ 8 4 } ∧
              (∀ k, k < u → (∀ j, j < u → j ≠ k → Tab.get (s.chd c).remap (2048 * b + row j) = none ∨
                  Tab.get (s.chd c).remap (2048 * b + row j) ≠ Tab.get (s.chd c).remap (2048 * b + row k)) →
                (t.chd c).row b (row k) = { data := fieldAt rec_ (32 + 8 * k) 8, wrote := fieldAt rec_ (32 + 8 * k) 8 }) ∧
              (Memory.wf s.mem = true → ∀ k, k < u → t.peek (s.shadowAt c b (row k)) 16 = shadowRecord (fieldAt rec_ (32 + 8 * k) 8)
                (bitsOf hash 60 4) true (k == 0) (fieldAt rec_ 8 4))) ∧
          (∀ r, CanFail s run r → (s.hashBank c tb hash = none ∨ ∃ b, s.hashBank c tb hash = some b ∧
              ∀ e, e < 2048 / s.bankUnits c b → ((s.chd c).sideOf b e).valid = true) →
            ∃ t, exec (.chdInsert c) s = .next t ∧ RunFails s t run r Status.tableLoadFailed ∧ (t.chd c).load = none ∧
              t.rd (R.CHD_LOAD_STAT c) = (1 + i * 256) % 2 ^ 64)) ∧
        (fieldAt rec_ 12 1 = 2 →
          (∀ b, s.hashBank c tb hash = some b →
            let u := s.bankUnits c b
            let hits e := (s.chd c).matches b u (bitsOf hash 60 4) (leNat (slice rec_ 32 (8 * u))) e &&
              ((s.chd c).sideOf b e).value == fieldAt rec_ 8 4
            (∀ e, e < 2048 / u → hits e = true → (∀ d, d < e → hits d = false) → ∃ t, exec (.chdDelete c) s = .next t ∧
              more t ∧ ((t.chd c).sideOf b e).valid = false ∧
              ∀ d, d < 2048 → d ≠ e → (t.chd c).sideOf b d = (s.chd c).sideOf b d) ∧
            ((∀ e, e < 2048 / u → hits e = false) → ∃ t, exec (.chdDelete c) s = .next t ∧ more t ∧
              Counts64 s t (R.CHD_DELETE_MISSES c) 1 ∧ (t.chd c).side = (s.chd c).side))) ∧
        (fieldAt rec_ 12 1 ≠ 1 → fieldAt rec_ 12 1 ≠ 2 → ∀ r, CanFail s run r → ∀ x ∈ [Instr.chdInsert c, .chdDelete c],
          ∃ t, exec x s = .next t ∧ RunFails s t run r Status.tableLoadFailed ∧ (t.chd c).load = none ∧
            t.rd (R.CHD_LOAD_STAT c) = (2 + i * 256) % 2 ^ 64)) ∧
      (s.poisoned (a + 64 * i) 64 = true → ∀ r, CanFail s run r → ∀ x ∈ [Instr.chdInsert c, .chdDelete c],
        ∃ t, exec x s = .next t ∧ RunFails s t run r Status.uncorrectable ∧ (t.chd c).load = none ∧
          t.rd (R.CHD_LOAD_STAT c) = (3 + i * 256) % 2 ^ 64)) ∧
    (∀ (s : State) (who : Who) (c b val : Nat), s.live = true → c < 4 → b < 32 →
      let held (v : Nat) := s.bit (R.CHD_TABLE c (bitsOf v 3 5)) F.CHD_TABLE_VALID
      (held (s.rd (R.CHD_BANK c b)) = true ∨ held val = true → ∃ t, exec (.bankWrite who c b val) s = .next t ∧
        FieldSet s t (R.CHD_ERR c) F.CHD_ERR_BADCFG 1 ∧ RegWrite s t [R.CHD_ERR c]) ∧
      (held (s.rd (R.CHD_BANK c b)) = false → held val = false → bitsOf val 1 2 ≠ 3 →
        ∃ t, exec (.bankWrite who c b val) s = .next t ∧ bitsOf (t.rd (R.CHD_BANK c b)) 0 13 = val % 2 ^ 13 ∧
          t.fld (R.CHD_BANK c b) F.CHD_BANK_OUT_OF_SERVICE = s.fld (R.CHD_BANK c b) F.CHD_BANK_OUT_OF_SERVICE ∧
          RegWrite s t [R.CHD_BANK c b])))

/-- R298, R299, R303, R304, R309, R310, R312: the scrubber compares a row with its shadow record; a mismatch rewrites the
row, and remaps it the second time, to a spare row while the bank has one. -/
def Obligations.Scrub : Prop :=
  (∀ (s : State) (c : Nat) (ups : List (Nat × Nat × Nat)), s.live = true → c < 4 →
    s.bit (R.CHD_CTL c) F.CHD_CTL_SCRUB_EN = true →
    let b := s.fld (R.CHD_STAT c) F.CHD_STAT_SCRUB_BANK
    let r := s.fld (R.CHD_STAT c) F.CHD_STAT_SCRUB_ROW
    let u := s.upsetRows c b ups
    let a := s.shadowAt c b r
    let again : Prop := ∀ e ∈ s.ctxs, e.2.epoch < 255
    ((s.chd c).visiting = false → s.poisoned a 16 = false → u.rowAgrees c b r = true →
      ∃ t, exec (.scrubRow c ups) s = .next t ∧ (t.chd c).visiting = true ∧
        FieldSet s t (R.CHD_BSCRUB c b) F.CHD_BSCRUB_STARTED
          ((s.fld (R.CHD_BSCRUB c b) F.CHD_BSCRUB_STARTED + 1) % 2 ^ 32) ∧
        FieldSet s t (R.CHD_STAT c) F.CHD_STAT_SCRUB_ROW ((r + 1) % 2048) ∧ t.mem = s.mem) ∧
    ((s.chd c).visiting = true → r ≠ 0 → s.poisoned a 16 = false →
      (u.rowAgrees c b r = true → ∃ t, exec (.scrubRow c ups) s = .next t ∧ t.chds = u.chds ∧
        FieldSet s t (R.CHD_STAT c) F.CHD_STAT_SCRUB_ROW ((r + 1) % 2048) ∧ t = { s with chds := t.chds, csr := t.csr }) ∧
      (u.rowAgrees c b r = false →
        let unit := leNat (s.hbmRead a 8)
        (2048 * b + r ∉ (s.chd c).suspect → ∃ t, exec (.scrubRow c ups) s = .next t ∧
          (t.chd c).row b r = { data := unit, wrote := unit } ∧ 2048 * b + r ∈ (t.chd c).suspect ∧
          (again → Counts64 s t (R.CHD_MISMATCHES c) 1) ∧ t.bit (R.CHD_ERR c) F.CHD_ERR_MISMATCH = true ∧
          (∀ e ∈ (t.chd c).handles, e.2.bank ≠ b)) ∧
        (2048 * b + r ∈ (s.chd c).suspect → s.fld (R.CHD_BSPARE c b) F.CHD_BSPARE_USED < 64 →
          ∃ t, exec (.scrubRow c ups) s = .next t ∧ (t.chd c).row b r = { data := unit, wrote := unit } ∧
            Tab.get (t.chd c).remap (2048 * b + r) = some (s.fld (R.CHD_BSPARE c b) F.CHD_BSPARE_USED) ∧
            (again → FieldSet s t (R.CHD_BSPARE c b) F.CHD_BSPARE_USED
              (s.fld (R.CHD_BSPARE c b) F.CHD_BSPARE_USED + 1) ∧ Counts64 s t (R.CHD_REMAPS c) 1)) ∧
        (2048 * b + r ∈ (s.chd c).suspect → 64 ≤ s.fld (R.CHD_BSPARE c b) F.CHD_BSPARE_USED →
          ∃ t, exec (.scrubRow c ups) s = .next t ∧ t.bit (R.CHD_BANK c b) F.CHD_BANK_OUT_OF_SERVICE = true ∧
            t.bit (R.CHD_ERR c) F.CHD_ERR_EXHAUSTED = true)))) ∧
  (∀ (s : State) (c : Nat), s.live = true → c < 4 → s.bit (R.CHD_CTL c) F.CHD_CTL_SCRUB_EN = true →
    (s.chd c).visiting = true → s.fld (R.CHD_STAT c) F.CHD_STAT_SCRUB_ROW = 0 →
    let b := s.fld (R.CHD_STAT c) F.CHD_STAT_SCRUB_BANK
    ∃ t, exec (.scrubVisitEnd c) s = .next t ∧ (t.chd c).visiting = false ∧
      FieldSet s t (R.CHD_BSCRUB c b) F.CHD_BSCRUB_DONE
        ((s.fld (R.CHD_BSCRUB c b) F.CHD_BSCRUB_DONE + 1) % 2 ^ 32) ∧
      FieldSet s t (R.CHD_STAT c) F.CHD_STAT_SCRUB_BANK ((b + 1) % 32) ∧
      (b = 31 → FieldSet s t (R.CHD_SCRUB c) F.CHD_SCRUB_PASSES
        ((s.fld (R.CHD_SCRUB c) F.CHD_SCRUB_PASSES + 1) % 2 ^ 32)) ∧
      RegsBut s t [R.CHD_BSCRUB c b, R.CHD_STAT c, R.CHD_SCRUB c] ∧ t = { s with chds := t.chds, csr := t.csr })

/-! ### Fold units and the sort ladder -/

/-- R359, R360, R365, R376 to R387, R392: a fold request changes the lines of its entry in the unit's write queue and is
acknowledged; a queued line reaches HBM; `FINISH` finishes every entry; a valid table's registers are held. -/
def Obligations.Folds : Prop :=
  (∀ (s : State) (i u : Nat) (m : FoldMsg), s.live = true → s.bit R.FOLD_CTL F.FOLD_CTL_EN = true →
    s.foldMsgs[i]? = some m →
    let x := s.foldTab m.table
    let ch := (foldPlace x m).1
    s.unitOf ch = some u → s.foldBefore i m = false → s.unitFailing ch = false →
    (Tab.at s.foldQ ch).length + x.entry / 64 ≤ 64 →
    let going : Prop := (Tab.at s.runs m.run).failing = false
    (x.valid = false ∨ (m.inst = x.inst ∧ m.gen ≠ x.gen) → ∃ t, exec (.foldRequestApply i 0) s = .next t ∧
      t.foldMsgs = s.foldMsgs.eraseIdx i ∧ (going → Counts64 s t (R.FOLD_U_STALE u) 1) ∧ t.foldQ = s.foldQ ∧ t.mem = s.mem) ∧
    (x.valid = true → m.inst ≠ x.inst → ∃ t, exec (.foldRequestApply i 0) s = .next t ∧
      t.foldMsgs = s.foldMsgs.eraseIdx i ∧ (going → Counts64 s t (R.FOLD_U_FOREIGN u) 1) ∧
      t.bit R.FOLD_ERR F.FOLD_ERR_FOREIGN = true ∧ t.foldQ = s.foldQ ∧ t.mem = s.mem) ∧
    (x.valid = true → m.inst = x.inst → m.gen = x.gen → x.finished = true →
      ∃ t, exec (.foldRequestApply i 0) s = .next t ∧ (going → Counts64 s t (R.FOLD_U_STALE u) 1) ∧
        t.bit R.FOLD_ERR F.FOLD_ERR_LATE = true ∧ t.foldQ = s.foldQ ∧ t.mem = s.mem) ∧
    (∀ pos n, x.valid = true → m.inst = x.inst → m.gen = x.gen → x.finished = false →
      let hk := le (fieldAt m.body 0 8) 8 ++ foldKey x m
      (if x.keyed then s.foldProbe x ch hk (foldPlace x m).2 (2 ^ x.share) else some ((foldPlace x m).2, 1)) = some (pos, n) →
      (∀ j, j < x.entry / 64 → s.poisoned (chanAddr ch (x.local_ pos + 64 * j)) 64 = false) →
      let old := s.chanRead ch (x.local_ pos) (x.entry / 64)
      let start := if x.keyed ∧ fieldAt old 40 1 = 0 then patch (patch old 0 hk) 40 [1] else old
      let r := applyAll x (foldInputs x m) start
      (r.2 = none → ∃ t, exec (.foldRequestApply i 0) s = .next t ∧ t.foldMsgs = s.foldMsgs.eraseIdx i ∧ t.mem = s.mem ∧
        (going → Counts64 s t (R.FOLD_U_UPDATES u) (foldInputs x m).length) ∧
        (s.foldQ = [] → x.base % 64 = 0 → t.chanRead ch (x.local_ pos) (x.entry / 64) = r.1)) ∧
      (∀ j q, r.2 = some j → Tab.get s.runs m.run = some q → q.st ≠ 3 → q.failing = false →
        ∃ t d, exec (.foldRequestApply i 0) s = .next t ∧ Tab.get t.runs m.run = some d ∧ d.failing = true ∧
          d.status = Status.aggOverflow ∧ t.bit R.FOLD_ERR F.FOLD_ERR_OVERFLOW = true)) ∧
    (∀ q, x.valid = true → m.inst = x.inst → m.gen = x.gen → x.finished = false → x.keyed = true →
      s.foldProbe x ch (le (fieldAt m.body 0 8) 8 ++ foldKey x m) (foldPlace x m).2 (2 ^ x.share) = none →
      Tab.get s.runs m.run = some q → q.st ≠ 3 → q.failing = false →
      ∃ t d, exec (.foldRequestApply i 0) s = .next t ∧ Tab.get t.runs m.run = some d ∧ d.failing = true ∧
        d.status = Status.foldTableFull ∧ t.foldQ = s.foldQ) ∧
    (∃ t, exec (.foldRequestApply i 2) s = .next t ∧ t.foldMsgs = s.foldMsgs ∧ Counts64 s t (R.FOLD_U_DPATH u) 2 ∧
      t.unitFailing ch = true ∧ t = { s with csr := t.csr, ras := t.ras })) ∧
  (∀ (s : State) (ch a : Nat) (bs : List Byte) (rest : List (Nat × List Byte)), s.live = true →
    Tab.at s.foldQ ch = (a, bs) :: rest → Memory.wf s.mem = true → ∃ t, exec (.foldLineDrain ch) s = .next t ∧ t.peek a bs.length = bs ∧
      SameOutside s.mem t.mem a bs.length ∧ (rest ≠ [] → Tab.at t.foldQ ch = rest) ∧
      (∀ c, c ≠ ch → Tab.get t.foldQ c = Tab.get s.foldQ c) ∧
      t = { s with mem := t.mem, poison := t.poison, foldQ := t.foldQ }) ∧
  (∀ (s : State) (key p tb : Nat) (r : Run), s.live = true → Tab.get s.runs key = some r → r.active = true →
    (Tab.at s.pipes r.pipe).foldTabs.find? (·.1 == p) = some (p, tb) →
    let x := s.foldTab tb
    x.valid = true → x.finished = false → s.finishDue key p = true → s.poison = [] → s.foldQ = [] → x.base % 64 = 0 →
    Memory.wf s.mem = true →
    let old (e : (Nat × Nat) × List (Nat × Nat)) := s.chanRead e.1.1 (x.local_ e.1.2) (x.entry / 64)
    let made (e : (Nat × Nat) × List (Nat × Nat)) :=
      finishEntry x (e.2.map fun q => s.chanRead q.1 (x.local_ q.2) (x.entry / 64)) (old e)
    let held (e : (Nat × Nat) × List (Nat × Nat)) : Prop := x.keyed = false ∨ fieldAt (old e) 40 1 ≠ 0
    ∃ t, exec (.foldFinish key p) s = .next t ∧ (t.foldTab tb).finished = true ∧
      ((∀ e ∈ x.results, held e → (made e).2 = none) →
        (∀ e ∈ x.results, held e → t.chanRead e.1.1 (x.local_ e.1.2) (x.entry / 64) = (made e).1) ∧ t.runs = s.runs) ∧
      (∀ e ∈ x.results, held e → (made e).2 ≠ none → ∃ q, Tab.get t.runs key = some q ∧ q.failing = true ∧
        q.status = Status.aggOverflow)) ∧
  (∀ (s : State) (who : Who) (tb k val : Nat), s.live = true → tb < 64 → k < 4 → k ≠ 0 →
    let off := R.FOLD_TBL_CFG tb + 8 * k
    let v := val &&& (if k = 1 then 2 ^ 36 - 1 else if k = 2 then 0x7F7F7F7F7F7F7F7F else 2 ^ 48 - 1)
    (s.bit (R.FOLD_TBL_CFG tb) F.FOLD_TBL_CFG_VALID = true → v ≠ s.rd off →
      ∃ t, exec (.foldTblCfgWrite who tb k val) s = .next t ∧ FieldSet s t R.FOLD_ERR F.FOLD_ERR_BADCFG 1 ∧
        RegWrite s t [R.FOLD_ERR]) ∧
    (s.bit (R.FOLD_TBL_CFG tb) F.FOLD_TBL_CFG_VALID = false →
      (k = 2 → ∀ j, j < 8 → cellReserved (bitsOf v (8 * j) 8) = false) →
      ∃ t, exec (.foldTblCfgWrite who tb k val) s = .next t ∧ t.rd off = v ∧ RegWrite s t [off]))

/-- R393 to R395, R403, R406, R409 to R416, R419 to R421: the ladder sorts a sealed run, keeps a run buffer or a heap of the
smallest, closes runs into the run area, and merges committed runs; format slots through their registers. -/
def Obligations.Sorting : Prop :=
  (∀ (s : State) (n pos no : Nat) (c : Ctx), s.live = true → s.oldestSeal n = some (pos, no) →
    let k := s.wick pos
    let recs := ((k.sealed.find? (·.no == no)).getD {}).recs
    (k.lad.mode ≠ 2 → k.lad.mode ≠ 3 → ∃ t l, exec (.ladderSort n false) s = .next t ∧ SortOf recs l ∧
      (t.wick pos).sealed = k.sealed.map (fun x => if x.no = no then { x with recs := l, sorted := true } else x) ∧
      Counts64 s t (R.LAN_SL_RUNS n) 1 ∧ t = { s with wicks := t.wicks, csr := t.csr }) ∧
    (k.lad.mode = 2 → k.bufRoom = true → Memory.wf s.mem = true → ∃ t l, exec (.ladderSort n false) s = .next t ∧ SortOf recs l ∧
      t.peek (lstoreKey n (k.lad.buf + 64 * k.bufRecs)) (64 * l.length) = bytesOfRecs l ∧
      (t.wick pos).bufRecs = k.bufRecs + l.length ∧ (t.wick pos).sealed = k.sealed.filter (·.no != no) ∧
      SameOutside s.mem t.mem (lstoreKey n (k.lad.buf + 64 * k.bufRecs)) (64 * l.length)) ∧
    (k.lad.mode = 3 → k.heap.Pairwise (· ≤ ·) → k.heap.length ≤ k.lad.topn →
      ∃ t l, exec (.ladderSort n false) s = .next t ∧ SortOf (k.heap ++ recs) l ∧ (t.wick pos).heap = l.take k.lad.topn ∧
        (t.wick pos).sealed = k.sealed.filter (·.no != no) ∧ t.mem = s.mem) ∧
    ((k.lad.mode ≠ 2 ∨ k.bufRoom = true) → Tab.get s.ctxs k.ctx = some c → ∃ t, exec (.ladderSort n true) s = .next t ∧
      TaskFails t pos k.ctx c Status.uncorrectable 0 0 ∧ t.bit (R.LAN_SL_ERR n) F.LAN_SL_ERR_PARITY = true)) ∧
  (∀ (s : State) (w a : Nat) (recs : List Nat) (c : Ctx), s.live = true → s.closeDue w = some recs →
    Tab.get s.ctxs (s.wick w).ctx = some c →
    let l := (s.wick w).lad
    (s.runRoom c.run l recs.length = true → s.runFits c.run l recs.length a = true →
      ∃ t r d, exec (.runClose w a) s = .next t ∧ Tab.get t.sruns a = some r ∧ r.run = c.run ∧ r.stage = c.stage ∧
        r.epoch = c.epoch ∧ r.inst = c.inst ∧ r.gen = c.gen ∧ r.records = recs.length ∧ r.st = 2 ∧
        Tab.get t.ctxs (s.wick w).ctx = some d ∧ d.runs = c.runs ++ [a] ∧ Counts64 s t (R.LAN_SL_CLOSES (w / 17)) 1 ∧
        (s.bit (R.LAN_SCN_CTL (w / 17)) F.LAN_SCN_CTL_EN = false → Tab.get s.sconces (w / 17) = none →
          Memory.wf s.mem = true →
          t.peek a (runBytes recs.length) = runHeader r ++ bytesOfRecs recs)) ∧
    (s.runRoom c.run l recs.length = false → ∃ t, exec (.runClose w a) s = .next t ∧
      TaskFails t w (s.wick w).ctx c Status.spillFull 0 0 ∧
      t.bit (R.LAN_SL_ERR (w / 17)) F.LAN_SL_ERR_SPILL_FULL = true ∧ t.sruns = s.sruns)) ∧
  (∀ (s : State) (w a : Nat) (c : Ctx), s.live = true → (s.wick w).st = 1 → (s.wick w).lad.mode = 4 →
    (s.wick w).merged = false → s.mergeBusy w = false → s.bit (R.LAN_SL_CTL (w / 17)) F.LAN_SL_CTL_EN = true →
    Tab.get s.ctxs (s.wick w).ctx = some c →
    (s.badRun w = none → (s.wick w).lad.output = 1 → ∃ t, exec (.sortMerge w a) s = .next t ∧
      (t.wick w).merged = true ∧ Counts64 s t (R.LAN_SL_MERGED (w / 17)) (s.mergeRecs w).length ∧
      (s.mergeRecs w ≠ [] → (t.wick w).sealed = (s.wick w).sealed ++
        [{ no := s.sealCount, sorted := true, recs := s.mergeRecs w }]) ∧
      t = { s with wicks := t.wicks, csr := t.csr, insts := t.insts }) ∧
    (∀ i, s.badRun w = some i → ∃ t, exec (.sortMerge w a) s = .next t ∧
      TaskFails t w (s.wick w).ctx c Status.trapAddress 0 0)) ∧
  (∀ (s : State) (who : Who) (n bits : Nat), s.live = true → reaches who = true → n < 68 →
    let valid (t : State) (i : Nat) : Bool := bitAt (t.fld (R.LAN_SL_STAT n) F.LAN_SL_STAT_FMT_VALID) i
    (∃ t, exec (.fmtctlSet who n bits) s = .next t ∧ (∀ i, i < 8 → valid t i = (valid s i || bitAt bits i)) ∧
      RegWrite s t [R.LAN_SL_STAT n]) ∧
    (∃ t, exec (.fmtctlClear who n bits) s = .next t ∧ (∀ i, i < 8 → valid t i = (valid s i && !bitAt bits i)) ∧
      RegWrite s t [R.LAN_SL_STAT n])) ∧
  (∀ (s : State) (who : Who) (n j val : Nat), s.live = true → reaches who = true → n < 68 → j < 64 →
    (s.fmtInUse n (j / 8) = true → ∃ t, exec (.formatWindowWrite who n j val) s = .next t ∧
      FieldSet s t (R.LAN_SL_ERR n) F.LAN_SL_ERR_FMT_BUSY 1 ∧ RegWrite s t [R.LAN_SL_ERR n]) ∧
    (s.fmtInUse n (j / 8) = false → fmtReserved val = true → ∃ t, exec (.formatWindowWrite who n j val) s = .next t ∧
      FieldSet s t (R.LAN_SL_ERR n) F.LAN_SL_ERR_BADCFG 1 ∧ RegWrite s t [R.LAN_SL_ERR n]) ∧
    (s.fmtInUse n (j / 8) = false → fmtReserved val = false → ∃ t, exec (.formatWindowWrite who n j val) s = .next t ∧
      t.rd (R.LAN_SL_FMT n j) = val % 2 ^ 64 ∧ RegWrite s t [R.LAN_SL_FMT n j]))

/-! ### Molmi Link -/

/-- R611, R615 to R621, R650 to R652, R657: how a port moves between its states, what its training learns, and how a lane
is swapped for the spare one. -/
def Obligations.LinkTraining : Prop :=
  (∀ (s : State) (who : Who) (p : Nat) (en : Bool), s.live = true → p < 6 → ∃ t, exec (.portEnable who p en) s = .next t ∧
    FieldSet s t (R.MLK_CTL p) F.MLK_CTL_EN (b2n en) ∧
    t.portState p = (if en ∧ s.portState p = 0 then 1 else if en = false ∧ (s.portState p = 5 ∨ s.portState p = 7) then 0
      else s.portState p) ∧
    (en = false → s.portState p = 5 → t.rd (R.MLK_LOSS p) = s.now % 2 ^ 64 ∧
      ∀ h ∈ t.held, h.port = p → h.tag = none)) ∧
  (∀ (s : State) (p : Nat), s.live = true → s.portActive p = true → ∃ t, exec (.retrain p) s = .next t ∧
    t.portState p = 6 ∧ t.rd (R.MLK_LOSS p) = s.now % 2 ^ 64 ∧ (t.port p).lostAt = some s.tb.mono ∧
    (t.port p).unacked = (s.port p).unacked ∧ (∀ h ∈ t.held, h.port = p → h.tag = none) ∧ t.hostMem = s.hostMem) ∧
  (∀ (s : State) (p lanes : Nat), s.live = true → p < 6 → s.portState p = 1 → 4 ≤ lanes → lanes ≤ 9 →
    ∃ t, exec (.trainingFrames p lanes) s = .next t ∧ FieldSet s t (R.MLK_STAT p) F.MLK_STAT_STATE 2 ∧
      (t.port p).entered = s.tb.mono ∧ t = { s with csr := t.csr, ports := t.ports }) ∧
  (∀ (s : State) (p good : Nat) (settled : Bool), s.live = true → p < 6 →
    settled = true ∨ (s.port p).entered + 50000000 ≤ s.tb.mono → s.portState p = 2 ∨ s.portState p = 6 →
    ∃ t, exec (.equaliseDone p good settled) s = .next t ∧
      t.portState p = (if s.portState p = 2 then 3 else 6) ∧ t.fld (R.MLK_STAT p) F.MLK_STAT_LANE_GOOD = good % 512 ∧
      (∀ l, l < 9 → t.fld (R.MLK_LANE_STAT p l) F.MLK_LANE_STAT_LOCK = bitsOf good l 1) ∧
      t = { s with csr := t.csr, ports := t.ports }) ∧
  (∀ (s : State) (p : Nat) (lanes : List (Bool × Nat × Nat)), s.live = true → p < 6 → lanes.length = 9 →
    (∀ x ∈ lanes, (x.2.1 ≤ 8 ∨ x.2.1 = 15) ∧ x.2.2 ≤ 255) → s.portState p = 3 ∨ s.portState p = 6 →
    ∃ t, exec (.alignDone p lanes) s = .next t ∧ t.portState p = (if s.portState p = 3 then 4 else 6) ∧
      (∀ l x, lanes[l]? = some x → t.fld (R.MLK_LANE_STAT p l) F.MLK_LANE_STAT_INVERTED = b2n x.1 ∧
        t.fld (R.MLK_LANE_STAT p l) F.MLK_LANE_STAT_LOGICAL = x.2.1 ∧
        t.fld (R.MLK_LANE_STAT p l) F.MLK_LANE_STAT_SKEW = x.2.2) ∧ t = { s with csr := t.csr, ports := t.ports }) ∧
  (∀ (s : State) (p mode dev good ack : Nat) (credits : List Nat) (resume : Bool), s.live = true → p < 6 → mode < 2 →
    dev < 16 → credits.length = 4 → ack < 4096 → s.portState p = 4 ∨ s.portState p = 6 →
    let own := s.fld (R.MLK_CFG p) F.MLK_CFG_MODE
    let lanes (n : Nat) := ((List.range 9).filter fun l => bitAt n l).length
    let seen := s.fld (R.MLK_STAT p) F.MLK_STAT_LANE_GOOD
    (mode ≠ own → ∃ t, exec (.configAgreement p mode dev good credits resume ack) s = .next t ∧ t.portState p = 7 ∧
      t.bit (R.MLK_ERR p) F.MLK_ERR_MODE_MISMATCH = true) ∧
    (mode = own → own = 1 → dev = s.ownDev → ∃ t, exec (.configAgreement p mode dev good credits resume ack) s = .next t ∧
      t.portState p = 7 ∧ t.bit (R.MLK_ERR p) F.MLK_ERR_ID_CLASH = true) ∧
    (mode = own → (own = 1 → dev ≠ s.ownDev) →
      (s.layoutFor p (lanes (good % 512)) = none ∨ s.layoutFor p (lanes seen) = none →
        ∃ t, exec (.configAgreement p mode dev good credits resume ack) s = .next t ∧ t.portState p = 1) ∧
      (∀ tx rx, s.layoutFor p (lanes (good % 512)) = some tx → s.layoutFor p (lanes seen) = some rx →
        resume = false → (∀ h ∈ s.held, h.inst < 2048) →
        ∃ t, exec (.configAgreement p mode dev good credits resume ack) s = .next t ∧ t.portState p = 5 ∧
          t.fld (R.MLK_STAT p) F.MLK_STAT_TX_LAYOUT = tx ∧ t.fld (R.MLK_STAT p) F.MLK_STAT_RX_LAYOUT = rx ∧
          t.fld (R.MLK_STAT p) F.MLK_STAT_RX_EXPECT = 0 ∧ (t.port p).lostAt = none))) ∧
  (∀ (s : State) (p : Nat), s.live = true → p < 6 → s.portState p ∈ [2, 3, 4, 6] →
    (s.port p).entered + 250000000 ≤ s.tb.mono → ∃ t, exec (.trainTimeout p) s = .next t ∧
      FieldSet s t (R.MLK_STAT p) F.MLK_STAT_STATE 1 ∧ Counts64 s t (R.MLK_TRAIN_FAILS p) 1 ∧
      t = { s with csr := t.csr, ports := t.ports }) ∧
  (∀ (s : State) (p : Nat), s.live = true → p < 6 → s.bit (R.MLK_CTL p) F.MLK_CTL_EN = true →
    ∃ t, exec (.refclkLoss p) s = .next t ∧ t.bit (R.MLK_ERR p) F.MLK_ERR_REFCLK = true ∧
      (s.portState p ≠ 5 → t.portState p = s.portState p)) ∧
  (∀ (s : State) (p : Nat) (counts : List Nat) (unlocked : Nat), s.live = true → s.portActive p = true →
    (s.port p).laneAt + 1000000 ≤ s.tb.mono → counts.length ≤ 9 →
    let logical (l : Nat) := s.fld (R.MLK_LANE_STAT p l) F.MLK_LANE_STAT_LOGICAL
    let bad (l : Nat) : Prop := l < 9 ∧ logical l ≠ 15 ∧
      (bitAt unlocked l = true ∨ s.fld (R.MLK_CFG p) F.MLK_CFG_LANE_TH < counts.getD l 0)
    ((∀ l, ¬bad l) → ∃ t, exec (.laneErrorWindow p counts unlocked) s = .next t ∧ t.portState p = 5 ∧
      (t.port p).laneAt = s.tb.mono ∧ (∀ l n, counts[l]? = some n → Counts64 s t (R.MLK_LANE_FEC p l) n) ∧
      t.fld (R.MLK_STAT p) F.MLK_STAT_LANE_GOOD = s.fld (R.MLK_STAT p) F.MLK_STAT_LANE_GOOD ∧
      t = { s with csr := t.csr, ports := t.ports }) ∧
    (∀ l, bad l → s.fld (R.MLK_STAT p) F.MLK_STAT_RX_LAYOUT ≠ 0 ∨ (logical l < 8 ∧ ∃ i, bad i ∧ logical i = 8) →
      ∃ t, exec (.laneErrorWindow p counts unlocked) s = .next t ∧ t.portState p = 6 ∧
        bitAt (t.fld (R.MLK_STAT p) F.MLK_STAT_LANE_GOOD) l = false) ∧
    (∀ l, bad l → (∀ i, bad i → i = l) → logical l < 8 → s.fld (R.MLK_STAT p) F.MLK_STAT_RX_LAYOUT = 0 →
      s.bit (R.MLK_CTL p) F.MLK_CTL_SWAP_EN = true → (s.port p).swapRx = none →
      ∃ t, exec (.laneErrorWindow p counts unlocked) s = .next t ∧ (t.port p).swapRx = some (logical l) ∧
        t.sent = s.sent ++ [.control p 0 (logical l)] ∧ t.portState p = 5)) ∧
  (∀ (s : State) (p k g : Nat), s.live = true → s.portActive p = true → k < 8 →
    s.fld (R.MLK_STAT p) F.MLK_STAT_TX_LAYOUT = 0 → ∃ t, exec (.swapReq p k g) s = .next t ∧
      (t.port p).swapTx = some k ∧ t.sent = s.sent ++ [.control p 1 g] ∧ t = { s with ports := t.ports, sent := t.sent }) ∧
  (∀ (s : State) (p k : Nat), s.live = true → s.portActive p = true → k < 8 →
    ((s.port p).swapTx = some k → ∃ t, exec (.swapAt p true) s = .next t ∧
      t.fld (R.MLK_STAT p) F.MLK_STAT_TX_LAYOUT = 1 ∧ t.fld (R.MLK_STAT p) F.MLK_STAT_TX_SWAPPED = k ∧
      (t.port p).swapTx = none ∧ Counts64 s t (R.MLK_SWAPS p) 1 ∧ t = { s with csr := t.csr, ports := t.ports }) ∧
    ((s.port p).swapRx = some k → ∃ t, exec (.swapAt p false) s = .next t ∧
      t.fld (R.MLK_STAT p) F.MLK_STAT_RX_LAYOUT = 1 ∧ t.fld (R.MLK_STAT p) F.MLK_STAT_RX_SWAPPED = k ∧
      (t.port p).swapRx = none ∧ Counts64 s t (R.MLK_SWAPS p) 1)) ∧
  (∀ (s : State) (p n kind arg at_ : Nat), s.live = true → s.portActive p = true →
    (s.port p).waiting[n]? = some (kind, arg, at_) → at_ + 10000 ≤ s.tb.mono → ∃ t, exec (.controlResend p n) s = .next t ∧
      t.sent = s.sent ++ [.control p kind arg] ∧ (t.port p).waiting[n]? = some (kind, arg, s.tb.mono) ∧
      t = { s with ports := t.ports, sent := t.sent })

/-- R622 to R630, R635: a flit in turn is accepted, one out of turn or damaged asks for a replay, an `ACK` releases what it
covers; `ECHO` is answered. -/
def Obligations.LinkFlits : Prop :=
  (∀ (s : State) (p uncorr : Nat) (b : List Byte), s.live = true → s.portActive p = true → b.length = 256 →
    let expect := s.fld (R.MLK_STAT p) F.MLK_STAT_RX_EXPECT
    (∀ nak, flitBad b = some nak → ∃ t, exec (.flitReceive p b uncorr) s = .next t ∧
      Counts64 s t (R.MLK_CRC_ERRS p) 1 ∧ Counts64 s t (R.MLK_FEC_UNCORR p) uncorr ∧
      t.sent = s.sent ++ (if nak ∧ (s.port p).nak = false then [.ack p ((expect + 4095) % 4096) true (s.port p).owed]
        else []) ∧ (t.port p).unacked = (s.port p).unacked ∧ (t.port p).rx = (s.port p).rx ∧
      t = { s with csr := t.csr, ports := t.ports, sent := t.sent }) ∧
    (flitBad b = none → bitAt (fieldAt b 4 2) 12 = false →
      (∃ t more, exec (.flitReceive p b uncorr) s = .next t ∧
        (t.port p).unacked = (s.port p).unacked.drop (ackCount (s.port p) (fieldAt b 4 2 % 4096)) ++ more) ∧
      (fieldAt b 0 1 = 1 → fieldAt b 2 2 = expect → ∃ t, exec (.flitReceive p b uncorr) s = .next t ∧
        t.fld (R.MLK_STAT p) F.MLK_STAT_RX_EXPECT = (expect + 1) % 4096 ∧ Counts64 s t (R.MLK_FLITS_RX p) 1) ∧
      (∀ back, fieldAt b 0 1 = 1 → 1 ≤ back → back ≤ 2048 → fieldAt b 2 2 < 4096 →
        (fieldAt b 2 2 + back) % 4096 = expect →
        ∃ t, exec (.flitReceive p b uncorr) s = .next t ∧ t.fld (R.MLK_STAT p) F.MLK_STAT_RX_EXPECT = expect ∧
          t.rd (R.MLK_FLITS_RX p) = s.rd (R.MLK_FLITS_RX p) ∧ (t.port p).rx = (s.port p).rx ∧ t.sent = s.sent) ∧
      (∀ ahead, fieldAt b 0 1 = 1 → 1 ≤ ahead → ahead < 2048 → fieldAt b 2 2 = (expect + ahead) % 4096 →
        (s.port p).nak = false → ∃ t, exec (.flitReceive p b uncorr) s = .next t ∧
          t.fld (R.MLK_STAT p) F.MLK_STAT_RX_EXPECT = expect ∧ (t.port p).rx = (s.port p).rx ∧
          t.sent = s.sent ++ [.ack p ((expect + 4095) % 4096) true (s.port p).owed] ∧ (t.port p).nak = true))) ∧
  (∀ (s : State) (p : Nat) (f : TxFlit) (fs : List TxFlit), s.live = true → s.portActive p = true →
    (s.port p).unacked = f :: fs → (s.port p).ackAt + 100 * s.fld (R.MLK_CFG p) F.MLK_CFG_REPLAY_TO ≤ s.tb.mono →
    ∃ t, exec (.replayTimeout p) s = .next t ∧ t.sent = s.sent ++ [.replay p f.seq] ∧
      (t.port p).unacked = (s.port p).unacked ∧ Counts64 s t (R.MLK_REPLAYS p) 1 ∧
      (if 8 ≤ (s.port p).replays + 1 then t.portState p = 6
       else t.portState p = 5 ∧ (t.port p).replays = (s.port p).replays + 1)) ∧
  (∀ (s : State) (p : Nat), s.live = true → s.portActive p = true →
    0 < (s.port p).fresh ∨ (s.port p).reportAt + 1000 ≤ s.tb.mono → ∃ t, exec (.ackReport p) s = .next t ∧
      t.sent = s.sent ++ [.ack p ((s.fld (R.MLK_STAT p) F.MLK_STAT_RX_EXPECT + 4095) % 4096) false (s.port p).owed] ∧
      (t.port p).fresh = 0 ∧ (t.port p).owed = [0, 0, 0, 0] ∧ t = { s with ports := t.ports, sent := t.sent }) ∧
  (∀ (s : State) (p mode dev : Nat), s.live = true → s.portActive p = true → mode < 2 → dev < 16 →
    ∃ t, exec (.hello p mode dev) s = .next t ∧ (mode = 1 → FieldSet s t (R.MLK_STAT p) F.MLK_STAT_PARTNER_DEV dev) ∧
      (mode = 0 → t = s) ∧ t = { s with csr := t.csr }) ∧
  (∀ (s : State) (p : Nat) (b : List Byte), s.live = true → s.portActive p = true → b.length ≤ 64 →
    ∃ t, exec (.echo p b) s = .next t ∧ t.sent = s.sent ++ [.mgmt p 3 b] ∧
      t = { s with csr := t.csr, ports := t.ports, sent := t.sent }) ∧
  (∀ (s : State) (p : Nat) (b : List Byte), exec (.echoReply p b) s = .next s)

/-- R635, R637, R639, R640, R657, R658, R854: a completion confirms a held write or fails it; a failed publication write is
issued again; a link that stays away loses its transactions. -/
def Obligations.LinkReads : Prop :=
  (∀ (s : State) (p tag st : Nat) (b : List Byte), s.live = true → s.hostUp p = true →
    let found := s.mrds.find? fun m => m.port == p && m.tag == tag
    (found = none → ∃ t, exec (.cpl p tag st b) s = .next t ∧ Counts64 s t (R.MLK_MALFORMED p) 1 ∧
      t = { s with csr := t.csr }) ∧
    (∀ m, found = some m → m.readBack = true → b.length ≠ (if st = 0 then 1 else 0) ∨ st = 3 →
      ∃ t, exec (.cpl p tag st b) s = .next t ∧
        Counts64 s t (R.MLK_MALFORMED p) 1 ∧ t.bit (R.MLK_ERR p) F.MLK_ERR_MALFORMED = true ∧ t.mrds = s.mrds ∧
        t.held = s.held) ∧
    (∀ m h g, found = some m → m.readBack = true → m.chan = none → s.heldBy p tag = some h →
      (h.what = .mirror g ∨ h.what = .status g) →
      (st = 0 → b.length = 1 → s.held = [h] → ∃ t, exec (.cpl p tag st b) s = .next t ∧ t.held = [] ∧
        (∀ x ∈ t.mrds, ¬(x.port = p ∧ x.tag = tag)) ∧ t.hostMem = s.hostMem ∧
        (s.fresh h.inst h.gen = true → h.what = .status g → ∀ c, Tab.get s.cmds g = some c →
          Tab.get t.cmds g = some { c with written := true })) ∧
      (st = 1 → b = [] → ∃ t, exec (.cpl p tag st b) s = .next t ∧
        { h with tag := none, failedAt := some s.tb.mono } ∈ t.held ∧ t.bit (R.MLK_ERR p) F.MLK_ERR_CPL_FAIL = true ∧
        Counts64 s t (R.MLK_CPL_FAILS p) 1 ∧ ∀ x ∈ t.mrds, ¬(x.port = p ∧ x.tag = tag)))) ∧
  (∀ (s : State) (p tag g : Nat) (m : Mrd) (h : Held), s.live = true → s.portActive p = true →
    (s.mrds.find? fun m => m.port == p && m.tag == tag) = some m → m.chan = none → 50000000 ≤ m.age →
    s.heldBy p tag = some h → h.what = .status g →
    ∃ t, exec (.cplTimeout p tag) s = .next t ∧
      t.bit (R.MLK_ERR p) F.MLK_ERR_CPL_FAIL = true ∧ Counts64 s t (R.MLK_CPL_FAILS p) 1 ∧
      (∀ x ∈ t.mrds, ¬(x.port = p ∧ x.tag = tag)) ∧
      ((s.port p).timeouts.length < 7 → t.portState p = 5 ∧ { h with tag := none, failedAt := some s.tb.mono } ∈ t.held) ∧
      (7 ≤ ((s.port p).timeouts.filter fun x => s.tb.mono < x + 1000000000).length → t.portState p = 6)) ∧
  (∀ (s : State) (p : Nat), s.live = true → s.hostUp p = true →
    ((∀ h ∈ s.held, h.port = p → h.tag = none → s.reissueDue h = false) → exec (.publicationReissue p) s = .next s) ∧
    (∀ h, s.held = [h] → h.port = p → h.tag = none → s.reissueDue h = true →
      (s.fresh h.inst h.gen = false → ∃ t, exec (.publicationReissue p) s = .next t ∧ t.held = [] ∧
        Counts64 s t (R.INST_STALE h.inst) 1 ∧ t.hostMem = s.hostMem) ∧
      (∀ tag, s.fresh h.inst h.gen = true → s.freeTag p = some tag → Memory.wf s.hostMem = true →
        ∃ t, exec (.publicationReissue p) s = .next t ∧ t.held = [{ h with tag := some tag, failedAt := none }] ∧
          cellsRead t.hostMem (hostKey p h.addr) h.bytes.length = h.bytes ∧
          SameOutside s.hostMem t.hostMem (hostKey p h.addr) h.bytes.length))) ∧
  (∀ (s : State) (p at_ : Nat), s.live = true → p < 6 → (s.port p).lostAt = some at_ →
    (at_ + 2000000000 ≤ s.tb.mono → ∃ t, exec (.linkLost p) s = .next t ∧
      t.bit (R.MLK_ERR p) F.MLK_ERR_LINK_LOST = true ∧ (t.port p).unacked = [] ∧ (t.port p).tx = [] ∧
      (t.port p).lostAt = none ∧ (t.port p).resume = false ∧ (∀ x ∈ t.mrds, x.port ≠ p) ∧
      ((∀ h ∈ s.held, h.port = p → h.what.publication = true) → ∀ key w c, Tab.get s.runs key = none →
        Tab.get s.writes key = some w → w.reqs ≠ [] → Tab.get s.cmds key = some c → c.mgmt = false →
        (Tab.at s.queues c.g).port = p → Ends t key c Status.linkLost 0)) ∧
    (s.tb.mono < at_ + 2000000000 → exec (.linkLost p) s = .next s))

/-! ### HBM, Sconces and the Chain -/

/-- R665 to R677, R703: what a stack does by itself: refresh, temperature, patrol, retraining and the retirement of
frames; the training helper runs in TRAINING alone. -/
def Obligations.Stacks : Prop :=
  (∀ (s : State) (st u : Nat), s.live = true → st < 8 → u < 16 → s.hbmReady st = true → s.refreshDue st u ≤ s.tb.mono →
    ∃ t, exec (.refresh st u) s = .next t ∧ Tab.get (t.stack st).refreshed u = some s.tb.mono ∧
      (∀ v, v ≠ u → Tab.get (t.stack st).refreshed v = Tab.get (s.stack st).refreshed v) ∧
      (∀ q, q ≠ st → t.stack q = s.stack q) ∧ t = { s with hbm := t.hbm }) ∧
  (∀ (s : State) (st temp : Nat), s.live = true → st < 8 → temp < 256 →
    s.fld (R.HBM_STAT st) F.HBM_STAT_STATE = 1 ∨ s.hbmReady st = true →
    (∀ at_, (s.stack st).readAt = some at_ → at_ + 128000 ≤ s.tb.mono) →
    ∃ t, exec (.tempReadout st temp) s = .next t ∧ t.fld (R.HBM_STAT st) F.HBM_STAT_TEMP = temp ∧
      t.fld (R.HBM_STAT st) F.HBM_STAT_HOT =
        (if 85 < temp then 1 else if temp < 80 then 0 else s.fld (R.HBM_STAT st) F.HBM_STAT_HOT) ∧
      t.fld (R.HBM_STAT st) F.HBM_STAT_STATE = s.fld (R.HBM_STAT st) F.HBM_STAT_STATE ∧
      (95 ≤ temp → t.bit (R.HBM_ERR st) F.HBM_ERR_OVERTEMP = true) ∧
      (s.fld R.TOP_THERM F.TOP_THERM_HBM_ALERT ≤ temp → t.bit R.TOP_ALERT F.TOP_ALERT_THERM = true) ∧
      (temp < s.fld R.TOP_THERM F.TOP_THERM_HBM_ALERT → t.rd R.TOP_ALERT = s.rd R.TOP_ALERT) ∧
      (t.stack st).readAt = some s.tb.mono ∧ (∀ q, q ≠ st → t.stack q = s.stack q) ∧
      t = { s with csr := t.csr, hbm := t.hbm, pins := t.pins }) ∧
  (∀ (s : State) (st dq : Nat), s.live = true → st < 8 → s.hbmReady st = true →
    s.bit (R.HBM_CTL st) F.HBM_CTL_PATROL_EN = true → s.refreshing st ((s.stack st).patrol / chanBeats) = false →
    let b := (s.stack st).patrol
    let a := chanAddr (16 * st + b / chanBeats) (b % chanBeats * 32)
    b < 16 * chanBeats →
    (s.poisoned a 32 = false →
      (∃ t, exec (.patrolRead st 0 dq) s = .next t ∧
        (t.stack st).patrol = (if b + 1 = 16 * chanBeats then 0 else b + 1) ∧
        (b + 1 = 16 * chanBeats → Counts64 s t (R.HBM_PATROLS st) 1) ∧ t = { s with hbm := t.hbm, csr := t.csr }) ∧
      (∃ t, exec (.patrolRead st 1 dq) s = .next t ∧ Counts64 s t (R.HBM_CE_COUNT st) 1 ∧
        t.bit (R.HBM_ERR st) F.HBM_ERR_CE = true ∧ t.fld (R.HBM_LASTCE st) F.HBM_LASTCE_ADDR = a ∧ t.mem = s.mem ∧
        t.poison = s.poison)) ∧
    (∃ t, exec (.patrolRead st 2 dq) s = .next t ∧ a ∈ t.poison ∧ Counts64 s t (R.HBM_UE_COUNT st) 1 ∧
      t.bit (R.HBM_ERR st) F.HBM_ERR_UE = true ∧ t.mem = s.mem)) ∧
  (∀ (s : State) (st u q dq : Nat) (w r : Int), s.live = true → st < 8 → u < 16 → q < 2 → s.hbmReady st = true →
    s.bit (R.HBM_CTL st) F.HBM_CTL_RETRAIN_EN = true → s.retrainDue st (2 * u + q) = true → dq < 36 →
    let old := Tab.at (s.stack st).delays (64 * (2 * u + q) + dq)
    ∃ t, exec (.hbmRetrain st u q [(dq, w, r)]) s = .next t ∧
      Tab.get (t.stack st).trained (2 * u + q) = some (s.tb.mono, s.fld (R.HBM_STAT st) F.HBM_STAT_TEMP) ∧
      (let new := Tab.at (t.stack st).delays (64 * (2 * u + q) + dq)
       new.1 ≤ old.1 + 4 ∧ (old.1 ≤ 127 → old.1 ≤ new.1 + 4) ∧ new.1 ≤ 127 ∧ new.2.1 ≤ old.2.1 + 4 ∧
         (old.2.1 ≤ 127 → old.2.1 ≤ new.2.1 + 4) ∧ new.2.1 ≤ 127 ∧ new.2.2 = old.2.2) ∧
      (∀ q, q ≠ st → t.stack q = s.stack q) ∧ RegsBut s t [R.HBM_RETRAINS st] ∧
      Counts64 s t (R.HBM_RETRAINS st) 1 ∧ t = { s with hbm := t.hbm, csr := t.csr }) ∧
  (∀ (s : State) (ch frame spare : Nat), s.live = true → ch < 128 → s.hbmReady (ch / 16) = true →
    (∃ e ∈ s.ras.repairing, e.1 = 5 ∧ e.2.1 = ch ∧ e.2.2.1 = frame) →
    let taken := (s.retired.filter fun e => e.1 / 4096 == ch).length
    let home := s.frameHome ch frame
    (taken < 4096 → spare < 4096 → Tab.get s.retired (4096 * ch + spare) = none →
      ∃ t, exec (.frameRetire ch frame spare []) s = .next t ∧
        Tab.get t.retired (4096 * ch + spare) = some { frame := home, valid := true, bad := false } ∧
        (∀ p, s.poolOf ch home = some p →
          Tab.get t.retired (4096 * ch + p) = some { frame := home, valid := false, bad := true }) ∧
        FieldSet s t (R.HBM_CH (ch / 16) (ch % 16)) F.HBM_CH_RETIRED (taken + 1) ∧
        Counts64 s t (R.HBM_RETIRES (ch / 16)) 1 ∧ t.mem = s.mem) ∧
    (4096 ≤ taken → ∃ t, exec (.frameRetire ch frame spare []) s = .next t ∧ t.retired = s.retired ∧
      t.bit (R.HBM_ERR (ch / 16)) F.HBM_ERR_POOL_FULL = true)) ∧
  (∀ (s : State) (who : Who) (st val fails count : Nat), s.live = true → st < 8 → reaches who = true →
    bitAt val 10 = true →
    (s.fld (R.HBM_STAT st) F.HBM_STAT_STATE = 1 → ∃ t, exec (.trnGo who st val fails count) s = .next t ∧
      t.rd (R.HBM_TRN_ERR st) = fails % 2 ^ 36 ∧ t.rd (R.HBM_TRN_CNT st) = count % 2 ^ 64 ∧
      t.fld (R.HBM_TRN_CTL st) F.HBM_TRN_CTL_CH = bitsOf val 0 4 ∧
      RegWrite s t [R.HBM_TRN_CTL st, R.HBM_TRN_ERR st, R.HBM_TRN_CNT st, R.HBM_ERR st]) ∧
    (s.fld (R.HBM_STAT st) F.HBM_STAT_STATE ≠ 1 → exec (.trnGo who st val fails count) s = .next s))

/-- R689 to R697: an access to the Sconce hits, starts a fill, or goes by it; lines are filled and written back; the
maintenance operations clean, invalidate and lock ways. -/
def Obligations.Sconces : Prop :=
  (∀ (s : State) (w n j a : Nat) (l : FarLoad), s.live = true → w < 1156 → (s.wick w).st ≠ 0 →
    (s.wick w).loads[n]? = some l → l.addrs[j]? = some a → l.got[j]? = some none → l.hbm = true → l.arrived = false →
    0 < l.wid → a % 128 + l.wid ≤ 128 →
    let lan := w / 17
    let c := Tab.at s.sconces lan
    let answered (t : State) (bs : List Byte) : Prop := ∃ m, (t.wick w).loads[n]? = some m ∧ m.got[j]? = some (some bs)
    (∀ v, c.find (a / 128) = some v → ∃ t, exec (.sconceRequest w n j 0) s = .next t ∧
      answered t (slice (c.ways.getD v {}).data (a % 128) l.wid) ∧ Counts64 s t (R.LAN_SCN_HITS lan) 1 ∧
      RegsBut s t [R.LAN_SCN_HITS lan] ∧ t = { s with wicks := t.wicks, sconces := t.sconces, csr := t.csr }) ∧
    (c.find (a / 128) = none → (∀ v ∈ c.evict, v.line ≠ a / 128) → (∀ v ∈ c.ways, v.filling = true → v.line ≠ a / 128) →
      (s.bit (R.LAN_SCN_CTL lan) F.LAN_SCN_CTL_EN = true → c.ways.length = 32 →
        let v := s.victim lan (a / 128)
        (s.way lan v).filling = false → ((s.way lan v).dirty = true → c.evict.length < 4) →
        ∃ t, exec (.sconceRequest w n j 0) s = .next t ∧ (t.way lan v).filling = true ∧ (t.way lan v).valid = false ∧
          (t.way lan v).line = a / 128 ∧ Counts64 s t (R.LAN_SCN_MISSES lan) 1 ∧ (t.wick w) = (s.wick w) ∧
          t = { s with sconces := t.sconces, csr := t.csr }) ∧
      (s.bit (R.LAN_SCN_CTL lan) F.LAN_SCN_CTL_EN = false → (∀ v ∈ c.ways, v.valid = false) →
        (s.poisoned a l.wid = false → ∃ t, exec (.sconceRequest w n j 0) s = .next t ∧
          answered t (s.hbmRead a l.wid) ∧ Counts64 s t (R.LAN_SCN_MISSES lan) 1 ∧
          t = { s with wicks := t.wicks, csr := t.csr, insts := t.insts }) ∧
        (∀ x, s.poisoned a l.wid = true → Tab.get s.ctxs (s.wick w).ctx = some x →
          ∃ t, exec (.sconceRequest w n j 0) s = .next t ∧
            TaskFails t w (s.wick w).ctx x Status.uncorrectable 0 0)))) ∧
  (∀ (s : State) (n w : Nat), s.live = true → (s.way n w).filling = true → (s.way n w).valid = false →
    let line := (s.way n w).line
    (s.poisoned (128 * line) 128 = false → ∃ t, exec (.sconceFill n w []) s = .next t ∧
      t.way n w = { line := line, valid := true, data := s.hbmRead (128 * line) 128 } ∧ t.mem = s.mem ∧
      (∀ v, v ≠ w → t.way n v = s.way n v)) ∧
    (s.poisoned (128 * line) 128 = true → ∃ t, exec (.sconceFill n w []) s = .next t ∧ t.way n w = {} ∧
      t.bit (R.HBM_ERR (chanOf (128 * line) / 16)) F.HBM_ERR_UE = true ∧ t.mem = s.mem)) ∧
  (∀ (s : State) (n : Nat) (e : Way), s.live = true → (Tab.at s.sconces n).evict.find? (·.dirty) = some e →
    Memory.wf s.mem = true → ∃ t, exec (.sconceWriteBack n) s = .next t ∧ t.peek (128 * e.line) e.data.length = e.data ∧
      SameOutside s.mem t.mem (128 * e.line) e.data.length ∧
      (Tab.at t.sconces n).evict = (Tab.at s.sconces n).evict.erase e ∧ Counts64 s t (R.LAN_SCN_WRITEBACKS n) 1) ∧
  (∀ (s : State) (who : Who) (n val : Nat), s.live = true → n < 68 → bitAt val 2 = true → bitAt val 3 = false →
    let w := bitsOf val 4 5
    let v := s.way n w
    v.filling = false → Memory.wf s.mem = true →
    let back (t : State) : Prop := v.valid = true → v.dirty = true →
      t.peek (128 * v.line) v.data.length = v.data ∧ SameOutside s.mem t.mem (128 * v.line) v.data.length
    let kept (t : State) : Prop := v.valid = false ∨ v.dirty = false → t.mem = s.mem
    (bitsOf val 0 2 = 1 → ∃ t, exec (.scnClean who n val) s = .next t ∧ back t ∧ kept t ∧
      t.way n w = (if v.valid ∧ v.dirty then { v with dirty := false } else v)) ∧
    (bitsOf val 0 2 = 2 → ∃ t, exec (.scnInvalidate who n val) s = .next t ∧ t.mem = s.mem ∧
      (t.way n w).valid = false) ∧
    (bitsOf val 0 2 = 3 → ∃ t, exec (.scnCleanInvalidate who n val) s = .next t ∧ back t ∧ kept t ∧
      (t.way n w).valid = false)) ∧
  (∀ (s : State) (who : Who) (n val : Nat), s.live = true → n < 68 → bitAt val 3 = true →
    (∀ v ∈ (Tab.at s.sconces n).ways, v.filling = false) →
    let lo := s.fld (R.LAN_SCN_ADDR n) F.LAN_SCN_ADDR_LINE
    let hi := lo + s.fld (R.LAN_SCN_RANGE n) F.LAN_SCN_RANGE_LENGTH
    (bitAt val 2 = true → ∃ t, exec (.scnRange who n val) s = .next t ∧
      FieldSet s t (R.LAN_SCN_ERR n) F.LAN_SCN_ERR_BADCFG 1 ∧ RegWrite s t [R.LAN_SCN_ERR n]) ∧
    (bitAt val 2 = false → bitsOf val 0 2 ≠ 0 → s.lanternQuiet n = false → ∃ t, exec (.scnRange who n val) s = .next t ∧
      FieldSet s t (R.LAN_SCN_ERR n) F.LAN_SCN_ERR_RANGE_REFUSED 1 ∧ RegWrite s t [R.LAN_SCN_ERR n]) ∧
    (bitAt val 2 = false → bitAt val 1 = true → s.lanternQuiet n = true → ∃ t, exec (.scnRange who n val) s = .next t ∧
      (∀ w, w < 32 → (t.way n w).valid = true → (t.way n w).line < lo ∨ hi ≤ (t.way n w).line) ∧
      (∀ w, w < 32 → (s.way n w).line < lo ∨ hi ≤ (s.way n w).line → s.lockOf n w = none → t.way n w = s.way n w) ∧
      (bitAt val 0 = false → t.mem = s.mem))) ∧
  (∀ (s : State) (who : Who) (n w val : Nat), s.live = true → n < 68 → w < 8 → (s.way n w).filling = false →
    ∃ t, exec (.scnLock who n w val) s = .next t ∧
      t.fld (R.LAN_SCN_LOCK n w) F.LAN_SCN_LOCK_LOCKED = bitsOf val 0 1 ∧
      t.fld (R.LAN_SCN_LOCK n w) F.LAN_SCN_LOCK_LINE = bitsOf val 7 33 ∧
      (bitAt val 0 = true → (t.way n w).valid = false) ∧ (bitAt val 0 = false → t.sconces = s.sconces ∧ t.mem = s.mem))

/-- R679 to R684, R687, R688: `GO` copies the shadow set into the active set and starts an IDLE channel; a burst between
device memories copies its bytes, and the last one completes the transfer; `ABORT` and `CLEAR` as the states allow. -/
def Obligations.Chains : Prop :=
  (∀ (s : State) (who : Who) (c val : Nat) (faults : List (Nat × Nat × Nat)), s.live = true → c < 64 → reaches who = true →
    bitAt val 0 = true → bitAt val 1 = false → bitAt val 2 = false →
    let armed (s : State) := s.bit (R.CHN_CSTAT c) F.CHN_CSTAT_ARMED
    (armed s = true → s.chnState c ≠ 0 → ∃ t, exec (.chainGo who c val faults) s = .next t ∧
      FieldSet s t R.CHN_ERR F.CHN_ERR_SHADOW_BUSY 1 ∧ RegsBut s t [R.CHN_ERR] ∧ t = { s with csr := t.csr }) ∧
    (armed s = false → s.chnState c ≠ 0 → ∃ t, exec (.chainGo who c val faults) s = .next t ∧
      FieldSet s t (R.CHN_CSTAT c) F.CHN_CSTAT_ARMED 1 ∧ RegsBut s t [R.CHN_CSTAT c] ∧ t = { s with csr := t.csr }) ∧
    (armed s = false → s.chnState c = 0 → s.bit R.CHN_CTL F.CHN_CTL_EN = false →
      s.fresh (bitsOf (s.rd (R.CHN_D c 7)) 8 11) (bitsOf (s.rd (R.CHN_D c 7)) 32 16) = true →
      bitsOf (s.rd (R.CHN_D c 6)) 32 13 ≠ 0 → ∃ t, exec (.chainGo who c val faults) s = .next t ∧
        t.chnState c = 1 ∧ armed t = false ∧ (∀ j, j < 8 → t.rd (R.CHN_A c j) = s.rd (R.CHN_D c j) % 2 ^ 64) ∧
        Tab.get t.chains c = some {} ∧ t.mem = s.mem)) ∧
  (∀ (s : State) (who : Who) (c val : Nat), s.live = true → c < 64 → reaches who = true → bitAt val 0 = false →
    bitAt val 1 = true → bitAt val 2 = false →
    (s.chnState c = 1 → ∃ t, exec (.chainAbort who c val) s = .next t ∧ t.chnState c = 2 ∧
      t.bit (R.CHN_CSTAT c) F.CHN_CSTAT_ARMED = false ∧ RegsBut s t [R.CHN_CSTAT c] ∧ t.mem = s.mem ∧
      t.hostMem = s.hostMem) ∧
    (s.chnState c ≠ 1 → exec (.chainAbort who c val) s = .next s)) ∧
  (∀ (s : State) (who : Who) (c val : Nat), s.live = true → c < 64 → reaches who = true → bitAt val 0 = false →
    bitAt val 1 = false → bitAt val 2 = true →
    (s.chnState c = 3 → s.bit (R.CHN_CSTAT c) F.CHN_CSTAT_ARMED = false → ∃ t, exec (.chainClear who c val) s = .next t ∧
      FieldSet s t (R.CHN_CSTAT c) F.CHN_CSTAT_STATE 0 ∧ t = { s with csr := t.csr }) ∧
    (s.chnState c ≠ 3 → exec (.chainClear who c val) s = .next s)) ∧
  (∀ (s : State) (c : Nat) (p : RawPiece), s.live = true → c < 64 → s.chnState c = 1 →
    let k := Tab.at s.chains c
    k.pos < s.chnTotal c → k.want = [] → (Tab.get s.chains c).isSome = true → s.bit R.CHN_CTL F.CHN_CTL_EN = true →
    s.fresh (s.chnInst c) (s.chnGen c) = true → s.chnHost c false = false → s.chnHost c true = false →
    s.chnBurst c k.pos = [p] → 0 ≤ p.src → 0 ≤ p.dst → p.src + p.len ≤ 0x4780000000 → p.dst + p.len ≤ 0x4780000000 →
    s.poisoned p.src.toNat p.len = false → Memory.wf s.mem = true →
    ∃ t, exec (.chainComplete c []) s = .next t ∧ t.peek p.dst.toNat p.len = s.hbmRead p.src.toNat p.len ∧
      SameOutside s.mem t.mem p.dst.toNat p.len ∧
      (k.pos + p.len < s.chnTotal c → t.chnState c = 1 ∧ (Tab.at t.chains c).pos = k.pos + p.len) ∧
      (k.pos + p.len = s.chnTotal c → s.bit (R.CHN_CSTAT c) F.CHN_CSTAT_ARMED = false → t.chnState c = 0 ∧
        t.fld (R.CHN_CSTAT c) F.CHN_CSTAT_LAST = 1 ∧ t.rd (R.CHN_RESIDUE c) = 0 ∧
        (s.chnA c 7 7 1 = 1 → bitAt (t.rd R.CHN_IRQ) c = true))) ∧
  (∀ (s : State) (c : Nat), s.live = true → c < 64 → s.chnState c = 2 → s.chnHost c true = false ∨
      (Tab.at s.chains c).pos = 0 →
    ∃ t, exec (.chainComplete c []) s = .next t ∧ t.chnState c = 0 ∧ t.fld (R.CHN_CSTAT c) F.CHN_CSTAT_LAST = 2 ∧
      t.rd (R.CHN_RESIDUE c) = (s.chnTotal c - (Tab.at s.chains c).pos) % 2 ^ 64 ∧ t.mem = s.mem) ∧
  (∀ (s : State) (c : Nat), s.live = true → c < 64 → s.chnState c = 1 →
    s.fresh (s.chnInst c) (s.chnGen c) = false → s.bit (R.CHN_CSTAT c) F.CHN_CSTAT_ARMED = false →
    ∃ t, exec (.chainComplete c []) s = .next t ∧ t.chnState c = 0 ∧ t.fld (R.CHN_CSTAT c) F.CHN_CSTAT_LAST = 4 ∧
      t.mem = s.mem)

/-! ### The Crankset -/

/-- R706 to R724: strokes are ended, copied and released; claims fence; windows and grants recognise a failure; a stoker
takes over, the gap ends, and a seat rejoins. -/
def Obligations.Seats : Prop :=
  (∀ (s : State) (cap : Nat), s.live = true → s.captain = some cap → s.crank.gap = false → s.crank.halted = false →
    ∃ t, exec .strokeEnd s = .next t ∧
      t.crank = { s.crank with stroke := s.crank.stroke + 1, copied := s.crank.stroke + 1,
                               acked := if s.attached cap then s.crank.acked else s.crank.stroke + 1 } ∧
      t = { s with crank := t.crank, pins := t.pins } ∧
      (s.bit R.CRK_CFG F.CRK_CFG_DETECT = false → t.pins = s.pins) ∧
      (s.bit R.CRK_CFG F.CRK_CFG_DETECT = true →
        (t.pins.hbA != s.pins.hbA) = (s.crank.roleA == .captain || s.crank.roleA == .stoker) ∧
        (t.pins.hbB != s.pins.hbB) = (s.crank.roleB == .captain || s.crank.roleB == .stoker))) ∧
  (∀ (s : State) (cap : Nat), s.live = true → s.captain = some cap → s.crank.gap = false → s.crank.halted = false →
    s.attached cap = true → s.crank.acked < s.crank.copied →
    exec .strokeCopy s = .next { s with crank := { s.crank with acked := s.crank.acked + 1 } }) ∧
  (∀ (s : State), s.live = true → s.crank.gap = false → s.crank.halted = false → s.crank.released < s.crank.acked →
    let n := s.crank.released
    let u : State := { s with outbox := s.outbox.filter (fun o => !decide (o.stroke ≤ n)),
                              crank := { s.crank with released := n + 1 } }.wr R.CRK_STROKE n
    ((∀ o ∈ s.outbox, n < o.stroke) → ∃ t, exec .releaseStroke s = .next t ∧ t.rd R.CRK_STROKE = n % 2 ^ 64 ∧
      t.crank = { s.crank with released := n + 1 } ∧ RegsBut s t [R.CRK_STROKE] ∧ t = { s with crank := t.crank, csr := t.csr }) ∧
    (∀ o, s.outbox.filter (fun o => decide (o.stroke ≤ n)) = [o] →
      (o.claim = s.fld R.CRK_AUTH F.CRK_AUTH_AUTH → exec .releaseStroke s = .next (u.issue o)) ∧
      (o.claim ≠ s.fld R.CRK_AUTH F.CRK_AUTH_AUTH → ∃ t, exec .releaseStroke s = .next t ∧
        FieldSet s t R.CRK_ERR F.CRK_ERR_FENCED 1 ∧ Counts64 s t R.CRK_FENCED 1 ∧ t.rd R.CRK_STROKE = n % 2 ^ 64 ∧
        RegsBut s t [R.CRK_STROKE, R.CRK_ERR, R.CRK_FENCED] ∧
        t = { s with crank := { s.crank with released := n + 1 }, csr := t.csr, outbox := u.outbox }))) ∧
  (∀ (s : State) (seat : Nat), s.live = true → seat < 2 →
    let auth := s.fld R.CRK_AUTH F.CRK_AUTH_AUTH
    (auth < s.claimOf seat → ∃ t, exec (.claimInstruction seat) s = .next t ∧
      t.fld R.CRK_AUTH F.CRK_AUTH_AUTH = s.claimOf seat ∧ t.crank.gap = true ∧ t.crank.taking = some seat ∧
      RegsBut s t [R.CRK_AUTH] ∧ t = { s with crank := t.crank, csr := t.csr }) ∧
    (s.claimOf seat < auth → ∃ t, exec (.claimInstruction seat) s = .next t ∧ FieldSet s t R.CRK_ERR F.CRK_ERR_FENCED 1 ∧
      Counts64 s t R.CRK_FENCED 1 ∧ RegsBut s t [R.CRK_ERR, R.CRK_FENCED] ∧ t = { s with csr := t.csr }) ∧
    (s.claimOf seat = auth → exec (.claimInstruction seat) s = .next s)) ∧
  (∀ (s : State) (seat : Nat) (copy wire : Bool), s.live = true → seat < 2 →
    (∀ x, x < 2 → s.role x = .captain ∨ s.role x = .stoker) → s.crank.gap = false → s.crank.halted = false →
    s.crank.taking = none →
    let w := if seat = 1 then s.crank.watchB else s.crank.watchA
    let seen (t : State) := if seat = 1 then t.crank.watchB else t.crank.watchA
    ∃ t, exec (.heartbeatWindow seat copy wire) s = .next t ∧ t.mem = s.mem ∧ t.outbox = s.outbox ∧
      (copy = true ∨ wire = true → t.crank.roleA = s.crank.roleA ∧ t.crank.roleB = s.crank.roleB ∧ t.crank.taking = none ∧
        (seen t).silent = 0) ∧
      (copy = false → wire = false → w.silent + 1 ≠ 8 → (seen t).silent = w.silent + 1 ∧ t = { s with crank := t.crank } ∧
        t.crank.roleA = s.crank.roleA ∧ t.crank.roleB = s.crank.roleB ∧ t.crank.taking = none) ∧
      (copy = false → wire = false → w.silent + 1 = 8 → s.bit R.CRK_CFG F.CRK_CFG_DETECT = true →
        t.crank.roleA = s.crank.roleA ∧ t.crank.roleB = s.crank.roleB ∧ t.crank.taking = none) ∧
      (copy = false → wire = false → w.silent + 1 = 8 → s.bit R.CRK_CFG F.CRK_CFG_DETECT = false →
        (s.role seat = .captain → t.role (other seat) = .failed ∧ t.role seat = .captain ∧
          t.bit R.CRK_ERR F.CRK_ERR_SEAT_FAIL = true ∧ RegsBut s t [R.CRK_ERR] ∧ other seat ∈ t.crank.rejoin) ∧
        (s.role seat = .stoker → s.crank.synced = true → s.crank.detached = false → s.claimOf (other seat) < 0xFFFFFFFF →
          t.crank.taking = some seat ∧ t = { s with crank := t.crank }) ∧
        (s.role seat = .stoker → s.crank.synced = false ∨ s.crank.detached = true ∨ s.claimOf (other seat) = 0xFFFFFFFF →
          t.crank.halted = true ∧ t.crank.taking = none ∧ t.bit R.CRK_ERR F.CRK_ERR_NO_STOKER = true ∧
          t.bit R.RAS_STAT F.RAS_STAT_HALTED = true ∧ t.bit R.TOP_ALERT F.TOP_ALERT_CRANK = true ∧
          RegsBut s t [R.CRK_ERR, R.RAS_STAT, R.TOP_ALERT])) ∧
      (copy = false → wire = true → w.copyLost + 1 = 8 → t.bit R.CRK_ERR F.CRK_ERR_COPY_PATH = true ∧
        Counts64 s t R.CRK_PATH_LOSSES 1 ∧ t.bit R.TOP_ALERT F.TOP_ALERT_CRANK = true ∧ t.crank.detached = true ∧
        RegsBut s t [R.CRK_ERR, R.CRK_PATH_LOSSES, R.TOP_ALERT]) ∧
      (copy = true → wire = false → w.wireLost + 1 = 8 → t.bit R.CRK_ERR F.CRK_ERR_WIRE_PATH = true ∧
        Counts64 s t R.CRK_PATH_LOSSES 1 ∧ t.bit R.TOP_ALERT F.TOP_ALERT_CRANK = true ∧
        t.crank.detached = s.crank.detached ∧ RegsBut s t [R.CRK_ERR, R.CRK_PATH_LOSSES, R.TOP_ALERT]) ∧
      (∀ st, copy = true → s.stoker = some st → s.crank.detached = true → w.copyOk + 1 = 8 → st ∈ t.crank.rejoin)) ∧
  (∀ (s : State) (a b : Bool) (cap st : Nat), s.live = true → s.captain = some cap → s.stoker = some st →
    s.bit R.CRK_CFG F.CRK_CFG_ARB_SRC = false → s.crank.taking = none → s.crank.gap = false →
    let g (x : Nat) : Bool := if x = 1 then b else a
    let pins : Pins := { s.pins with grantA := a, grantB := b }
    (s.bit R.CRK_CFG F.CRK_CFG_DETECT = true → g st = true → g cap = false → s.crank.synced = true →
      s.crank.detached = false → s.claimOf (other st) < 0xFFFFFFFF →
      exec (.grantChange a b) s = .next { s with pins := pins, crank := { s.crank with taking := some st } }) ∧
    (s.bit R.CRK_CFG F.CRK_CFG_DETECT = false ∨ g st = false ∨ g cap = true →
      exec (.grantChange a b) s = .next { s with pins := pins })) ∧
  (∀ (s : State) (seat : Nat), s.live = true → seat < 2 → s.crank.taking = some seat → s.role seat = .stoker →
    s.crank.gap = false → s.crank.halted = false → s.crank.act = none → s.claimOf (other seat) < 0xFFFFFFFF →
    let c := s.claimOf (other seat) + 1
    ∃ t, exec .takeover s = .next t ∧ t.claimOf seat = c ∧ t.claimOf (other seat) = s.claimOf (other seat) ∧
      t.fld R.CRK_AUTH F.CRK_AUTH_AUTH = c ∧ t.crank.gap = true ∧ t.crank.gapStart = s.tb.mono ∧
      t.crank.roleA = s.crank.roleA ∧ t.crank.roleB = s.crank.roleB ∧ Counts64 s t R.CRK_TAKEOVERS 1 ∧
      (∀ o ∈ t.outbox, o.claim = c ∧ o.stroke = s.crank.stroke) ∧ t.outbox.map (·.act) = s.outbox.map (·.act) ∧
      RegsBut s t [R.CRK_CLAIM, R.CRK_AUTH, R.CRK_TAKEOVERS] ∧
      t = { s with csr := t.csr, crank := t.crank, outbox := t.outbox }) ∧
  (∀ (s : State) (seat : Nat), s.live = true → seat < 2 → s.crank.taking = some seat → s.crank.gap = true →
    s.crank.halted = false →
    let cyc := min 65535 ((s.tb.mono - s.crank.gapStart) * 6 / 5)
    ∃ u, exec .releaseGap s = .next (s.crank.latched.foldl State.applyDoorbell u) ∧ u.crank.latched = [] ∧
      u.crank.gap = false ∧ u.crank.taking = none ∧ u.role seat = .captain ∧ u.role (other seat) = .failed ∧
      u.fld R.CRK_GAP F.CRK_GAP_LAST = cyc ∧ u.fld R.CRK_GAP F.CRK_GAP_MAX = max cyc (s.fld R.CRK_GAP F.CRK_GAP_MAX) ∧
      u.bit R.CRK_ERR F.CRK_ERR_SEAT_FAIL = true ∧ other seat ∈ u.crank.rejoin ∧
      Journalled u (jBody s.now { action := 0x13, old := s.claimOf (other seat), new := s.claimOf seat }) ∧
      u.mem = s.mem ∧ u.hostMem = s.hostMem) ∧
  (∀ (s : State) (cap seat : Nat), s.live = true → s.captain = some cap → seat = other cap → s.crank.gap = false →
    s.crank.halted = false → seat ∈ s.crank.rejoin →
    let joined (t : State) : Prop := t.role seat = .stoker ∧ t.role cap = .captain ∧ t.crank.synced = true ∧
      t.crank.detached = false ∧ seat ∉ t.crank.rejoin ∧ Counts64 s t R.CRK_REJOINS 1 ∧ t.mem = s.mem
    (s.role seat = .stoker → ∃ t, exec (.rejoin seat) s = .next t ∧ joined t) ∧
    (∀ img, s.role seat ≠ .stoker → s.rejoinImage seat = some img → ∃ t, exec (.rejoin seat) s = .next t ∧ joined t ∧
      (if seat = 1 then t.crank.imageB else t.crank.image) = img) ∧
    (s.role seat ≠ .stoker → s.rejoinImage seat = none → ∃ t, exec (.rejoin seat) s = .next t ∧
      t.role seat = s.role seat ∧ seat ∉ t.crank.rejoin ∧ t.mem = s.mem)) ∧
  (∀ (s : State) (seat t0 : Nat), s.live = true → s.stage = 3 → seat < 2 → s.crank.verified = [seat] →
    s.crank.bootStart = some t0 → t0 + 4000000000 ≤ s.tb.mono →
    (s.bit R.CRK_CFG F.CRK_CFG_DETECT = false ∨ s.grant seat = true →
      ∃ t, exec .seatBootTimeout s = .next t ∧ t.role (other seat) = .failed ∧ t.role seat = s.role seat ∧ t.stage = 4 ∧
        t.bit R.CRK_ERR F.CRK_ERR_SEAT_FAIL = true ∧ t.bit R.TOP_ALERT F.TOP_ALERT_CRANK = true ∧
        other seat ∈ t.crank.rejoin ∧ t = { s with csr := t.csr, crank := t.crank, pins := t.pins }) ∧
    (s.bit R.CRK_CFG F.CRK_CFG_DETECT = true → s.grant seat = false → exec .seatBootTimeout s = .next s)) ∧
  (∀ (s : State) (who : Who) (val : Nat), s.live = true → reaches who = true → bitAt val 0 = true →
    ∃ t, exec (.crkRejoinWrite who val) s = .next t ∧
      (s.crank.roleA = .failed → 0 ∈ t.crank.rejoin) ∧ (s.crank.roleA ≠ .failed → s.crank.roleB = .failed → 1 ∈ t.crank.rejoin) ∧
      (s.crank.roleA ≠ .failed → s.crank.roleB ≠ .failed → t.crank = s.crank) ∧
      (bitAt val 63 = true → t.bit R.CRK_CTL F.CRK_CTL_LOCK = true) ∧
      t = { s with csr := t.csr, crank := t.crank, journal := t.journal, outbox := t.outbox })

/-- R725 to R730, R823: an image is staged piece by piece; an activation is refused, begins, takes over and ends, or is
abandoned. -/
def Obligations.Firmware : Prop :=
  (∀ (s : State) (key : Nat) (c : Cmd) (bytes : Option (List Byte)), Due s key 0x18 c →
    let len := c.p 8 4
    let had := if s.crank.fwNew then [] else s.crank.fw
    (2 ^ 64 < c.p 0 8 + len → ∃ t, exec (.fwStage key bytes) s = .next t ∧
      Done s t key c Status.invalidField (c.fieldResidue 0) 0 ∧ t.crank = s.crank ∧ t.mem = s.mem) ∧
    (c.p 0 8 + len ≤ 2 ^ 64 → 16777216 < had.length + len → ∃ t, exec (.fwStage key bytes) s = .next t ∧
      Done s t key c Status.invalidField (c.fieldResidue 8) 0 ∧ t.crank = { s.crank with fw := [], fwNew := true, fwStaged := false }) ∧
    (c.p 0 8 + len ≤ 2 ^ 64 → had.length + len ≤ 16777216 → bytes = none → ∃ t, exec (.fwStage key bytes) s = .next t ∧
      Done s t key c Status.linkLost 0 0 ∧ t.crank = s.crank) ∧
    (∀ b, c.p 0 8 + len ≤ 2 ^ 64 → had.length + len ≤ 16777216 → bytes = some b → b.length = len →
      let img := had ++ b
      (bitAt (c.p 12 1) 0 = false → ∃ t, exec (.fwStage key bytes) s = .next t ∧ Done s t key c Status.ok 0 img.length ∧
        t.crank = { s.crank with fw := img, fwNew := false, fwStaged := false } ∧ t.mem = s.mem) ∧
      (bitAt (c.p 12 1) 0 = true → s.verifyFw img = true → ∃ t, exec (.fwStage key bytes) s = .next t ∧
        Done s t key c Status.ok 0 img.length ∧ t.crank = { s.crank with fw := img, fwNew := true, fwStaged := true } ∧
        t.mem = s.mem) ∧
      (bitAt (c.p 12 1) 0 = true → s.verifyFw img = false → ∃ t, exec (.fwStage key bytes) s = .next t ∧
        Done s t key c Status.authFailed 0 0 ∧ t.crank = { s.crank with fw := [], fwNew := true, fwStaged := false }))) ∧
  (∀ (s : State) (key : Nat) (c : Cmd) (flash : Bool), Due s key 0x19 c → c.started = false →
    let major (b : List Byte) := fieldAt b 5 1
    let attached := s.stoker.isSome = true ∧ s.crank.synced = true ∧ s.crank.detached = false ∧ s.crank.act = none
    let stale := major s.crank.fw ≠ major s.firmware ∧ bitAt (c.p 0 1) 0 = false ∧
      ∃ e ∈ s.queues, e.1 ≠ 0 ∧ e.2.st ≠ .absent ∧ s.queueIdle e.1 = false
    let refused (st : Nat) : Prop := ∃ t, exec (.fwActivate key flash) s = .next t ∧ Done s t key c st 0 0 ∧
      t.crank = s.crank ∧ t.mem = s.mem ∧ t.flash = s.flash
    (s.crank.fwStaged = false → refused Status.authFailed) ∧
    (s.crank.fwStaged = true → ¬attached → refused Status.busy) ∧
    (s.crank.fwStaged = true → attached → stale → refused Status.queuesNotIdle) ∧
    (∀ st, s.crank.fwStaged = true → attached → ¬stale → s.stoker = some st →
      ∃ t, exec (.fwActivate key flash) s = .next t ∧ t.role st = .booting ∧ t.role (other st) = s.role (other st) ∧
        t.crank.act = some (key, s.tb.mono, 0) ∧ t.crank.synced = false ∧ st ∈ t.crank.rejoin ∧ Begun t key ∧
        t = { s with cmds := t.cmds, crank := t.crank })) ∧
  (∀ (s : State) (key : Nat) (c : Cmd) (flash : Bool), Due s key 0x19 c → c.started = true →
    (∀ st t0, s.crank.act = some (key, t0, 1) → s.stoker = some st →
      exec (.fwActivate key flash) s = .next { s with crank := { s.crank with act := some (key, t0, 2), taking := some st } }) ∧
    (∀ t0, s.crank.act = some (key, t0, 2) → s.crank.gap = false → s.crank.taking = none →
      ∃ t, exec (.fwActivate key flash) s = .next t ∧ Done s t key c Status.ok 0 0 ∧ t.crank.act = some (key, t0, 3) ∧
        (flash = true → t.flash = cellsWrite s.flash (s.flashTarget * 0x1000000) s.crank.fw) ∧
        (flash = false → t.bit R.TOP_ERR F.TOP_ERR_FLASH = true) ∧ t.mem = s.mem)) ∧
  (∀ (s : State) (key t0 cap : Nat) (c : Cmd), s.serving = true → s.captain = some cap → s.crank.act = some (key, t0, 0) →
    t0 + 2000000000 ≤ s.tb.mono → Tab.get s.cmds key = some c →
    ∃ t, exec .fwActivateTimeout s = .next t ∧ Done s t key c Status.uncorrectable 0 0 ∧ t.crank.act = none ∧
      t.role (other cap) = .booting ∧ t.role cap = .captain ∧ other cap ∈ t.crank.rejoin ∧
      t.bit R.CRK_ERR F.CRK_ERR_FW_FAIL = true ∧ t.mem = s.mem)

/-! ### Sealwax -/

/-- R734 to R749, R754: key slots are loaded and emptied; a message is opened, takes data, is absorbed block by block and
answers its hash; contexts are exported, imported and waited for. -/
def Obligations.Digests : Prop :=
  (∀ (s : State) (key : Nat) (c : Cmd) (blob : Option (List Byte)), Due s key 0x1A c →
    let k := c.p 0 1
    let len := c.p 16 4
    let ends (st r : Nat) (t : State) : Prop := exec (.keyLoad key blob) s = .next t ∧ Done s t key c st r 0 ∧ t.mem = s.mem
    (len ≠ 0 → len ≠ 256 → ∃ t, ends Status.invalidField (c.fieldResidue 16) t ∧ t.swx = s.swx) ∧
    (len = 0 ∨ len = 256 → s.loadSeedSet = false → ∃ t, ends Status.authFailed 0 t ∧ t.swx = s.swx) ∧
    (len = 0 ∨ len = 256 → s.loadSeedSet = true → s.swx.dead = true → ∃ t, ends Status.repairExhausted 0 t ∧ t.swx = s.swx) ∧
    (len = 0 → s.loadSeedSet = true → s.swx.dead = false → ∃ t, ends Status.ok 0 t ∧ (t.swxSlot k).key = none ∧
      (t.swxSlot k).loads = (s.swxSlot k).loads ∧ (∀ j, j ≠ k → t.swxSlot j = s.swxSlot j)) ∧
    (len = 256 → s.loadSeedSet = true → s.swx.dead = false →
      (blob = none → ∃ t, ends Status.linkLost 0 t ∧ t.swx = s.swx) ∧
      (∀ b, blob = some b → s.openKeyBlob k b = none → ∃ t, ends Status.wrapInvalid 0 t ∧ t.swx = s.swx ∧
        t.bit R.SWX_ERR F.SWX_ERR_WRAP = true ∧ Counts64 s t R.SWX_WRAP_FAILS 1) ∧
      (∀ b v use, blob = some b → s.openKeyBlob k b = some (v, use) → ∃ t, ends Status.ok 0 t ∧
        t.swxSlot k = { key := some v, use := use, loads := ((s.swxSlot k).loads + 1) % 2 ^ 32 } ∧
        (∀ j, j ≠ k → t.swxSlot j = s.swxSlot j) ∧ Journalled t (jBody s.now (c.journal 0x0D 0xFFFF k 0 1))))) ∧
  (∀ (s : State) (key fails : Nat) (c : Cmd) (bytes : Option (List Byte)), Due s key 0x50 c → c.started = false →
    (∀ b, bytes = some b → b.length = c.p 16 4) → (bytes = none → c.p 16 4 ≠ 0) →
    let k := 65536 * c.inst + c.p 2 2
    let m := Tab.get s.swx.msgs k
    let flags := c.p 1 1
    let refused (st r : Nat) : Prop := ∃ t, exec (.digest key bytes fails) s = .next t ∧ Done s t key c st r 0 ∧ t.swx = s.swx
    (s.swx.dead = true → refused Status.repairExhausted 0) ∧
    (s.swx.dead = false → ∀ r, digestField c m = some r → refused Status.invalidField r) ∧
    (s.swx.dead = false → digestField c m = none →
      (bitAt flags 1 = true → s.slotServes (c.p 0 1) c.inst = false → refused Status.keySlotEmpty 0) ∧
      (flags < 4 → (bitAt flags 1 = true → s.slotServes (c.p 0 1) c.inst = true) → m = none →
        4096 ≤ s.swx.msgs.length ∨ 64 ≤ (s.swx.msgs.filter fun e => e.1 / 65536 == c.inst).length → refused Status.busy 0) ∧
      (∀ b, flags < 2 → m = none → s.swx.msgs.length < 4096 →
        (s.swx.msgs.filter fun e => e.1 / 65536 == c.inst).length < 64 → (∃ n, n < 8 ∧ (s.swxCtx n).st = 0) →
        s.ctxFor k = none → (∀ e ∈ s.swx.msgs, e.2.waitSince = none) → bytes = some b →
        let total := c.p 24 8
        (total = 0 ∨ (b.length ≤ total ∧ (flags = 1 → b.length = total)) →
          ∃ t x, exec (.digest key bytes fails) s = .next t ∧ Tab.get t.swx.msgs k = some x ∧ x.words = shaInit ∧
            x.save = c.saveArea ∧ x.gen = c.gen ∧ x.buf ++ x.more = (if b.length < 64 ∧ flags = 1 then b ++ shaPad b.length else b) ∧
            (∃ n, t.ctxFor k = some n ∧ (t.swxCtx n).st = 1) ∧
            (b.length < 64 → flags = 0 → Done s t key c Status.ok 0 b.length ∧ x.absorbed = b.length) ∧
            (64 ≤ b.length ∨ flags = 1 → Begun t key ∧ x.cmd = some key)) ∧
        (total ≠ 0 → total < b.length ∨ (flags = 1 ∧ b.length ≠ total) →
          ∃ t, exec (.digest key bytes fails) s = .next t ∧ Done s t key c Status.checkMismatch 0 0 ∧
            Tab.get t.swx.msgs k = none)))) ∧
  (∀ (s : State) (upset n : Nat) (m : SwxMsg), s.live = true → s.bit R.SWX_CTL F.SWX_CTL_EN = true → s.swx.dead = false →
    s.swxNext = some n →
    let k := (s.swxCtx n).msg
    Tab.get s.swx.msgs k = some m →
    let room := 64 - m.buf.length
    let rest := m.more.drop room
    let words := shaBlock m.words (m.buf ++ m.more.take room)
    let one : SwxMsg := { m with words := words, buf := [], more := rest, absorbed := m.absorbed + min m.left room,
                                 left := m.left - min m.left room }
    (64 ≤ rest.length →
      (upset = 0 → ∃ t, exec (.swxBlock upset) s = .next t ∧ Tab.get t.swx.msgs k = some one ∧ t.swx.turn = n ∧
        Counts64 s t R.SWX_BLOCKS 1 ∧ RegsBut s t [R.SWX_BLOCKS] ∧ t = { s with swx := t.swx, csr := t.csr }) ∧
      (upset = 1 → s.bit R.SWX_STAT F.SWX_STAT_ACTIVE = false → ∃ t, exec (.swxBlock upset) s = .next t ∧
        t.bit R.SWX_STAT F.SWX_STAT_ACTIVE = true ∧ t.bit R.SWX_ERR F.SWX_ERR_DPATH = true ∧
        Tab.get t.swx.msgs k = some one ∧ Counts64 s t R.RAS_REPAIRS 1) ∧
      (upset = 3 → m.slot < 32 → ∃ t, exec (.swxBlock upset) s = .next t ∧ (t.swxSlot m.slot).key = none ∧
        t.bit R.SWX_ERR F.SWX_ERR_STATE_UE = true ∧ Tab.get t.swx.msgs k = some one)) ∧
    (∀ key, upset = 0 → rest = [] → m.padded = true → m.keyed = false → m.words.length = 8 → m.cmd = some key →
      bitAt ((Tab.at s.cmds key).p 1 1) 2 = false → ∃ t, exec (.swxBlock upset) s = .next t ∧ Tab.get t.swx.msgs k = none ∧
        HeldWrite t (.data key) ((Tab.at s.cmds key).p 32 8) (words.flatMap fun w => be w 4)) ∧
    (∀ key c, upset = 2 → m.cmd = some key → Tab.get s.cmds key = some c → ∃ t, exec (.swxBlock upset) s = .next t ∧
      Done s t key c Status.uncorrectable 0 0 ∧ Tab.get t.swx.msgs k = none ∧ t.bit R.SWX_ERR F.SWX_ERR_STATE_UE = true) ∧
    (upset = 1 → s.bit R.SWX_STAT F.SWX_STAT_ACTIVE = true → ∃ t, exec (.swxBlock upset) s = .next t ∧ t.swx.dead = true ∧
      t.bit R.SWX_ERR F.SWX_ERR_EXHAUSTED = true ∧ t.bit R.RAS_STAT F.RAS_STAT_DEGRADED = true ∧
      ∀ key c, m.cmd = some key → Tab.get s.cmds key = some c → Ends t key c Status.repairExhausted 0)) ∧
  (∀ (s : State) (n : Nat), s.live = true → (∃ e ∈ s.swx.msgs, e.2.waitSince.isSome = true) →
    (∀ i, i < 8 → (s.swxCtx i).st ≠ 0 ∧ (s.swxCtx i).st ≠ 2) → s.exportChoice = some n →
    let k := (s.swxCtx n).msg
    ∃ t, exec .swxExport s = .next t ∧ (t.swxCtx n).st = 2 ∧ t.swx.exports = s.swx.exports + 1 ∧ t.swx.msgs = s.swx.msgs ∧
      HeldWrite t (.swx n) (s.swxMsg k).save (s.stateBlob k) ∧ t.mem = s.mem ∧
      ((s.swxMsg k).port < 6 → Counts64 s t R.SWX_EXPORTS 1)) ∧
  (∀ (s : State) (n : Nat) (blob : Option (List Byte)) (m : SwxMsg), s.live = true → (s.swxCtx n).st = 3 →
    let k := (s.swxCtx n).msg
    Tab.get s.swx.msgs k = some m →
    let dropped (st : Nat) (t : State) : Prop := exec (.swxImport n blob) s = .next t ∧ Tab.get t.swx.msgs k = none ∧
      ∀ key c, m.cmd = some key → Tab.get s.cmds key = some c → Done s t key c st 0 0
    (blob = none → ∃ t, dropped Status.linkLost t) ∧
    (∀ b, blob = some b → s.openStateBlob k b = none → ∃ t, dropped Status.wrapInvalid t ∧
      t.bit R.SWX_ERR F.SWX_ERR_WRAP = true ∧ Counts64 s t R.SWX_WRAP_FAILS 1) ∧
    (∀ b x, blob = some b → s.openStateBlob k b = some x →
      (x.keyed = true → (s.swxSlot x.slot).loads ≠ x.loads → ∃ t, dropped Status.keySlotEmpty t) ∧
      ((x.keyed = true → (s.swxSlot x.slot).loads = x.loads) →
        (x.taken = true ∧ x.ready = true) ∨ (x.taken = false ∧ x.cmd = none) →
        ∃ t, exec (.swxImport n blob) s = .next t ∧ Tab.get t.swx.msgs k = some x ∧ (t.swxCtx n).st = 1 ∧
          (t.swxCtx n).msg = k ∧ Counts64 s t R.SWX_IMPORTS 1 ∧ t = { s with swx := t.swx, csr := t.csr }))) ∧
  (∀ (s : State) (inst ctx t0 : Nat) (m : SwxMsg), s.live = true →
    let k := 65536 * inst + ctx
    Tab.get s.swx.msgs k = some m → m.waitSince = some t0 → t0 + 2000000000 ≤ s.tb.mono →
    ∃ t, exec (.swxWaitTimeout inst ctx) s = .next t ∧ Counts64 s t R.SWX_BUSY 1 ∧
      (m.cmd = none → ∃ x, Tab.get t.swx.msgs k = some x ∧ x = { m with waitSince := none }) ∧
      (∀ key c, m.cmd = some key → Tab.get s.cmds key = some c → Done s t key c Status.busy 0 0 ∧
        (m.saved = false → Tab.get t.swx.msgs k = none) ∧
        (m.saved = true → ∃ x, Tab.get t.swx.msgs k = some x ∧ x.saved = true ∧ x.waitSince = none ∧ x.cmd = none)))

/-! ### Wear and repair -/

/-- R388, R390, R776 to R791: soot is measured, errors are logged, units are replaced by spares of their own accord or on
command, the page is saved and owner fields are burned. -/
def Obligations.Repairs : Prop :=
  (∀ (s : State) (ms : List (Nat × Nat)), s.live = true →
    s.ras.sootAt + 1000000000 * s.fld R.RAS_SOOT_CFG F.RAS_SOOT_CFG_PERIOD ≤ s.now →
    (∀ x ∈ ms, x.1 < 1386 ∧ x.2 < 2 ^ 20) → (ms.map (·.1)).Nodup →
    ∃ t, exec (.sootMeasure ms) s = .next t ∧ t.ras.sootAt = s.now ∧ t = { s with csr := t.csr, ras := t.ras } ∧
      (∀ x ∈ ms, t.fld (R.RAS_SOOT x.1) F.RAS_SOOT_MEASURED = x.2 ∧
        t.fld (R.RAS_SOOT x.1) F.RAS_SOOT_DEGRADE = min 2047 ((s.sootBase x.1 - x.2) * 10000 / s.sootBase x.1)) ∧
      (∀ x, ms = [x] → s.fld (R.RAS_SOOT x.1) F.RAS_SOOT_DEGRADE < s.fld R.RAS_TH F.RAS_TH_SOOT →
        s.fld R.RAS_TH F.RAS_TH_SOOT ≤ t.fld (R.RAS_SOOT x.1) F.RAS_SOOT_DEGRADE →
        t.bit R.RAS_ERR F.RAS_ERR_SOOT_OVER = true ∧ Logged s t
          { kind := 5, cls := (monitorUnit x.1).1, unit := (monitorUnit x.1).2,
            detail := t.fld (R.RAS_SOOT x.1) F.RAS_SOOT_DEGRADE })) ∧
  (∀ (s : State) (cls unit detail : Nat) (left bad : Bool), s.serving = true → s.unitServes cls unit detail = true →
    s.bit R.RAS_CTL F.RAS_CTL_AUTO_EN = false →
    (∃ t, exec (.autoRepair cls unit detail 1 false left bad) s = .next t ∧ (cls, unit, detail, s.now) ∈ t.ras.ce ∧
      t = { s with csr := t.csr, ras := t.ras }) ∧
    (cls ≠ 1 → ∃ t, exec (.autoRepair cls unit detail 0 true left bad) s = .next t ∧
      Logged s t { kind := 4, cls := cls, unit := unit } ∧ t = { s with csr := t.csr, ras := t.ras }) ∧
    (∀ x, cls = 1 → s.onWick unit = [(s.wick unit).ctx] → Tab.get s.ctxs (s.wick unit).ctx = some x →
      ∃ t, exec (.autoRepair cls unit detail 0 true left bad) s = .next t ∧
        TaskFails t unit (s.wick unit).ctx x Status.uncorrectable 0 0)) ∧
  (∀ (s : State) (cls unit detail : Nat) (ue left bad : Bool), s.serving = true → s.unitServes cls unit detail = true →
    s.bit R.RAS_CTL F.RAS_CTL_AUTO_EN = true →
    let mine (x : Nat × Nat × Nat) : Bool := x.1 == cls && x.2.1 == unit
    let line (x : Nat × Nat × Nat) : Bool := mine x && x.2.2 == detail
    let asked (t : State) : Prop := ∃ e ∈ t.ras.repairing, e.1 = cls ∧ e.2.1 = unit ∧ e.2.2.1 = detail
    (cls = 1 → s.sooty unit = true ∨ s.fld R.RAS_TH F.RAS_TH_CORE_CE ≤ s.ceCount hourNs mine ∨ ue = true →
      unit % 17 < 16 → s.spareWick (unit / 17) = true → s.onWick unit = [] →
      ∃ t, exec (.autoRepair cls unit detail 0 ue left bad) s = .next t ∧
        t.fld (R.LAN_REP_STAT (unit / 17)) F.LAN_REP_STAT_WICK_FAIL =
          s.fld (R.LAN_REP_STAT (unit / 17)) F.LAN_REP_STAT_WICK_FAIL ||| 2 ^ (unit % 17) ∧
        t.fld (R.LAN_REP_STAT (unit / 17)) F.LAN_REP_STAT_SPARE_FOR = unit % 17 ∧ Counts64 s t R.RAS_REPAIRS 1 ∧
        t.ctxs = s.ctxs ∧ t.mem = s.mem) ∧
    (∀ m, cls = 2 → ue = false → bad = false →
      s.sooty (1156 + unit) = true ∨ s.fld R.RAS_TH F.RAS_TH_CORE_CE ≤
        s.ceCount hourNs (fun x => (x.1 == 2 || x.1 == 10) && x.2.1 == unit) →
      s.slotOf unit = some m → s.spareLantern unit = true → (∀ e ∈ s.ctxs, e.2.slot ≠ m) → Memory.wf s.mem = true →
      (∀ v, v ∈ (Tab.at s.sconces unit).ways ∨ v ∈ (Tab.at s.sconces unit).evict → v.dirty = false) →
      let sp := 17 * (unit / 17) + 16
      ∃ t, exec (.autoRepair cls unit detail 0 ue left bad) s = .next t ∧ t.slotOf unit = none ∧ t.slotOf sp = some m ∧
        t.bit (R.LAN_REP_STAT unit) F.LAN_REP_STAT_FAILED = true ∧ Counts64 s t R.RAS_REPAIRS 1 ∧
        (∀ o, o < 0x200000 → t.peek (lstoreKey sp o) 1 = s.peek (lstoreKey unit o) 1)) ∧
    (cls = 4 → s.sooty (1224 + unit) = true ∨ s.fld R.RAS_TH F.RAS_TH_FOLD_CE ≤ s.ceCount hourNs mine → detail = 0 →
      ∃ t, exec (.autoRepair cls unit detail 0 ue left bad) s = .next t ∧ asked t ∧ t = { s with csr := t.csr, ras := t.ras }) ∧
    (cls = 5 → s.fld R.RAS_TH F.RAS_TH_FRAME_CE ≤ s.ceCount (24 * hourNs) line ∨ ue = true →
      ∃ t, exec (.autoRepair cls unit detail 0 ue left bad) s = .next t ∧ asked t ∧ t = { s with csr := t.csr, ras := t.ras }) ∧
    (cls = 10 → ue = false → 2 ≤ s.ceCount (24 * hourNs) line → left = true →
      ∃ t, exec (.autoRepair cls unit detail 0 ue left bad) s = .next t ∧ (1, unit, detail) ∈ t.ras.lines ∧
        Counts64 s t R.RAS_REPAIRS 1 ∧ t.mem = s.mem)) ∧
  (∀ (s : State) (key : Nat) (c : Cmd) (left bad : Bool), Due s key 0x1C c → c.started = false →
    let kind := c.p 0 1
    let unit := c.p 2 2
    let detail := c.p 4 4
    let ends (st r : Nat) (t : State) : Prop := exec (.repair key left bad) s = .next t ∧ Done s t key c st r 0
    let begins (t : State) : Prop := exec (.repair key left bad) s = .next t ∧ Begun t key ∧
      (kind, unit, detail, some key) ∈ t.ras.repairing ∧ t.mem = s.mem
    (∀ n, s.repairField kind unit detail = some n → ∃ t, ends Status.invalidField (c.fieldResidue n) t ∧
      t.ras = s.ras ∧ t.csr = s.csr) ∧
    (s.repairField kind unit detail = none →
      (s.repairBusy kind unit detail = true → ∃ t, ends Status.busy 0 t ∧ t.ras = s.ras ∧ t.csr = s.csr) ∧
      (s.repairBusy kind unit detail = false → s.repairSpent kind unit left detail = true →
        ∃ t, ends Status.repairExhausted 0 t ∧ t.ras = s.ras ∧ t.csr = s.csr) ∧
      (s.repairBusy kind unit detail = false → s.repairSpent kind unit left detail = false →
        (kind = 1 → s.onWick unit = [] → ∃ t, ends Status.ok 0 t ∧ t.mem = s.mem ∧
          t.fld (R.LAN_REP_STAT (unit / 17)) F.LAN_REP_STAT_SPARE_FOR = unit % 17 ∧ Counts64 s t R.RAS_REPAIRS 1) ∧
        (∀ m, kind = 2 → bad = false → s.slotOf unit = some m → (∀ e ∈ s.ctxs, e.2.slot ≠ m) →
          ∃ t, ends Status.ok 0 t ∧ t.slotOf unit = none ∧ t.slotOf (17 * (unit / 17) + 16) = some m) ∧
        (kind = 3 → ∃ t, ends Status.ok 0 t ∧ t.mem = s.mem ∧ Counts64 s t (R.CHD_REMAPS (unit / 32)) 1 ∧
          Tab.get (t.chd (unit / 32)).remap (2048 * (unit % 32) + detail) =
            some (s.fld (R.CHD_BSPARE (unit / 32) (unit % 32)) F.CHD_BSPARE_USED)) ∧
        (kind = 6 → ∃ t, ends Status.ok 0 t ∧ t.mem = s.mem ∧ (unit, detail) ∈ t.ras.hard) ∧
        (kind = 9 → ∃ t, ends Status.ok 0 t ∧ t.mem = s.mem ∧ t.bit R.SWX_STAT F.SWX_STAT_ACTIVE = true) ∧
        (kind = 10 → ∃ t, ends Status.ok 0 t ∧ t.mem = s.mem ∧ (1, unit, detail) ∈ t.ras.lines) ∧
        (kind = 4 ∨ kind = 5 → ∃ t, begins t) ∧
        (kind = 7 → ∃ t, begins t ∧ (t.port unit).swapRx = some detail) ∧
        (kind = 8 → ∃ t, begins t ∧ (detail = 0 → unit ∈ t.crank.rejoin) ∧
          (detail = 1 → t.crank.taking = s.stoker))))) ∧
  (∀ (s : State) (ok : Bool), s.serving = true →
    let seq := s.fld R.CAL_STAT F.CAL_STAT_SEQ + 1
    let p := s.buildPage seq
    let new := if s.fld R.CAL_STAT F.CAL_STAT_PAGE = 1 then 2 else 1
    let spent (t : State) : Prop := (s.ras.saveAgain = false → t.bit R.CAL_STAT F.CAL_STAT_SAVING = false) ∧ t.mem = s.mem
    (p.2 ≤ 250 → ok = true → ∃ t, exec (.calSave ok) s = .next t ∧ spent t ∧ t.flash = cellsWrite s.flash (pageAt new) p.1 ∧
      t.fld R.CAL_STAT F.CAL_STAT_PAGE = new ∧ t.fld R.CAL_STAT F.CAL_STAT_SEQ = seq % 2 ^ 56) ∧
    (p.2 ≤ 250 → ok = false → ∃ t, exec (.calSave ok) s = .next t ∧ spent t ∧ t.flash = s.flash ∧
      t.bit R.CAL_ERR F.CAL_ERR_SAVE_FAIL = true ∧ t.fld R.CAL_STAT F.CAL_STAT_SEQ = s.fld R.CAL_STAT F.CAL_STAT_SEQ) ∧
    (250 < p.2 → ∃ t, exec (.calSave ok) s = .next t ∧ spent t ∧ t.flash = s.flash ∧
      t.bit R.CAL_ERR F.CAL_ERR_PAGE_FULL = true)) ∧
  (∀ (s : State) (who : Who) (val : Nat) (ok : Bool), s.live = true → reaches who = true → bitAt val 2 = true →
    let f := bitsOf val 0 2
    f ≠ 0 →
    (s.otpTaken f = true → ∃ t, exec (.otpProgGo who val ok) s = .next t ∧ t.ras = s.ras ∧
      t.bit R.CAL_ERR F.CAL_ERR_OTP_REFUSED = true) ∧
    (s.otpTaken f = false → ok = true → ∃ t, exec (.otpProgGo who val ok) s = .next t ∧
      t.ras = { s.ras with burned := s.ras.burned ++ [(f, s.ras.otpData.flatMap fun d => le d 8)], otpData := [0, 0, 0, 0] } ∧
      t.fld R.CAL_OTP_PROG F.CAL_OTP_PROG_FIELD = f ∧ t.mem = s.mem) ∧
    (s.otpTaken f = false → ok = false → ∃ t, exec (.otpProgGo who val ok) s = .next t ∧
      t.ras = { s.ras with otpData := [0, 0, 0, 0] } ∧ t.bit R.CAL_ERR F.CAL_ERR_OTP_FAIL = true)) ∧
  (∀ (s : State) (st u : Nat), s.live = true → st < 8 → u < 16 → s.unitFailing (16 * st + u) = true →
    let failed := s.fld (R.FOLD_SPARE st) F.FOLD_SPARE_FAILED
    (failed = 0 → s.bit (R.FOLD_SPARE st) F.FOLD_SPARE_ACTIVE = false →
      ∃ t, exec (.foldSpareSwap st u) s = .next t ∧ t.fld (R.FOLD_SPARE st) F.FOLD_SPARE_FAILED = 2 ^ u ∧
        t.bit (R.FOLD_SPARE st) F.FOLD_SPARE_ACTIVE = true ∧ t.fld (R.FOLD_SPARE st) F.FOLD_SPARE_TARGET = u ∧
        t.bit (R.FOLD_U_STAT (17 * st + u)) F.FOLD_U_STAT_IN_SERVICE = false ∧
        t.bit (R.FOLD_U_STAT (17 * st + 16)) F.FOLD_U_STAT_IN_SERVICE = true ∧
        t.fld (R.FOLD_U_STAT (17 * st + 16)) F.FOLD_U_STAT_SERVES = u ∧ Tab.at t.foldQ (16 * st + u) = [] ∧
        Counts64 s t R.RAS_REPAIRS 1 ∧
        ((∀ e ∈ s.ras.repairing, e.1 = 4 → e.2.2.1 = 0) → t.unitFailing (16 * st + u) = false)) ∧
    (failed ≠ 0 ∨ s.bit (R.FOLD_SPARE st) F.FOLD_SPARE_ACTIVE = true → (∀ e ∈ s.runs, e.2.shares = []) →
      ∃ t, exec (.foldSpareSwap st u) s = .next t ∧ t.fld (R.FOLD_SPARE st) F.FOLD_SPARE_FAILED = failed ||| 2 ^ u ∧
        t.bit R.FOLD_ERR F.FOLD_ERR_EXHAUSTED = true ∧ t.bit R.RAS_ERR F.RAS_ERR_NO_SPARE = true ∧
        t.bit R.RAS_STAT F.RAS_STAT_DEGRADED = true ∧ t.mem = s.mem))

/-! ### The Snuffer, debug holds, power and reset -/

/-- R792 to R799: the device freezes with a cause and resumes; a held wick is released or killed; recipe slots are
validated. -/
def Obligations.Snuffer : Prop :=
  (∀ (s : State) (low : Bool), let pin : State := { s with pins := { s.pins with snuffN := !low } }
    (low = true → s.bit R.DBG_CTL F.DBG_CTL_PIN_EN = true → s.ras.frozen = false → s.boot.inReset = false →
      ∃ t, exec (.snuffPin low) s = .next t ∧ Freezes s t 1 ∧ t.pins = pin.pins ∧ t.boot = s.boot) ∧
    (low = false ∨ s.bit R.DBG_CTL F.DBG_CTL_PIN_EN = false ∨ s.ras.frozen = true ∨ s.boot.inReset = true →
      exec (.snuffPin low) s = .next pin)) ∧
  (∀ (s : State), s.pins.pwrgood = true →
    (s.ras.frozen = false → s.boot.inReset = false → ∃ t, exec .snuff s = .next t ∧ Freezes s t 3 ∧ t.pins = s.pins ∧
      t.boot = { s.boot with jtagIr := 0x20 }) ∧
    (s.ras.frozen = true ∨ s.boot.inReset = true →
      exec .snuff s = .next { s with boot := { s.boot with jtagIr := 0x20 } })) ∧
  (∀ (s : State),
    (s.ras.frozen = true → s.pins.snuffN = true → ∃ t, exec .resume s = .next t ∧ t.ras.frozen = false ∧
      t.bit R.DBG_STAT F.DBG_STAT_FROZEN = false ∧ t.rd R.DBG_DOMSTOP = 0 ∧
      t.bit R.TB_STAT F.TB_STAT_TIME_VALID = false ∧ t.bit R.TB_STAT F.TB_STAT_CLEAN = false ∧
      (∀ st, st < 8 → t.fld (R.HBM_STAT st) F.HBM_STAT_STATE =
        if s.fld (R.HBM_STAT st) F.HBM_STAT_STATE = 3 then 2 else s.fld (R.HBM_STAT st) F.HBM_STAT_STATE) ∧
      (∀ p, p < 6 → t.portState p = if s.bit (R.MLK_CTL p) F.MLK_CTL_EN then 6 else s.portState p) ∧
      t.mem = s.mem ∧ t.cmds = s.cmds ∧ t.runs = s.runs) ∧
    (s.ras.frozen = true → s.pins.snuffN = false → ∃ t, exec .resume s = .next t ∧ t.ras = s.ras ∧
      FieldSet s t R.DBG_ERR F.DBG_ERR_RESUME_REFUSED 1 ∧ RegsBut s t [R.DBG_ERR] ∧
      t = { s with csr := t.csr, boot := { s.boot with jtagIr := 0x21 } }) ∧
    (s.ras.frozen = false → exec .resume s = .next s)) ∧
  (∀ (s : State) (who : Who), s.live = true → s.debugHeld = true →
    let pos := s.debugWick
    let k := s.wick pos
    (k.repKind = 0 → k.codeBase ≤ k.pc + 8 → k.pc + 8 < k.codeBase + k.codeLen → ∃ t, exec (.releaseWick who) s = .next t ∧
      (t.wick pos).st = 1 ∧ (t.wick pos).pc = k.pc + 8 ∧ (t.wick pos).a = k.a ∧ (∀ q, q ≠ pos → t.wick q = s.wick q) ∧
      t.ctxs = s.ctxs ∧ t.mem = s.mem) ∧
    (∀ x, k.repKind = 0 → k.codeBase + k.codeLen ≤ k.pc + 8 → Tab.get s.ctxs k.ctx = some x →
      ∃ t, exec (.releaseWick who) s = .next t ∧ TaskFails t pos k.ctx x Status.trapAddress 0 0 ∧ t.mem = s.mem) ∧
    (∀ x, Tab.get s.ctxs k.ctx = some x → ∃ t, exec (.kill who) s = .next t ∧
      TaskFails t pos k.ctx x Status.trapBreak 0 0 ∧ (∀ q, q ≠ pos → t.wick q = s.wick q) ∧ t.mem = s.mem)) ∧
  (∀ (s : State) (who : Who), s.debugHeld = false → exec (.releaseWick who) s = .next s ∧ exec (.kill who) s = .next s) ∧
  (∀ (s : State) (who : Who) (val : Nat), s.live = true → bitAt val 23 = true →
    let n := bitsOf val 0 7
    ∃ t, exec (.rcpvalidGo who val) s = .next t ∧ t.fld R.DBG_RCPVALID F.DBG_RCPVALID_LANTERN = n ∧
      t.fld R.DBG_RCPVALID F.DBG_RCPVALID_SLOTS = bitsOf val 7 16 ∧
      t = { s with csr := t.csr, journal := t.journal, outbox := t.outbox } ∧
      (68 ≤ n → RegsBut s t [R.DBG_RCPVALID, R.JNL_NEXT, R.JNL_STAT, R.JNL_WRAPS]) ∧
      (n < 68 → ∀ i, i < 16 →
        (bitAt val (7 + i) = true → s.slotBusy n i = false → t.slotValid n i = true) ∧
        (bitAt val (7 + i) = true → s.slotBusy n i = true → t.slotValid n i = s.slotValid n i ∧
          t.bit (R.LAN_RSV_ERR n) F.LAN_RSV_ERR_RCP_FAULT = true) ∧
        (bitAt val (7 + i) = false → t.slotValid n i = s.slotValid n i)))

/-- R803, R804, R810 to R817: trips, VID moves and the two resets. -/
def Obligations.Resets : Prop :=
  (∀ (s : State),
    (s.pins.pwrgood = true → s.ras.frozen = false → s.overTrip = true → exec .thermTrip s =
      .next { s with boot := { s.boot with tripped := true }, pins := { s.pins with thermTripN := false } }) ∧
    (s.pins.pwrgood = false ∨ s.ras.frozen = true ∨ s.overTrip = false → exec .thermTrip s = .next s)) ∧
  (∀ (s : State), s.pins.pwrgood = true → s.ras.frozen = false →
    let c := s.fld R.TOP_VID F.TOP_VID_CODE
    s.boot.vidSince = 0 ∨ s.boot.vidSince + 10000 ≤ s.tb.mono →
    (s.pins.vid ≠ c → ∃ t, exec .vidMove s = .next t ∧
      (s.pins.vid < c → t.pins.vid = min c (s.pins.vid + 4)) ∧ (c < s.pins.vid → t.pins.vid = max c (s.pins.vid - 4)) ∧
      FieldSet s t R.TOP_VID F.TOP_VID_BUSY (if t.pins.vid = c then 0 else 1) ∧ RegsBut s t [R.TOP_VID] ∧
      t = { s with csr := t.csr, boot := { s.boot with vidSince := s.tb.mono }, pins := { s.pins with vid := t.pins.vid } }) ∧
    (s.pins.vid = c → exec .vidMove s = .next s)) ∧
  (∀ (s : State),
    (s.pins.pwrgood = true → ∃ t, exec .pwrgoodLow s = .next t ∧ t.boot.inReset = true ∧ t.pins.pwrgood = false ∧
      (∀ off, off ≠ R.SWX_ATT → t.rd off = regReset off) ∧ t.mem = [] ∧ t.flash = s.flash ∧ t.hostMem = s.hostMem ∧
      t.pending = s.pending ∧ t.ras.burned = s.ras.burned ∧ t.ras.epochTop = s.ras.epochTop ∧
      t.crank = State.reset.crank ∧ t.cmds = [] ∧ t.runs = [] ∧ t.ctxs = [] ∧ t.queues = [] ∧ t.insts = [] ∧ t.journal = []) ∧
    (s.pins.pwrgood = false → exec .pwrgoodLow s = .next s)) ∧
  (∀ (s : State) (straps : Nat),
    (s.pins.pwrgood = false → ∃ t, exec (.pwrgoodHigh straps) s = .next t ∧ t.pins.pwrgood = true ∧
      t.rd R.TOP_STRAP = straps % 128 ∧ t.fld R.CRK_CFG F.CRK_CFG_DETECT = bitsOf straps 4 1 ∧
      t.fld R.TB_STAT F.TB_STAT_REF_SEL = bitsOf straps 3 1 ∧ t.mem = s.mem ∧ t.stage = s.stage ∧
      (s.pins.resetN = true → t.boot.inReset = false) ∧ (s.pins.resetN = false → t.boot = s.boot) ∧
      (s.pins.resetN = true → s.ras.frozen = false → t.ras.frozen = !s.pins.snuffN)) ∧
    (s.pins.pwrgood = true → exec (.pwrgoodHigh straps) s = .next s)) ∧
  (∀ (s : State),
    (s.pins.resetN = true → s.pins.pwrgood = true → ∃ t, exec .resetNLow s = .next t ∧ t.boot.inReset = true ∧
      t.boot.warm = true ∧ t.pins.resetN = false ∧ t.crank = State.reset.crank ∧ t.cmds = [] ∧ t.runs = [] ∧ t.ctxs = [] ∧
      t.queues = [] ∧ t.outbox = [] ∧ t.held = [] ∧ t.mem = s.mem ∧ t.poison = s.poison ∧ t.hostMem = s.hostMem ∧
      t.flash = s.flash ∧ t.journal = s.journal ∧ t.tally = s.tally ∧ t.pending = s.pending ∧ t.tb.now = s.tb.now ∧
      t.ras.log = s.ras.log ∧ t.ras.frozen = false ∧ t.bit R.TOP_RESET F.TOP_RESET_WARM = true ∧
      t.fld R.TOP_RESET F.TOP_RESET_WARM_COUNT = (s.fld R.TOP_RESET F.TOP_RESET_WARM_COUNT + 1) % 2 ^ 32 ∧
      (∀ o, o < 0x10000 → t.rd (0x100000 + o) = s.rd (0x100000 + o) ∧ t.rd (0x1400000 + o) = s.rd (0x1400000 + o)) ∧
      (∀ c, c < 64 → t.rd (R.CHN_CSTAT c) = regReset (R.CHN_CSTAT c)) ∧
      (∀ st, st < 8 → s.fld (R.HBM_STAT st) F.HBM_STAT_STATE = 2 ∨ s.fld (R.HBM_STAT st) F.HBM_STAT_STATE = 3 →
        t.fld (R.HBM_STAT st) F.HBM_STAT_STATE = 3)) ∧
    (s.pins.resetN = true → s.pins.pwrgood = false →
      exec .resetNLow s = .next { s with pins := { s.pins with resetN := false } }) ∧
    (s.pins.resetN = false → exec .resetNLow s = .next s)) ∧
  (∀ (s : State),
    (s.pins.resetN = false → s.pins.pwrgood = true → ∃ t, exec .resetNHigh s = .next t ∧ t.pins.resetN = true ∧
      t.boot.inReset = false ∧ t.stage = (if s.boot.warm then 2 else s.stage) ∧ t.mem = s.mem ∧
      (s.ras.frozen = false → t.ras.frozen = !s.pins.snuffN)) ∧
    (s.pins.resetN = false → s.pins.pwrgood = false →
      exec .resetNHigh s = .next { s with pins := { s.pins with resetN := true } }) ∧
    (s.pins.resetN = true → exec .resetNHigh s = .next s))

/-! ### Boot -/

/-- R668, R669, R707, R708, R791, R818 to R822: the stages of the boot. -/
def Obligations.BootStages : Prop :=
  (∀ (s : State), s.live = true → s.stage = 0 → ∃ t, exec .fusesStage s = .next t ∧ t.stage = 1 ∧ t.ras.burned = [] ∧
    (∀ h, s.ras.burned = [(1, h)] → t.ras.ownerHash = h ∧ t.ownerSet = true) ∧
    (∀ h, s.ras.burned = [(2, h)] → t.ras.loadSeed = h ∧ t.loadSeedSet = true) ∧
    (∀ h, s.ras.burned = [(3, h)] → t.pipeSigReq = true) ∧ t = { s with csr := t.csr, ras := t.ras }) ∧
  (∀ (s : State) (banks : List Nat), s.live = true → s.stage = 1 → (∀ b ∈ banks, b < 128) →
    let mode := s.fld R.TOP_STRAP F.TOP_STRAP_BOOT_MODE
    ∃ t, exec (.sramTestStage banks) s = .next t ∧
      (∀ b ∈ banks, t.bit (R.CHD_BANK (b / 32) (b % 32)) F.CHD_BANK_OUT_OF_SERVICE = true) ∧
      (mode < 4 → t.stage = 2 ∧ t.boot.fetchStart = s.tb.mono) ∧ (4 ≤ mode → t.stage = 9) ∧
      (5 ≤ mode → t.bit R.TOP_ERR F.TOP_ERR_BADSTRAP = true) ∧ t = { s with csr := t.csr, boot := t.boot }) ∧
  (∀ (s : State), s.live = true → s.stage = 2 →
    let mode := s.fld R.TOP_STRAP F.TOP_STRAP_BOOT_MODE
    (4 ≤ mode → ∃ t, exec .fetchStage s = .next t ∧ t.stage = 9 ∧ t.mem = s.mem) ∧
    (∀ n, mode < 4 → s.nextSlot = some n → Memory.wf s.flash = true → Memory.wf s.mem = true →
      ∃ t, exec .fetchStage s = .next t ∧ t.stage = 3 ∧ t.fld R.TOP_BOOT F.TOP_BOOT_SLOT = n ∧
        (∀ l o, l < 8 → o < 0x200000 →
          t.peek (lstoreKey l o) 1 = cellsRead s.flash (n * 0x1000000 + l * 0x200000 + o) 1) ∧
        t = { s with mem := t.mem, csr := t.csr }) ∧
    (∀ n, s.nextSlot = some n → s.boot.fetchB = false → s.boot.fetchStart + 2000000000 ≤ s.tb.mono →
      exec .fetchTimeout s = .next { s with boot := { s.boot with fetchB := true } }) ∧
    (∀ who, mode = 3 → ∃ t, exec (.bootGo who) s = .next t ∧ FieldSet s t R.TOP_BOOT F.TOP_BOOT_STAGE 3 ∧
      t = { s with csr := t.csr }) ∧
    (∀ who, mode ≠ 3 → exec (.bootGo who) s = .next s)) ∧
  (∀ (s : State) (seat : Nat), s.live = true → s.stage = 3 → seat < 2 → seat ∉ s.crank.verified →
    (s.verifyFw s.bufferImage = true → ∃ t, exec (.verifyStage seat) s = .next t ∧
      t.crank.verified = s.crank.verified ++ [seat] ∧ (if seat = 1 then t.crank.imageB else t.crank.image) = s.bufferImage ∧
      t.stage = (if s.crank.verified.length = 1 then 4 else 3) ∧ t.mem = s.mem) ∧
    (s.verifyFw s.bufferImage = false → ∃ t, exec (.verifyStage seat) s = .next t ∧
      t.bit R.TOP_BOOT F.TOP_BOOT_FALLBACK = true ∧ t.crank.verified = [] ∧ t.boot.tried = s.boot.tried + 1 ∧
      (s.bootSlots[s.boot.tried + 1]?.isSome = true → t.stage = 2 ∧ t.crank.roleA = s.crank.roleA) ∧
      (s.bootSlots[s.boot.tried + 1]? = none → t.stage = 15 ∧ t.crank.roleA = .failed ∧ t.crank.roleB = .failed ∧
        t.bit R.TOP_ERR F.TOP_ERR_BOOT_FAIL = true ∧ t.bit R.TOP_ALERT F.TOP_ALERT_BOOT = true))) ∧
  (∀ (s : State) (cap : Nat), s.live = true → s.stage = 4 → s.bootCaptain = some cap → cap < 2 → s.bestPage = none →
    s.epochLeft = true → ∃ t, exec (.lamplighterStage 0) s = .next t ∧ t.role cap = .captain ∧ t.claimOf cap = 1 ∧
      t.fld R.CRK_AUTH F.CRK_AUTH_AUTH = 1 ∧
      (s.role (other cap) ≠ .failed → t.role (other cap) = .stoker ∧ t.claimOf (other cap) = 0 ∧ t.crank.synced = true) ∧
      (s.role (other cap) = .failed → t.role (other cap) = .failed ∧ t.crank.synced = false) ∧ t.stage = 5 ∧
      t.boot.paged = true ∧ (s.boot.paged = false → t.bit R.CAL_ERR F.CAL_ERR_NO_PAGE = true) ∧
      t.bit R.SWX_ATT F.SWX_ATT_EPOCH_VALID = true ∧ t.fld R.SWX_ATT F.SWX_ATT_EPOCH = s.ras.epochBurned ∧
      t.fld R.SWX_ATT F.SWX_ATT_LEAF = 0 ∧ t.ras.epochBurned = s.ras.epochBurned + 1 ∧ t.mem = s.mem) ∧
  (∀ (s : State) (rates : List Nat) (widths remaps : List (List Nat)) (codes : List (List (Nat × Nat × Nat × Nat))),
    s.live = true → s.stage = 5 → rates.length = 8 →
    (∀ st, st < 8 → s.fld (R.HBM_CFG st) F.HBM_CFG_RATE ≤ rates.getD st 0 ∧ rates.getD st 0 ≤ 3) →
    (∀ l ∈ remaps, ∀ pc ∈ l, pc < 32) →
    (∀ l ∈ codes, ∀ c ∈ l, c.1 < 2048 ∧ c.1 % 64 < 36 ∧ c.2.1 < 128 ∧ c.2.2.1 < 128 ∧ c.2.2.2 < 128) →
    ((∀ st, st < 8 → rates.getD st 0 < 3) → ∃ t, exec (.hbmStage rates widths remaps codes) s = .next t ∧ t.stage = 6 ∧
      (∀ st, st < 8 → t.hbmReady st = true ∧ (s.fld (R.HBM_STAT st) F.HBM_STAT_STATE ≠ 3 →
        t.fld (R.HBM_STAT st) F.HBM_STAT_RATE_USED = rates.getD st 0 ∧
        (s.fld (R.HBM_CFG st) F.HBM_CFG_RATE < rates.getD st 0 → t.bit (R.HBM_ERR st) F.HBM_ERR_RATE_DOWN = true))) ∧
      t.mem = s.mem) ∧
    (∀ st, st < 8 → rates.getD st 0 = 3 → ∃ t, exec (.hbmStage rates widths remaps codes) s = .next t ∧ t.stage = 15 ∧
      t.fld (R.HBM_STAT st) F.HBM_STAT_STATE = 4 ∧ t.bit (R.HBM_ERR st) F.HBM_ERR_TRAIN_FAIL = true ∧
      t.bit R.TOP_ERR F.TOP_ERR_BOOT_FAIL = true ∧ t.bit R.TOP_ALERT F.TOP_ALERT_BOOT = true ∧ t.mem = s.mem)) ∧
  (∀ (s : State) (bases : List Nat), s.live = true → s.stage = 6 → bases.length = 4 → bases.Nodup →
    (∀ b ∈ bases, b % 0x100000 = 0 ∧ 0x4680000000 ≤ b ∧ b < 0x4780000000) →
    let g := nextGen (s.inst 0).lastGen
    ∃ t, exec (.servicesStage bases) s = .next t ∧ t.stage = 7 ∧ (t.inst 0).st = 1 ∧ (t.inst 0).gen = g ∧
      (∀ i, i ≠ 0 → t.inst i = s.inst i) ∧
      (∀ c, c < 4 → t.fld (R.CHD_SHADOW c) F.CHD_SHADOW_BASE = bases.getD c 0 ∧
        ∀ o, o < 0x100000 → t.peek (bases.getD c 0 + o) 1 = [0]) ∧
      (s.boot.warm = true → ∀ a, a < 0x4680000000 → t.peek a 1 = [0]) ∧
      (s.boot.warm = false → ∀ a, a < 0x4680000000 → t.peek a 1 = s.peek a 1)) ∧
  (∀ (s : State), s.live = true → s.stage = 7 → ∃ t, exec .linksStage s = .next t ∧ t.stage = 8 ∧
    (∀ p, p < 6 → t.fld (R.MLK_CFG p) F.MLK_CFG_MODE = b2n (bitAt (s.fld R.TOP_PORTCFG F.TOP_PORTCFG_MODE) p) ∧
      t.portState p = (if bitAt (s.fld R.TOP_PORTCFG F.TOP_PORTCFG_EN) p ∧ s.portState p = 0 then 1 else s.portState p)) ∧
    t.fld R.MLK0_PACE F.MLK0_PACE_DEVICE_ID = s.fld R.TOP_PORTCFG F.TOP_PORTCFG_DEVICE_ID ∧
    (s.bit R.TOP_MGRQ_CFG F.TOP_MGRQ_CFG_VALID = true → Tab.get t.queues 0 = some s.managerQueue ∧
      s.managerQueue.st = .enabled) ∧
    (s.bit R.TOP_MGRQ_CFG F.TOP_MGRQ_CFG_VALID = false → t.queues = s.queues) ∧ t.mem = s.mem)

/-! ### Management -/

/-- R825 to R829, R787, R801, R809: what the management port, JTAG and the monitors do. -/
def Obligations.Management : Prop :=
  (∀ (s : State) (off val byte : Nat) (bytes : List Byte),
    (s.busServes .mgmt = true → exec (.smbCsrRead off false) s = .next (s.bump R.TOP_SMB_BADPEC) ∧
      exec (.smbCsrWrite off val false) s = .next (s.bump R.TOP_SMB_BADPEC) ∧
      exec (.smbCommand bytes false) s = .next (s.bump R.TOP_SMB_BADPEC) ∧
      exec (.smbStatusRead false) s = .next (s.bump R.TOP_SMB_BADPEC) ∧
      exec (.smbFreeze byte false) s = .next (s.bump R.TOP_SMB_BADPEC)) ∧
    (s.busServes .mgmt = false → ∀ pec, exec (.smbCsrRead off pec) s = .next s ∧ exec (.smbCsrWrite off val pec) s = .next s ∧
      exec (.smbCommand bytes pec) s = .next s ∧ exec (.smbStatusRead pec) s = .next s ∧
      exec (.smbFreeze byte pec) s = .next s ∧ exec .smbAlertResponse s = .next s)) ∧
  (∀ (s : State) (off val : Nat), s.busServes .mgmt = true → off < 2 ^ 32 →
    let answer (t : State) (bs : List Byte) : State := { t with boot := { t.boot with readData := bs, nack := false } }
    (off % 8 = 0 → occupied off = true → off < R.DRL_HIST 0 ∨ R.DRL_HIST 1024 ≤ off →
      exec (.smbCsrRead off true) s = .next (answer s (le (s.csrRead off) 8))) ∧
    (off % 8 ≠ 0 → ∃ t, exec (.smbCsrRead off true) s = .next (answer t (le 0 8)) ∧
      Logged s t { kind := 1, detail := 8, addr := off, who := .mgmt } ∧ t = { s with csr := t.csr, ras := t.ras }) ∧
    (∃ t, exec (.csrWrite .mgmt off 8 val) s = .next t ∧ exec (.smbCsrWrite off val true) s = .next (answer t []))) ∧
  (∀ (s : State) (bytes : List Byte), s.busServes .mgmt = true →
    (s.boot.mgmtCmd.isSome = true ∨ bytes.length ≠ 64 →
      exec (.smbCommand bytes true) s = .next { s with boot := { s.boot with readData := [], nack := true } }) ∧
    (s.boot.mgmtCmd = none → bytes.length = 64 →
      let e := readEntry bytes
      let ends (st : Nat) : Prop := ∃ t, exec (.smbCommand bytes true) s = .next t ∧ t.boot.mgmtState = 2 ∧
        t.boot.mgmtArea.take 2 = le st 2 ∧ Tab.get t.cmds mgmtKey = none ∧ t.boot.mgmtCmd = none ∧ t.boot.nack = false ∧
        t.csr = s.csr ∧ t.mem = s.mem
      let whole := bitAt e.flags 0 = true ∧ bitAt e.flags 1 = true
      (e.units ≠ 1 → ends Status.invalidLength) ∧ (e.units = 1 → ¬whole → ends Status.chainBroken) ∧
      (e.units = 1 → whole → e.opcode ∉ mgmtOpcodes → ends Status.invalidOpcode) ∧
      (e.units = 1 → whole → e.opcode ∈ mgmtOpcodes →
        (∀ r, headerOffence e 0 = some r → ends Status.invalidField) ∧
        (headerOffence e 0 = none → (paramOffence e.opcode (slice bytes 8 40)).isSome = true → ends Status.invalidField) ∧
        (headerOffence e 0 = none → paramOffence e.opcode (slice bytes 8 40) = none →
          paramMissing e.opcode (slice bytes 8 40) = false → ∃ t c, exec (.smbCommand bytes true) s = .next t ∧
            Tab.get t.cmds mgmtKey = some c ∧ c.opcode = e.opcode ∧ c.prm = slice bytes 8 40 ∧ c.inst = 0 ∧
            c.gen = s.genOf 0 ∧ c.mgmt = true ∧ c.finished = false ∧ c.started = false ∧ t.boot.mgmtCmd = some mgmtKey ∧
            t.boot.mgmtState = 1 ∧ t.boot.nack = false ∧
            t = { s with cmds := t.cmds, cmdSeq := s.cmdSeq + 1, boot := t.boot }))) ∧
    exec (.smbStatusRead true) s = .next { s with boot :=
      { s.boot with readData := le s.boot.mgmtState 1 ++ s.boot.mgmtArea, nack := false } } ∧
    exec .smbAlertResponse s = .next { s with pins := { s.pins with smbAlertN := true } }) ∧
  (∀ (s : State) (byte : Nat), s.busServes .mgmt = true →
    (byte = 0xA5 → s.bit R.DBG_CTL F.DBG_CTL_SMB_EN = true → ∃ t, exec (.smbFreeze byte true) s = .next t ∧ Freezes s t 2) ∧
    (byte ≠ 0xA5 ∨ s.bit R.DBG_CTL F.DBG_CTL_SMB_EN = false →
      exec (.smbFreeze byte true) s = .next { s with boot := { s.boot with readData := [], nack := false } })) ∧
  (∀ (s : State) (cells : List Bool) (ir : Nat),
    let tap (t : State) (ir : Nat) : Prop := t.boot.jtagIr = ir ∧ t.boot.jtagDone = true ∧ t.boot.jtagErr = false
    (∃ t, exec (.extest cells) s = .next t ∧ tap t 0x00 ∧ t.pins = { s.pins with scan := cells } ∧
      t = { s with drawn := t.drawn, pins := t.pins, boot := t.boot }) ∧
    (∃ t, exec (.samplePreload cells) s = .next t ∧ tap t 0x01 ∧ t.pins = { s.pins with scan := cells } ∧
      t = { s with drawn := t.drawn, pins := t.pins, boot := t.boot }) ∧
    (∃ t, exec .idcode s = .next t ∧ tap t 0x02 ∧ t.boot.jtagData = 0x1B32A0F3 ∧ t = { s with boot := t.boot }) ∧
    (ir < 256 → ir ∉ [0x00, 0x01, 0x02, 0x10, 0x11, 0x20, 0x21] → ∃ t, exec (.bypass ir) s = .next t ∧ tap t ir ∧
      t = { s with boot := t.boot })) ∧
  (∀ (s : State) (addr data : Nat), s.busServes .jtag = true → addr < 2 ^ 40 →
    let done (t : State) (err : Bool) : Prop := t.boot.jtagIr = 0x10 ∧ t.boot.jtagDone = true ∧ t.boot.jtagErr = err
    (addr + 8 ≤ 0x4780000000 → Memory.wf s.mem = true → ∃ t, exec (.memAcc true addr data) s = .next t ∧ done t false ∧
      t.peek addr 8 = le data 8 ∧ SameOutside s.mem t.mem addr 8 ∧
      t = { s with mem := t.mem, poison := t.poison, boot := t.boot }) ∧
    (addr + 8 ≤ 0x4780000000 → s.ras.frozen = false → s.poisoned addr 8 = false →
      ∃ t, exec (.memAcc false addr data) s = .next t ∧ done t false ∧ t.boot.jtagData = leNat (s.hbmRead addr 8) ∧
        t = { s with boot := t.boot }) ∧
    (addr + 8 ≤ 0x4780000000 → s.ras.frozen = false → s.poisoned addr 8 = true →
      ∃ t, exec (.memAcc false addr data) s = .next t ∧ done t true ∧ t = { s with boot := t.boot }) ∧
    (addr + 8 ≤ 0x4780000000 → s.ras.frozen = true → ∃ t, exec (.memAcc false addr data) s = .next t ∧ done t false ∧
      t.boot.jtagData = 0 ∧ t.bit R.DBG_ERR F.DBG_ERR_HBM_FROZEN = true ∧ t = { s with csr := t.csr, boot := t.boot }) ∧
    (∀ write, s.place addr = .unassigned → ∃ t, exec (.memAcc write addr data) s = .next t ∧ done t true ∧
      (s.ras.frozen = false → Logged s t { kind := 2, detail := b2n write, addr := addr, who := .jtag }) ∧
      t = { s with csr := t.csr, ras := t.ras, boot := t.boot })) ∧
  (∀ (s : State) (pos off data : Nat), s.busServes .jtag = true → off < 0x40000 →
    let done (t : State) (err : Bool) : Prop := t.boot.jtagIr = 0x11 ∧ t.boot.jtagDone = true ∧ t.boot.jtagErr = err
    let stored (array key : Nat) : Prop :=
      (Memory.wf s.mem = true → ∃ t, exec (.testAcc true (off + pos * 2 ^ 18 + array * 2 ^ 36) data) s = .next t ∧
        done t false ∧ t.peek key 8 = le data 8 ∧ SameOutside s.mem t.mem key 8 ∧
        t = { s with mem := t.mem, poison := t.poison, boot := t.boot }) ∧
      (∃ t, exec (.testAcc false (off + pos * 2 ^ 18 + array * 2 ^ 36) data) s = .next t ∧ done t false ∧
        t.boot.jtagData = leNat (s.peek key 8) ∧ t = { s with boot := t.boot })
    (pos < 68 → off + 8 ≤ 0x40000 → stored 1 (codeKey pos off)) ∧
    (pos < 1156 → off + 8 ≤ 0x20000 → stored 2 (waxKey pos off)) ∧
    (pos < 128 → off % 8 = 0 → off / 8 < 2048 →
      let row := 2048 * (pos % 32) + off / 8
      (∃ t, exec (.testAcc true (off + pos * 2 ^ 18 + 3 * 2 ^ 36) data) s = .next t ∧ done t false ∧
        Tab.get (t.chd (pos / 32)).rows row = some { data := data % 2 ^ 64, wrote := data % 2 ^ 64 } ∧
        t = { s with chds := t.chds, boot := t.boot }) ∧
      (∃ t, exec (.testAcc false (off + pos * 2 ^ 18 + 3 * 2 ^ 36) data) s = .next t ∧ done t false ∧
        t.boot.jtagData = (Tab.at (s.chd (pos / 32)).rows row).data % 2 ^ 64 ∧ t = { s with boot := t.boot })) ∧
    (∀ array write, array < 16 → array = 0 ∨ 3 < array → pos < 2 ^ 18 →
      ∃ t, exec (.testAcc write (off + pos * 2 ^ 18 + array * 2 ^ 36) data) s = .next t ∧ done t true ∧
        t = { s with boot := t.boot })) ∧
  (∀ (s : State) (n : Nat) (raw : Int), s.live = true → n < 64 →
    let off := R.CAL_TS n
    let user := sgn 16 (s.fld off F.CAL_TS_FACTORY) + sgn 16 (s.fld off F.CAL_TS_USER)
    let x := raw + max (-3000) (min 3000 user)
    ∃ t, exec (.dieSensorConversion n raw) s = .next t ∧
      (-32768 ≤ x → x ≤ 32767 → sgn 16 (t.fld off F.CAL_TS_TEMP) = x) ∧
      (100 * (s.fld R.TOP_THERM F.TOP_THERM_DIE_ALERT : Int) ≤ x → t.bit R.TOP_ALERT F.TOP_ALERT_THERM = true) ∧
      (x < 100 * (s.fld R.TOP_THERM F.TOP_THERM_DIE_ALERT : Int) → t.rd R.TOP_ALERT = s.rd R.TOP_ALERT) ∧
      RegsBut s t [off, R.TOP_THERM, R.TOP_ALERT] ∧ t = { s with csr := t.csr, pins := t.pins }) ∧
  (∀ (s : State) (v raw : Nat), s.live = true → v < 16 →
    let off := R.CAL_VM v
    let user := sgn 16 (s.fld off F.CAL_VM_FACTORY) + sgn 16 (s.fld off F.CAL_VM_USER)
    let x : Int := max 0 ((raw : Int) + max (-1000) (min 1000 user))
    let rail := s.railOf v
    ∃ t, exec (.voltageMonitorReading v raw) s = .next t ∧ t.fld off F.CAL_VM_VOLTS = min 65535 (x.toNat / 10) ∧
      (rail.1 * rail.2 < 1000 * (x - rail.1).natAbs → t.bit R.TOP_ALERT F.TOP_ALERT_VOLT = true) ∧
      (1000 * (x - rail.1).natAbs ≤ rail.1 * rail.2 → t.rd R.TOP_ALERT = s.rd R.TOP_ALERT) ∧
      RegsBut s t [off, R.TOP_ALERT] ∧ t = { s with csr := t.csr, pins := t.pins })

/-! ### The block as a whole -/

/-- The command in front of the queue acts on the block with the rest of the queue; with an empty queue one TB cycle
passes, which is the model's choice (log entry 3). -/
def Obligations.StepFront : Prop :=
  (∀ (s : State) (c : Instr) (rest : List Instr),
    step { s with pending := c :: rest } = exec c { s with pending := rest }) ∧
  (∀ (s : State), s.pending = [] → step s = .next s.tick)

/-- R18, R706, R711, R812, R818: what cold reset leaves: every register at its cold-reset value, no queue, command, run or
instance, both seats BOOTING, stage `FUSES`, no memory written; every memory is in canonical form. -/
def Obligations.ResetState : Prop :=
  (∀ off, State.reset.rd off = regReset off) ∧ MemOk State.reset ∧ State.reset.pending = [] ∧ State.reset.stage = 0 ∧
    State.reset.captain = none ∧ State.reset.crank.stroke = 0 ∧ State.reset.queues = [] ∧ State.reset.cmds = [] ∧
    State.reset.runs = [] ∧ State.reset.ctxs = [] ∧ State.reset.insts = [] ∧ State.reset.ras.frozen = false

/-- R8, R41: every step keeps every memory of the block in canonical form, and no step stops. -/
def Obligations.MemoriesKept : Prop :=
  ∀ s, MemOk s → ∃ t, step s = .next t ∧ MemOk t

/-- R706: at most one seat is CAPTAIN, before and after every step, and `CRK_STAT` shows the role of each seat by the codes
of its table. -/
def Obligations.OneCaptain : Prop :=
  let one (s : State) : Prop := ¬(s.crank.roleA = .captain ∧ s.crank.roleB = .captain)
  (∀ s, one s → ∃ t, step s = .next t ∧ one t) ∧
  ∀ s : State, s.csrRead R.CRK_STAT % 4 = s.crank.roleA.code ∧ s.csrRead R.CRK_STAT / 4 % 4 = s.crank.roleB.code

/-- R794: while the device is frozen nothing but JTAG, the reset and grant pins and SNUFF_N reaches it: any other command
leaves every register, memory and queue as it was, and so does the passage of time. -/
def Obligations.FrozenHolds : Prop :=
  ∀ s : State, s.ras.frozen = true → (∀ c ∈ s.pending.head?, reachesFrozen c = false) →
    step s = .next { s with pending := s.pending.tail }
end

