-- ==== Sys2Proof/Laws/Crypto.lean ====
section
/-! SUPPORT. Lengths of what the ciphers answer, and what GCM enciphers it deciphers (R731, R751, R752). -/
namespace Sys2Proof.Machine

theorem le_length (n w : Nat) : (le n w).length = w := by
  induction w generalizing n with
  | zero => rfl
  | succ w ih => simp [le, ih]

theorem be_length (n w : Nat) : (be n w).length = w := by simp [be, le_length]

/-! ### SHA-256 -/

theorem shaRound_length (h : List Nat) (kw : Nat × Nat) (l : h.length = 8) : (shaRound h kw).length = 8 := by
  match h, l with
  | [_, _, _, _, _, _, _, _], _ => rfl

theorem shaBlock_length (h : List Nat) (blk : List Byte) (l : h.length = 8) : (shaBlock h blk).length = 8 := by
  have key (ks : List (Nat × Nat)) (h : List Nat) (l : h.length = 8) : (ks.foldl shaRound h).length = 8 := by
    induction ks generalizing h with
    | nil => exact l
    | cons k ks ih => exact ih _ (shaRound_length h k l)
  simp [shaBlock, l, key]

theorem shaBlocks_length (h : List Nat) (bs : List Byte) (l : h.length = 8) : (shaBlocks h bs).length = 8 := by
  have key (is : List Nat) (h : List Nat) (l : h.length = 8) :
      (is.foldl (fun h i => shaBlock h (slice bs (64 * i) 64)) h).length = 8 := by
    induction is generalizing h with
    | nil => exact l
    | cons k ks ih => exact ih _ (shaBlock_length h _ l)
  exact key _ h l

theorem sha256_length (bs : List Byte) : (sha256 bs).length = 32 := by
  have key (ws : List Nat) : (ws.flatMap fun w => be w 4).length = 4 * ws.length := by
    induction ws with
    | nil => rfl
    | cons w ws ih => simp [ih, be_length]; omega
  rw [sha256, shaFinish, key, shaBlocks_length _ _ (by decide)]

theorem kdf_length (s : List Byte) (label n : Nat) (x : List Byte) : (kdf s label n x).length = 32 := sha256_length _

/-! ### AES-256 -/

/-- Words of a key schedule. -/
def WordsOk (w : List (List Nat)) : Prop := ∀ x ∈ w, x.length = 4

theorem getD_length (w : List (List Nat)) (i : Nat) (h : WordsOk w) (l : i < w.length) : (w.getD i []).length = 4 := by
  rw [List.getD, List.getElem?_eq_getElem l]
  exact h _ (List.getElem_mem l)

theorem aesExtend_succ (n i : Nat) (w : List (List Nat)) (h : WordsOk w) (l : 8 ≤ w.length) :
    ∃ v, v.length = 4 ∧ aesExtend (n + 1) i w = aesExtend n (i + 1) (v :: w) := by
  refine ⟨_, ?_, rfl⟩
  have h7 := getD_length w 7 h (by omega)
  match w, l with
  | x :: w, _ =>
    have h0 : x.length = 4 := h x (by simp)
    match x, h0 with
    | [a, b, c, d], _ =>
      rw [List.length_zipWith, h7]
      simp only [List.headD_cons]
      split
      · rfl
      · split <;> rfl

theorem aesExtend_ok (n i : Nat) (w : List (List Nat)) (h : WordsOk w) (l : 8 ≤ w.length) :
    WordsOk (aesExtend n i w) ∧ (aesExtend n i w).length = w.length + n := by
  induction n generalizing i w with
  | zero => exact ⟨h, rfl⟩
  | succ n ih =>
    obtain ⟨v, hv, e⟩ := aesExtend_succ n i w h l
    have hr := ih (i + 1) (v :: w) (fun x m => (List.mem_cons.mp m).elim (fun q => q ▸ hv) (h x)) (by simp; omega)
    rw [e]
    exact ⟨hr.1, by rw [hr.2, List.length_cons]; omega⟩

theorem aesKeys_row (key : List Byte) (l : key.length = 32) (r : Nat) (hr : r < 15) :
    ((aesKeys key).getD r []).length = 16 := by
  have hw : WordsOk (((List.range 8).map fun i => (slice key (4 * i) 4).map (·.toNat)).reverse) := by
    intro x m
    simp only [List.mem_reverse, List.mem_map, List.mem_range] at m
    obtain ⟨i, hi, rfl⟩ := m
    simp [slice, l]; omega
  obtain ⟨h1, h2⟩ := aesExtend_ok 52 8 _ hw (by simp)
  simp only [List.length_reverse, List.length_map, List.length_range] at h2
  unfold aesKeys
  rw [List.getD, List.getElem?_map, List.getElem?_range hr]
  simp only [Option.map_some, Option.getD_some]
  have key (ws : List (List Nat)) (h : WordsOk ws) : ws.flatten.length = 4 * ws.length := by
    induction ws with
    | nil => rfl
    | cons w ws ih =>
      simp [h w (by simp), ih fun x m => h x (by simp [m])]; omega
  rw [key]
  · simp [h2]; omega
  · intro x m
    exact h1 x (by simpa using List.mem_of_mem_drop (List.mem_of_mem_take m))

theorem aesBlock_length (key blk : List Byte) (l : key.length = 32) :
    (aesBlock (aesKeys key) blk).length = 16 := by
  have add (st : List Nat) (r : Nat) (hs : st.length = 16) (hr : r < 15) :
      (st.zipWith (· ^^^ ·) ((aesKeys key).getD r [])).length = 16 := by
    rw [List.length_zipWith, hs, aesKeys_row key l r hr]; rfl
  have go (rs : List Nat) (h : ∀ r ∈ rs, r < 14) (st : List Nat) (hs : st.length = 16) :
      (rs.foldl (fun st r => (mixColumns (shiftRows (st.map sbox))).zipWith (· ^^^ ·) ((aesKeys key).getD (r + 1) [])) st).length = 16 := by
    induction rs generalizing st with
    | nil => exact hs
    | cons r rs ih =>
      exact ih (fun x m => h x (by simp [m])) _ (add _ _ (by simp [mixColumns]) (by have := h r (by simp); omega))
  unfold aesBlock
  rw [List.length_map]
  exact add _ _ (by simp [shiftRows]) (by omega)

/-! ### GCM -/

theorem flatMap_congr {α β : Type} {f g : α → List β} {l : List α} (h : ∀ x ∈ l, f x = g x) : l.flatMap f = l.flatMap g := by
  induction l with
  | nil => rfl
  | cons x l ih => simp [h x (by simp), ih fun y m => h y (by simp [m])]

theorem flatMap_length (f : Nat → List Byte) (hf : ∀ i, (f i).length = 16) (n : Nat) :
    ((List.range n).flatMap f).length = 16 * n := by
  induction n with
  | zero => rfl
  | succ n ih => rw [List.range_succ, List.flatMap_append, List.length_append, ih]; simp [hf]; omega

theorem flatMap_slice (f : Nat → List Byte) (hf : ∀ i, (f i).length = 16) (n i : Nat) (h : i < n) :
    slice ((List.range n).flatMap f) (16 * i) 16 = f i := by
  induction n with
  | zero => omega
  | succ n ih =>
    rw [List.range_succ, List.flatMap_append]
    have hl := flatMap_length f hf n
    by_cases e : i = n
    · subst e
      rw [slice, ← hl, List.drop_left]; simp [List.take_of_length_le, hf]
    · have := ih (by omega)
      rw [slice, List.drop_append, List.take_append_of_le_length]
      · exact this
      · simp [hl]; omega

theorem flatMap_slices (bs : List Byte) (n : Nat) (h : bs.length = 16 * n) :
    ((List.range n).flatMap fun i => slice bs (16 * i) 16) = bs := by
  have key (m : Nat) (hm : m ≤ n) : ((List.range m).flatMap fun i => slice bs (16 * i) 16) = bs.take (16 * m) := by
    induction m with
    | zero => simp
    | succ m ih =>
      rw [List.range_succ, List.flatMap_append, ih (by omega)]
      simp only [List.flatMap_cons, List.flatMap_nil, List.append_nil, slice]
      rw [Nat.mul_succ, List.take_add]
  rw [key n (Nat.le_refl n), ← h, List.take_length]

theorem xor_zip (a k : List Byte) (h : a.length ≤ k.length) :
    (a.zipWith (· ^^^ ·) k).zipWith (· ^^^ ·) k = a := by
  induction a generalizing k with
  | nil => rfl
  | cons x a ih =>
    match k, h with
    | y :: k, h => simp [BitVec.xor_assoc, ih k (by simpa using h)]

/-- R751: deciphering undoes enciphering, over whole blocks. -/
theorem gcmStream_twice (key iv bs : List Byte) (n : Nat) (l : key.length = 32) (h : bs.length = 16 * n) :
    gcmStream (aesKeys key) iv (gcmStream (aesKeys key) iv bs) = bs ∧ (gcmStream (aesKeys key) iv bs).length = 16 * n := by
  have hk (i : Nat) : (aesBlock (aesKeys key) (iv ++ be (i + 2) 4)).length = 16 :=
    aesBlock_length key _ l
  have hc : ceilDiv (16 * n) 16 = n := by unfold ceilDiv; omega
  have e : gcmStream (aesKeys key) iv bs =
      (List.range n).flatMap fun i => (slice bs (16 * i) 16 ++ zeros (16 - (slice bs (16 * i) 16).length)).zipWith (· ^^^ ·)
        (aesBlock (aesKeys key) (iv ++ be (i + 2) 4)) := by
    unfold gcmStream
    rw [h, hc]
    refine flatMap_congr ?_
    intro i m
    have : (slice bs (16 * i) 16).length = 16 := by simp [slice, h]; have := List.mem_range.mp m; omega
    simp [this, zeros]
  have hf (i : Nat) : ((slice bs (16 * i) 16 ++ zeros (16 - (slice bs (16 * i) 16).length)).zipWith (· ^^^ ·)
        (aesBlock (aesKeys key) (iv ++ be (i + 2) 4))).length = 16 := by
    simp [hk, zeros, slice] <;> omega
  have hlen : (gcmStream (aesKeys key) iv bs).length = 16 * n := by rw [e]; exact flatMap_length _ hf n
  refine ⟨?_, hlen⟩
  rw [gcmStream, hlen, hc]
  refine Eq.trans (flatMap_congr ?_) (flatMap_slices bs n h)
  intro i m
  have hi := List.mem_range.mp m
  have hs : (slice bs (16 * i) 16).length = 16 := by simp [slice, h]; omega
  rw [e, flatMap_slice _ hf n i hi, xor_zip _ _ (by simp [hk, zeros, slice] <;> omega), hs]
  simp [zeros]

/-! ### Wrapped blobs (R752) -/

theorem slice_left (a b : List Byte) (o n : Nat) (h : o + n ≤ a.length) : slice (a ++ b) o n = slice a o n := by
  rw [slice, List.drop_append_of_le_length (by omega), List.take_append_of_le_length (by simp; omega), slice]

theorem slice_right (a b : List Byte) (o n : Nat) (h : a.length ≤ o) : slice (a ++ b) o n = slice b (o - a.length) n := by
  rw [slice, List.drop_append, List.drop_eq_nil_of_le h, List.nil_append, slice]

theorem fieldAt_left (a b : List Byte) (o n : Nat) (h : o + n ≤ a.length) : fieldAt (a ++ b) o n = fieldAt a o n := by
  rw [fieldAt, slice_left _ _ _ _ h, fieldAt]

/-- A blob of 192 bytes under a header of 24. -/
def sealedBlob (key head iv p : List Byte) : List Byte :=
  let ct := gcmStream (aesKeys key) iv p
  head ++ (iv ++ (zeros 4 ++ (ct ++ (gcmTag (aesKeys key) iv head ct ++ zeros 8))))

/-- The header, and the initial value, of a blob. -/
theorem sealedBlob_field (key head iv p : List Byte) (o n : Nat) (h : o + n ≤ head.length) :
    fieldAt (sealedBlob key head iv p) o n = fieldAt head o n := by
  unfold sealedBlob
  rw [fieldAt_left _ _ _ _ h]

theorem sealedBlob_iv (key head iv p : List Byte) (o n : Nat) (lh : head.length = 24) (h : 24 ≤ o) (l : o + n ≤ 24 + iv.length) :
    fieldAt (sealedBlob key head iv p) o n = fieldAt iv (o - 24) n := by
  unfold sealedBlob
  rw [fieldAt, slice_right _ _ _ _ (by omega), lh, slice_left _ _ _ _ (by omega), fieldAt]

/-- R752: a blob whose header holds the fixed bytes unwraps under the key that wrapped it. -/
theorem unwrapBlob_sealed (key head iv p : List Byte) (lk : key.length = 32) (lh : head.length = 24) (li : iv.length = 12)
    (lp : p.length = 192) (h0 : fieldAt head 0 4 = 0x42574B50) (h4 : fieldAt head 4 1 = 1) (h6 : fieldAt head 6 2 = 0)
    (h14 : fieldAt head 14 2 = 0) (h20 : fieldAt head 20 4 = 0) : unwrapBlob key (sealedBlob key head iv p) = some p := by
  obtain ⟨twice, lc⟩ := gcmStream_twice key iv p 12 lk lp
  have lt : (gcmTag (aesKeys key) iv head (gcmStream (aesKeys key) iv p)).length = 16 := by simp [gcmTag, be_length]
  have e24 : slice (sealedBlob key head iv p) 24 12 = iv := by
    rw [sealedBlob, slice_right _ _ _ _ (by omega), slice_left _ _ _ _ (by omega), lh]
    simp [slice, List.take_of_length_le, li]
  have e36 : slice (sealedBlob key head iv p) 36 4 = zeros 4 := by
    rw [sealedBlob, slice_right _ _ _ _ (by omega), slice_right _ _ _ _ (by omega),
      slice_left _ _ _ _ (by simp [lh, li, zeros]), lh, li]
    rfl
  have e40 : slice (sealedBlob key head iv p) 40 192 = gcmStream (aesKeys key) iv p := by
    rw [sealedBlob, slice_right _ _ _ _ (by omega), slice_right _ _ _ _ (by omega),
      slice_right _ _ _ _ (by simp [lh, li, zeros]), slice_left _ _ _ _ (by simp [lh, li, lc, zeros]), lh, li]
    simp [slice, zeros, List.take_of_length_le, lc]
  have e232 : slice (sealedBlob key head iv p) 232 16 = gcmTag (aesKeys key) iv head (gcmStream (aesKeys key) iv p) := by
    rw [sealedBlob, slice_right _ _ _ _ (by omega), slice_right _ _ _ _ (by omega),
      slice_right _ _ _ _ (by simp [lh, li, zeros]), slice_right _ _ _ _ (by simp [lh, li, lc, zeros]),
      slice_left _ _ _ _ (by simp [lh, li, lc, lt, zeros]), lh, li, lc]
    simp [slice, zeros, List.take_of_length_le, lt]
  have e248 : slice (sealedBlob key head iv p) 248 8 = zeros 8 := by
    rw [sealedBlob, slice_right _ _ _ _ (by omega), slice_right _ _ _ _ (by omega),
      slice_right _ _ _ _ (by simp [lh, li, zeros]), slice_right _ _ _ _ (by simp [lh, li, lc, zeros]),
      slice_right _ _ _ _ (by simp [lh, li, lc, lt, zeros]), lh, li, lc, lt]
    rfl
  have len : (sealedBlob key head iv p).length = 256 := by simp [sealedBlob, lh, li, lc, lt, zeros]
  have ht : (sealedBlob key head iv p).take 24 = head := by
    rw [sealedBlob, List.take_append_of_le_length (by omega), List.take_of_length_le (by omega)]
  have hf (o n : Nat) (h : o + n ≤ 24) : fieldAt (sealedBlob key head iv p) o n = fieldAt head o n := by
    rw [sealedBlob, fieldAt_left _ _ _ _ (by omega)]
  unfold unwrapBlob
  simp only [e24, e40, e232, ht, len, hf 0 4 (by omega), hf 4 1 (by omega), hf 6 2 (by omega), hf 14 2 (by omega),
    hf 20 4 (by omega), h0, h4, h6, h14, h20, twice]
  have z4 : leNat (zeros 4) = 0 := by decide
  have z8 : leNat (zeros 8) = 0 := by decide
  simp [fieldAt, e36, e248, z4, z8]

/-- R736, R752: what a key blob that unwraps brings. -/
theorem openKeyBlob_of (s : State) (k : Nat) (b p : List Byte) (u : unwrapBlob (s.loadKey k) b = some p)
    (h5 : fieldAt b 5 1 = 2) (h8 : fieldAt b 8 4 = 0) (h12 : fieldAt b 12 1 = k) (h13 : fieldAt b 13 1 = 0)
    (h16 : fieldAt b 16 4 = 0) (n1 : 1 ≤ fieldAt p 0 1) (n2 : fieldAt p 0 1 ≤ 64) (p1 : fieldAt p 1 1 = 0)
    (pz : leNat (p.drop (4 + fieldAt p 0 1)) = 0) :
    s.openKeyBlob k b = some (slice p 4 (fieldAt p 0 1), fieldAt p 2 2 % 2048) := by
  unfold State.openKeyBlob
  rw [u]
  exact if_pos ⟨h5, h8, h12, h13, h16, n1, n2, p1, pz⟩

/-- R748, R750, R752: the message that a state blob that unwraps brings back. -/
theorem openStateBlob_of (s : State) (k : Nat) (b p : List Byte)
    (u : unwrapBlob (wrapKey (s.fld R.SWX_ATT F.SWX_ATT_EPOCH)) b = some p)
    (h5 : fieldAt b 5 1 = 1) (h8 : fieldAt b 8 2 = k / 65536) (h10 : fieldAt b 10 2 = (s.swxMsg k).gen)
    (h12 : fieldAt b 12 2 = k % 65536) (h16 : fieldAt b 16 4 = s.fld R.SWX_ATT F.SWX_ATT_EPOCH) (h32 : fieldAt b 32 4 = 0)
    (n : fieldAt p 96 1 ≤ 63) (p97 : fieldAt p 97 1 < 4) (p99 : fieldAt p 99 1 = 0) (p120 : fieldAt p 120 72 = 0) :
    s.openStateBlob k b = some { s.swxMsg k with
      keyed := bitAt (fieldAt p 97 1) 0, slot := fieldAt p 98 1, loads := fieldAt p 100 4,
      words := (List.range 8).map fun i => fieldAt p (4 * i) 4, buf := slice p 32 (fieldAt p 96 1), absorbed := fieldAt p 104 8,
      declared := if bitAt (fieldAt p 97 1) 1 then some (fieldAt p 112 8) else none, saved := false } := by
  unfold State.openStateBlob
  dsimp only
  rw [u]
  exact if_pos ⟨h5, h8, h10, h12, h16, h32, n, p97, p99, p120⟩

end Sys2Proof.Machine
end

