-- ==== Sys2Proof/Laws/State.lean ====
section
/-! SUPPORT. What the plain updates of the state leave as it is: one lemma per field per update. -/
namespace Sys2Proof.Machine

variable (s : State)

/-! ### `wr` -/

@[simp] theorem State.wr_pending (off v : Nat) : (s.wr off v).pending = s.pending := rfl
@[simp] theorem State.wr_drawn (off v : Nat) : (s.wr off v).drawn = s.drawn := rfl
@[simp] theorem State.wr_mem (off v : Nat) : (s.wr off v).mem = s.mem := rfl
@[simp] theorem State.wr_hostMem (off v : Nat) : (s.wr off v).hostMem = s.hostMem := rfl
@[simp] theorem State.wr_flash (off v : Nat) : (s.wr off v).flash = s.flash := rfl
@[simp] theorem State.wr_mail (off v : Nat) : (s.wr off v).mail = s.mail := rfl
@[simp] theorem State.wr_poison (off v : Nat) : (s.wr off v).poison = s.poison := rfl
@[simp] theorem State.wr_tb (off v : Nat) : (s.wr off v).tb = s.tb := rfl
@[simp] theorem State.wr_cog (off v : Nat) : (s.wr off v).cog = s.cog := rfl
@[simp] theorem State.wr_ctxs (off v : Nat) : (s.wr off v).ctxs = s.ctxs := rfl
@[simp] theorem State.wr_ready (off v : Nat) : (s.wr off v).ready = s.ready := rfl
@[simp] theorem State.wr_delay (off v : Nat) : (s.wr off v).delay = s.delay := rfl
@[simp] theorem State.wr_queues (off v : Nat) : (s.wr off v).queues = s.queues := rfl
@[simp] theorem State.wr_cmds (off v : Nat) : (s.wr off v).cmds = s.cmds := rfl
@[simp] theorem State.wr_cmdSeq (off v : Nat) : (s.wr off v).cmdSeq = s.cmdSeq := rfl
@[simp] theorem State.wr_writes (off v : Nat) : (s.wr off v).writes = s.writes := rfl
@[simp] theorem State.wr_stagingTurn (off v : Nat) : (s.wr off v).stagingTurn = s.stagingTurn := rfl
@[simp] theorem State.wr_insts (off v : Nat) : (s.wr off v).insts = s.insts := rfl
@[simp] theorem State.wr_regions (off v : Nat) : (s.wr off v).regions = s.regions := rfl
@[simp] theorem State.wr_pipes (off v : Nat) : (s.wr off v).pipes = s.pipes := rfl
@[simp] theorem State.wr_runs (off v : Nat) : (s.wr off v).runs = s.runs := rfl
@[simp] theorem State.wr_pool (off v : Nat) : (s.wr off v).pool = s.pool := rfl
@[simp] theorem State.wr_journal (off v : Nat) : (s.wr off v).journal = s.journal := rfl
@[simp] theorem State.wr_tally (off v : Nat) : (s.wr off v).tally = s.tally := rfl
@[simp] theorem State.wr_merges (off v : Nat) : (s.wr off v).merges = s.merges := rfl
@[simp] theorem State.wr_outbox (off v : Nat) : (s.wr off v).outbox = s.outbox := rfl
@[simp] theorem State.wr_held (off v : Nat) : (s.wr off v).held = s.held := rfl
@[simp] theorem State.wr_mrds (off v : Nat) : (s.wr off v).mrds = s.mrds := rfl
@[simp] theorem State.wr_sent (off v : Nat) : (s.wr off v).sent = s.sent := rfl
@[simp] theorem State.wr_ports (off v : Nat) : (s.wr off v).ports = s.ports := rfl
@[simp] theorem State.wr_crank (off v : Nat) : (s.wr off v).crank = s.crank := rfl
@[simp] theorem State.wr_wicks (off v : Nat) : (s.wr off v).wicks = s.wicks := rfl
@[simp] theorem State.wr_saves (off v : Nat) : (s.wr off v).saves = s.saves := rfl
@[simp] theorem State.wr_sealCount (off v : Nat) : (s.wr off v).sealCount = s.sealCount := rfl
@[simp] theorem State.wr_recSlots (off v : Nat) : (s.wr off v).recSlots = s.recSlots := rfl
@[simp] theorem State.wr_recClock (off v : Nat) : (s.wr off v).recClock = s.recClock := rfl
@[simp] theorem State.wr_bitmaps (off v : Nat) : (s.wr off v).bitmaps = s.bitmaps := rfl
@[simp] theorem State.wr_ledger (off v : Nat) : (s.wr off v).ledger = s.ledger := rfl
@[simp] theorem State.wr_reports (off v : Nat) : (s.wr off v).reports = s.reports := rfl
@[simp] theorem State.wr_dictSeen (off v : Nat) : (s.wr off v).dictSeen = s.dictSeen := rfl
@[simp] theorem State.wr_sconces (off v : Nat) : (s.wr off v).sconces = s.sconces := rfl
@[simp] theorem State.wr_blocks (off v : Nat) : (s.wr off v).blocks = s.blocks := rfl
@[simp] theorem State.wr_credits (off v : Nat) : (s.wr off v).credits = s.credits := rfl
@[simp] theorem State.wr_flits (off v : Nat) : (s.wr off v).flits = s.flits := rfl
@[simp] theorem State.wr_xparts (off v : Nat) : (s.wr off v).xparts = s.xparts := rfl
@[simp] theorem State.wr_peerIns (off v : Nat) : (s.wr off v).peerIns = s.peerIns := rfl
@[simp] theorem State.wr_foldMsgs (off v : Nat) : (s.wr off v).foldMsgs = s.foldMsgs := rfl
@[simp] theorem State.wr_foldQ (off v : Nat) : (s.wr off v).foldQ = s.foldQ := rfl
@[simp] theorem State.wr_sruns (off v : Nat) : (s.wr off v).sruns = s.sruns := rfl
@[simp] theorem State.wr_chds (off v : Nat) : (s.wr off v).chds = s.chds := rfl
@[simp] theorem State.wr_hbm (off v : Nat) : (s.wr off v).hbm = s.hbm := rfl
@[simp] theorem State.wr_retired (off v : Nat) : (s.wr off v).retired = s.retired := rfl
@[simp] theorem State.wr_chains (off v : Nat) : (s.wr off v).chains = s.chains := rfl
@[simp] theorem State.wr_pins (off v : Nat) : (s.wr off v).pins = s.pins := rfl
@[simp] theorem State.wr_boot (off v : Nat) : (s.wr off v).boot = s.boot := rfl
@[simp] theorem State.wr_swx (off v : Nat) : (s.wr off v).swx = s.swx := rfl
@[simp] theorem State.wr_ras (off v : Nat) : (s.wr off v).ras = s.ras := rfl

/-! ### `setFld` -/

@[simp] theorem State.setFld_pending (off : Nat) (f : Nat × Nat) (v : Nat) : (s.setFld off f v).pending = s.pending := rfl
@[simp] theorem State.setFld_drawn (off : Nat) (f : Nat × Nat) (v : Nat) : (s.setFld off f v).drawn = s.drawn := rfl
@[simp] theorem State.setFld_mem (off : Nat) (f : Nat × Nat) (v : Nat) : (s.setFld off f v).mem = s.mem := rfl
@[simp] theorem State.setFld_hostMem (off : Nat) (f : Nat × Nat) (v : Nat) : (s.setFld off f v).hostMem = s.hostMem := rfl
@[simp] theorem State.setFld_flash (off : Nat) (f : Nat × Nat) (v : Nat) : (s.setFld off f v).flash = s.flash := rfl
@[simp] theorem State.setFld_mail (off : Nat) (f : Nat × Nat) (v : Nat) : (s.setFld off f v).mail = s.mail := rfl
@[simp] theorem State.setFld_poison (off : Nat) (f : Nat × Nat) (v : Nat) : (s.setFld off f v).poison = s.poison := rfl
@[simp] theorem State.setFld_tb (off : Nat) (f : Nat × Nat) (v : Nat) : (s.setFld off f v).tb = s.tb := rfl
@[simp] theorem State.setFld_cog (off : Nat) (f : Nat × Nat) (v : Nat) : (s.setFld off f v).cog = s.cog := rfl
@[simp] theorem State.setFld_ctxs (off : Nat) (f : Nat × Nat) (v : Nat) : (s.setFld off f v).ctxs = s.ctxs := rfl
@[simp] theorem State.setFld_ready (off : Nat) (f : Nat × Nat) (v : Nat) : (s.setFld off f v).ready = s.ready := rfl
@[simp] theorem State.setFld_delay (off : Nat) (f : Nat × Nat) (v : Nat) : (s.setFld off f v).delay = s.delay := rfl
@[simp] theorem State.setFld_queues (off : Nat) (f : Nat × Nat) (v : Nat) : (s.setFld off f v).queues = s.queues := rfl
@[simp] theorem State.setFld_cmds (off : Nat) (f : Nat × Nat) (v : Nat) : (s.setFld off f v).cmds = s.cmds := rfl
@[simp] theorem State.setFld_cmdSeq (off : Nat) (f : Nat × Nat) (v : Nat) : (s.setFld off f v).cmdSeq = s.cmdSeq := rfl
@[simp] theorem State.setFld_writes (off : Nat) (f : Nat × Nat) (v : Nat) : (s.setFld off f v).writes = s.writes := rfl
@[simp] theorem State.setFld_stagingTurn (off : Nat) (f : Nat × Nat) (v : Nat) : (s.setFld off f v).stagingTurn = s.stagingTurn := rfl
@[simp] theorem State.setFld_insts (off : Nat) (f : Nat × Nat) (v : Nat) : (s.setFld off f v).insts = s.insts := rfl
@[simp] theorem State.setFld_regions (off : Nat) (f : Nat × Nat) (v : Nat) : (s.setFld off f v).regions = s.regions := rfl
@[simp] theorem State.setFld_pipes (off : Nat) (f : Nat × Nat) (v : Nat) : (s.setFld off f v).pipes = s.pipes := rfl
@[simp] theorem State.setFld_runs (off : Nat) (f : Nat × Nat) (v : Nat) : (s.setFld off f v).runs = s.runs := rfl
@[simp] theorem State.setFld_pool (off : Nat) (f : Nat × Nat) (v : Nat) : (s.setFld off f v).pool = s.pool := rfl
@[simp] theorem State.setFld_journal (off : Nat) (f : Nat × Nat) (v : Nat) : (s.setFld off f v).journal = s.journal := rfl
@[simp] theorem State.setFld_tally (off : Nat) (f : Nat × Nat) (v : Nat) : (s.setFld off f v).tally = s.tally := rfl
@[simp] theorem State.setFld_merges (off : Nat) (f : Nat × Nat) (v : Nat) : (s.setFld off f v).merges = s.merges := rfl
@[simp] theorem State.setFld_outbox (off : Nat) (f : Nat × Nat) (v : Nat) : (s.setFld off f v).outbox = s.outbox := rfl
@[simp] theorem State.setFld_held (off : Nat) (f : Nat × Nat) (v : Nat) : (s.setFld off f v).held = s.held := rfl
@[simp] theorem State.setFld_mrds (off : Nat) (f : Nat × Nat) (v : Nat) : (s.setFld off f v).mrds = s.mrds := rfl
@[simp] theorem State.setFld_sent (off : Nat) (f : Nat × Nat) (v : Nat) : (s.setFld off f v).sent = s.sent := rfl
@[simp] theorem State.setFld_ports (off : Nat) (f : Nat × Nat) (v : Nat) : (s.setFld off f v).ports = s.ports := rfl
@[simp] theorem State.setFld_crank (off : Nat) (f : Nat × Nat) (v : Nat) : (s.setFld off f v).crank = s.crank := rfl
@[simp] theorem State.setFld_wicks (off : Nat) (f : Nat × Nat) (v : Nat) : (s.setFld off f v).wicks = s.wicks := rfl
@[simp] theorem State.setFld_saves (off : Nat) (f : Nat × Nat) (v : Nat) : (s.setFld off f v).saves = s.saves := rfl
@[simp] theorem State.setFld_sealCount (off : Nat) (f : Nat × Nat) (v : Nat) : (s.setFld off f v).sealCount = s.sealCount := rfl
@[simp] theorem State.setFld_recSlots (off : Nat) (f : Nat × Nat) (v : Nat) : (s.setFld off f v).recSlots = s.recSlots := rfl
@[simp] theorem State.setFld_recClock (off : Nat) (f : Nat × Nat) (v : Nat) : (s.setFld off f v).recClock = s.recClock := rfl
@[simp] theorem State.setFld_bitmaps (off : Nat) (f : Nat × Nat) (v : Nat) : (s.setFld off f v).bitmaps = s.bitmaps := rfl
@[simp] theorem State.setFld_ledger (off : Nat) (f : Nat × Nat) (v : Nat) : (s.setFld off f v).ledger = s.ledger := rfl
@[simp] theorem State.setFld_reports (off : Nat) (f : Nat × Nat) (v : Nat) : (s.setFld off f v).reports = s.reports := rfl
@[simp] theorem State.setFld_dictSeen (off : Nat) (f : Nat × Nat) (v : Nat) : (s.setFld off f v).dictSeen = s.dictSeen := rfl
@[simp] theorem State.setFld_sconces (off : Nat) (f : Nat × Nat) (v : Nat) : (s.setFld off f v).sconces = s.sconces := rfl
@[simp] theorem State.setFld_blocks (off : Nat) (f : Nat × Nat) (v : Nat) : (s.setFld off f v).blocks = s.blocks := rfl
@[simp] theorem State.setFld_credits (off : Nat) (f : Nat × Nat) (v : Nat) : (s.setFld off f v).credits = s.credits := rfl
@[simp] theorem State.setFld_flits (off : Nat) (f : Nat × Nat) (v : Nat) : (s.setFld off f v).flits = s.flits := rfl
@[simp] theorem State.setFld_xparts (off : Nat) (f : Nat × Nat) (v : Nat) : (s.setFld off f v).xparts = s.xparts := rfl
@[simp] theorem State.setFld_peerIns (off : Nat) (f : Nat × Nat) (v : Nat) : (s.setFld off f v).peerIns = s.peerIns := rfl
@[simp] theorem State.setFld_foldMsgs (off : Nat) (f : Nat × Nat) (v : Nat) : (s.setFld off f v).foldMsgs = s.foldMsgs := rfl
@[simp] theorem State.setFld_foldQ (off : Nat) (f : Nat × Nat) (v : Nat) : (s.setFld off f v).foldQ = s.foldQ := rfl
@[simp] theorem State.setFld_sruns (off : Nat) (f : Nat × Nat) (v : Nat) : (s.setFld off f v).sruns = s.sruns := rfl
@[simp] theorem State.setFld_chds (off : Nat) (f : Nat × Nat) (v : Nat) : (s.setFld off f v).chds = s.chds := rfl
@[simp] theorem State.setFld_hbm (off : Nat) (f : Nat × Nat) (v : Nat) : (s.setFld off f v).hbm = s.hbm := rfl
@[simp] theorem State.setFld_retired (off : Nat) (f : Nat × Nat) (v : Nat) : (s.setFld off f v).retired = s.retired := rfl
@[simp] theorem State.setFld_chains (off : Nat) (f : Nat × Nat) (v : Nat) : (s.setFld off f v).chains = s.chains := rfl
@[simp] theorem State.setFld_pins (off : Nat) (f : Nat × Nat) (v : Nat) : (s.setFld off f v).pins = s.pins := rfl
@[simp] theorem State.setFld_boot (off : Nat) (f : Nat × Nat) (v : Nat) : (s.setFld off f v).boot = s.boot := rfl
@[simp] theorem State.setFld_swx (off : Nat) (f : Nat × Nat) (v : Nat) : (s.setFld off f v).swx = s.swx := rfl
@[simp] theorem State.setFld_ras (off : Nat) (f : Nat × Nat) (v : Nat) : (s.setFld off f v).ras = s.ras := rfl

/-! ### `raise` -/

@[simp] theorem State.raise_pending (off : Nat) (f : Nat × Nat) : (s.raise off f).pending = s.pending := rfl
@[simp] theorem State.raise_drawn (off : Nat) (f : Nat × Nat) : (s.raise off f).drawn = s.drawn := rfl
@[simp] theorem State.raise_mem (off : Nat) (f : Nat × Nat) : (s.raise off f).mem = s.mem := rfl
@[simp] theorem State.raise_hostMem (off : Nat) (f : Nat × Nat) : (s.raise off f).hostMem = s.hostMem := rfl
@[simp] theorem State.raise_flash (off : Nat) (f : Nat × Nat) : (s.raise off f).flash = s.flash := rfl
@[simp] theorem State.raise_mail (off : Nat) (f : Nat × Nat) : (s.raise off f).mail = s.mail := rfl
@[simp] theorem State.raise_poison (off : Nat) (f : Nat × Nat) : (s.raise off f).poison = s.poison := rfl
@[simp] theorem State.raise_tb (off : Nat) (f : Nat × Nat) : (s.raise off f).tb = s.tb := rfl
@[simp] theorem State.raise_cog (off : Nat) (f : Nat × Nat) : (s.raise off f).cog = s.cog := rfl
@[simp] theorem State.raise_ctxs (off : Nat) (f : Nat × Nat) : (s.raise off f).ctxs = s.ctxs := rfl
@[simp] theorem State.raise_ready (off : Nat) (f : Nat × Nat) : (s.raise off f).ready = s.ready := rfl
@[simp] theorem State.raise_delay (off : Nat) (f : Nat × Nat) : (s.raise off f).delay = s.delay := rfl
@[simp] theorem State.raise_queues (off : Nat) (f : Nat × Nat) : (s.raise off f).queues = s.queues := rfl
@[simp] theorem State.raise_cmds (off : Nat) (f : Nat × Nat) : (s.raise off f).cmds = s.cmds := rfl
@[simp] theorem State.raise_cmdSeq (off : Nat) (f : Nat × Nat) : (s.raise off f).cmdSeq = s.cmdSeq := rfl
@[simp] theorem State.raise_writes (off : Nat) (f : Nat × Nat) : (s.raise off f).writes = s.writes := rfl
@[simp] theorem State.raise_stagingTurn (off : Nat) (f : Nat × Nat) : (s.raise off f).stagingTurn = s.stagingTurn := rfl
@[simp] theorem State.raise_insts (off : Nat) (f : Nat × Nat) : (s.raise off f).insts = s.insts := rfl
@[simp] theorem State.raise_regions (off : Nat) (f : Nat × Nat) : (s.raise off f).regions = s.regions := rfl
@[simp] theorem State.raise_pipes (off : Nat) (f : Nat × Nat) : (s.raise off f).pipes = s.pipes := rfl
@[simp] theorem State.raise_runs (off : Nat) (f : Nat × Nat) : (s.raise off f).runs = s.runs := rfl
@[simp] theorem State.raise_pool (off : Nat) (f : Nat × Nat) : (s.raise off f).pool = s.pool := rfl
@[simp] theorem State.raise_journal (off : Nat) (f : Nat × Nat) : (s.raise off f).journal = s.journal := rfl
@[simp] theorem State.raise_tally (off : Nat) (f : Nat × Nat) : (s.raise off f).tally = s.tally := rfl
@[simp] theorem State.raise_merges (off : Nat) (f : Nat × Nat) : (s.raise off f).merges = s.merges := rfl
@[simp] theorem State.raise_outbox (off : Nat) (f : Nat × Nat) : (s.raise off f).outbox = s.outbox := rfl
@[simp] theorem State.raise_held (off : Nat) (f : Nat × Nat) : (s.raise off f).held = s.held := rfl
@[simp] theorem State.raise_mrds (off : Nat) (f : Nat × Nat) : (s.raise off f).mrds = s.mrds := rfl
@[simp] theorem State.raise_sent (off : Nat) (f : Nat × Nat) : (s.raise off f).sent = s.sent := rfl
@[simp] theorem State.raise_ports (off : Nat) (f : Nat × Nat) : (s.raise off f).ports = s.ports := rfl
@[simp] theorem State.raise_crank (off : Nat) (f : Nat × Nat) : (s.raise off f).crank = s.crank := rfl
@[simp] theorem State.raise_wicks (off : Nat) (f : Nat × Nat) : (s.raise off f).wicks = s.wicks := rfl
@[simp] theorem State.raise_saves (off : Nat) (f : Nat × Nat) : (s.raise off f).saves = s.saves := rfl
@[simp] theorem State.raise_sealCount (off : Nat) (f : Nat × Nat) : (s.raise off f).sealCount = s.sealCount := rfl
@[simp] theorem State.raise_recSlots (off : Nat) (f : Nat × Nat) : (s.raise off f).recSlots = s.recSlots := rfl
@[simp] theorem State.raise_recClock (off : Nat) (f : Nat × Nat) : (s.raise off f).recClock = s.recClock := rfl
@[simp] theorem State.raise_bitmaps (off : Nat) (f : Nat × Nat) : (s.raise off f).bitmaps = s.bitmaps := rfl
@[simp] theorem State.raise_ledger (off : Nat) (f : Nat × Nat) : (s.raise off f).ledger = s.ledger := rfl
@[simp] theorem State.raise_reports (off : Nat) (f : Nat × Nat) : (s.raise off f).reports = s.reports := rfl
@[simp] theorem State.raise_dictSeen (off : Nat) (f : Nat × Nat) : (s.raise off f).dictSeen = s.dictSeen := rfl
@[simp] theorem State.raise_sconces (off : Nat) (f : Nat × Nat) : (s.raise off f).sconces = s.sconces := rfl
@[simp] theorem State.raise_blocks (off : Nat) (f : Nat × Nat) : (s.raise off f).blocks = s.blocks := rfl
@[simp] theorem State.raise_credits (off : Nat) (f : Nat × Nat) : (s.raise off f).credits = s.credits := rfl
@[simp] theorem State.raise_flits (off : Nat) (f : Nat × Nat) : (s.raise off f).flits = s.flits := rfl
@[simp] theorem State.raise_xparts (off : Nat) (f : Nat × Nat) : (s.raise off f).xparts = s.xparts := rfl
@[simp] theorem State.raise_peerIns (off : Nat) (f : Nat × Nat) : (s.raise off f).peerIns = s.peerIns := rfl
@[simp] theorem State.raise_foldMsgs (off : Nat) (f : Nat × Nat) : (s.raise off f).foldMsgs = s.foldMsgs := rfl
@[simp] theorem State.raise_foldQ (off : Nat) (f : Nat × Nat) : (s.raise off f).foldQ = s.foldQ := rfl
@[simp] theorem State.raise_sruns (off : Nat) (f : Nat × Nat) : (s.raise off f).sruns = s.sruns := rfl
@[simp] theorem State.raise_chds (off : Nat) (f : Nat × Nat) : (s.raise off f).chds = s.chds := rfl
@[simp] theorem State.raise_hbm (off : Nat) (f : Nat × Nat) : (s.raise off f).hbm = s.hbm := rfl
@[simp] theorem State.raise_retired (off : Nat) (f : Nat × Nat) : (s.raise off f).retired = s.retired := rfl
@[simp] theorem State.raise_chains (off : Nat) (f : Nat × Nat) : (s.raise off f).chains = s.chains := rfl
@[simp] theorem State.raise_pins (off : Nat) (f : Nat × Nat) : (s.raise off f).pins = s.pins := rfl
@[simp] theorem State.raise_boot (off : Nat) (f : Nat × Nat) : (s.raise off f).boot = s.boot := rfl
@[simp] theorem State.raise_swx (off : Nat) (f : Nat × Nat) : (s.raise off f).swx = s.swx := rfl
@[simp] theorem State.raise_ras (off : Nat) (f : Nat × Nat) : (s.raise off f).ras = s.ras := rfl

/-! ### `bump` -/

@[simp] theorem State.bump_pending (off n : Nat) : (s.bump off n).pending = s.pending := rfl
@[simp] theorem State.bump_drawn (off n : Nat) : (s.bump off n).drawn = s.drawn := rfl
@[simp] theorem State.bump_mem (off n : Nat) : (s.bump off n).mem = s.mem := rfl
@[simp] theorem State.bump_hostMem (off n : Nat) : (s.bump off n).hostMem = s.hostMem := rfl
@[simp] theorem State.bump_flash (off n : Nat) : (s.bump off n).flash = s.flash := rfl
@[simp] theorem State.bump_mail (off n : Nat) : (s.bump off n).mail = s.mail := rfl
@[simp] theorem State.bump_poison (off n : Nat) : (s.bump off n).poison = s.poison := rfl
@[simp] theorem State.bump_tb (off n : Nat) : (s.bump off n).tb = s.tb := rfl
@[simp] theorem State.bump_cog (off n : Nat) : (s.bump off n).cog = s.cog := rfl
@[simp] theorem State.bump_ctxs (off n : Nat) : (s.bump off n).ctxs = s.ctxs := rfl
@[simp] theorem State.bump_ready (off n : Nat) : (s.bump off n).ready = s.ready := rfl
@[simp] theorem State.bump_delay (off n : Nat) : (s.bump off n).delay = s.delay := rfl
@[simp] theorem State.bump_queues (off n : Nat) : (s.bump off n).queues = s.queues := rfl
@[simp] theorem State.bump_cmds (off n : Nat) : (s.bump off n).cmds = s.cmds := rfl
@[simp] theorem State.bump_cmdSeq (off n : Nat) : (s.bump off n).cmdSeq = s.cmdSeq := rfl
@[simp] theorem State.bump_writes (off n : Nat) : (s.bump off n).writes = s.writes := rfl
@[simp] theorem State.bump_stagingTurn (off n : Nat) : (s.bump off n).stagingTurn = s.stagingTurn := rfl
@[simp] theorem State.bump_insts (off n : Nat) : (s.bump off n).insts = s.insts := rfl
@[simp] theorem State.bump_regions (off n : Nat) : (s.bump off n).regions = s.regions := rfl
@[simp] theorem State.bump_pipes (off n : Nat) : (s.bump off n).pipes = s.pipes := rfl
@[simp] theorem State.bump_runs (off n : Nat) : (s.bump off n).runs = s.runs := rfl
@[simp] theorem State.bump_pool (off n : Nat) : (s.bump off n).pool = s.pool := rfl
@[simp] theorem State.bump_journal (off n : Nat) : (s.bump off n).journal = s.journal := rfl
@[simp] theorem State.bump_tally (off n : Nat) : (s.bump off n).tally = s.tally := rfl
@[simp] theorem State.bump_merges (off n : Nat) : (s.bump off n).merges = s.merges := rfl
@[simp] theorem State.bump_outbox (off n : Nat) : (s.bump off n).outbox = s.outbox := rfl
@[simp] theorem State.bump_held (off n : Nat) : (s.bump off n).held = s.held := rfl
@[simp] theorem State.bump_mrds (off n : Nat) : (s.bump off n).mrds = s.mrds := rfl
@[simp] theorem State.bump_sent (off n : Nat) : (s.bump off n).sent = s.sent := rfl
@[simp] theorem State.bump_ports (off n : Nat) : (s.bump off n).ports = s.ports := rfl
@[simp] theorem State.bump_crank (off n : Nat) : (s.bump off n).crank = s.crank := rfl
@[simp] theorem State.bump_wicks (off n : Nat) : (s.bump off n).wicks = s.wicks := rfl
@[simp] theorem State.bump_saves (off n : Nat) : (s.bump off n).saves = s.saves := rfl
@[simp] theorem State.bump_sealCount (off n : Nat) : (s.bump off n).sealCount = s.sealCount := rfl
@[simp] theorem State.bump_recSlots (off n : Nat) : (s.bump off n).recSlots = s.recSlots := rfl
@[simp] theorem State.bump_recClock (off n : Nat) : (s.bump off n).recClock = s.recClock := rfl
@[simp] theorem State.bump_bitmaps (off n : Nat) : (s.bump off n).bitmaps = s.bitmaps := rfl
@[simp] theorem State.bump_ledger (off n : Nat) : (s.bump off n).ledger = s.ledger := rfl
@[simp] theorem State.bump_reports (off n : Nat) : (s.bump off n).reports = s.reports := rfl
@[simp] theorem State.bump_dictSeen (off n : Nat) : (s.bump off n).dictSeen = s.dictSeen := rfl
@[simp] theorem State.bump_sconces (off n : Nat) : (s.bump off n).sconces = s.sconces := rfl
@[simp] theorem State.bump_blocks (off n : Nat) : (s.bump off n).blocks = s.blocks := rfl
@[simp] theorem State.bump_credits (off n : Nat) : (s.bump off n).credits = s.credits := rfl
@[simp] theorem State.bump_flits (off n : Nat) : (s.bump off n).flits = s.flits := rfl
@[simp] theorem State.bump_xparts (off n : Nat) : (s.bump off n).xparts = s.xparts := rfl
@[simp] theorem State.bump_peerIns (off n : Nat) : (s.bump off n).peerIns = s.peerIns := rfl
@[simp] theorem State.bump_foldMsgs (off n : Nat) : (s.bump off n).foldMsgs = s.foldMsgs := rfl
@[simp] theorem State.bump_foldQ (off n : Nat) : (s.bump off n).foldQ = s.foldQ := rfl
@[simp] theorem State.bump_sruns (off n : Nat) : (s.bump off n).sruns = s.sruns := rfl
@[simp] theorem State.bump_chds (off n : Nat) : (s.bump off n).chds = s.chds := rfl
@[simp] theorem State.bump_hbm (off n : Nat) : (s.bump off n).hbm = s.hbm := rfl
@[simp] theorem State.bump_retired (off n : Nat) : (s.bump off n).retired = s.retired := rfl
@[simp] theorem State.bump_chains (off n : Nat) : (s.bump off n).chains = s.chains := rfl
@[simp] theorem State.bump_pins (off n : Nat) : (s.bump off n).pins = s.pins := rfl
@[simp] theorem State.bump_boot (off n : Nat) : (s.bump off n).boot = s.boot := rfl
@[simp] theorem State.bump_swx (off n : Nat) : (s.bump off n).swx = s.swx := rfl
@[simp] theorem State.bump_ras (off n : Nat) : (s.bump off n).ras = s.ras := rfl

/-! ### `poke` -/

@[simp] theorem State.poke_pending (a : Nat) (bs : List Byte) : (s.poke a bs).pending = s.pending := rfl
@[simp] theorem State.poke_drawn (a : Nat) (bs : List Byte) : (s.poke a bs).drawn = s.drawn := rfl
@[simp] theorem State.poke_csr (a : Nat) (bs : List Byte) : (s.poke a bs).csr = s.csr := rfl
@[simp] theorem State.poke_hostMem (a : Nat) (bs : List Byte) : (s.poke a bs).hostMem = s.hostMem := rfl
@[simp] theorem State.poke_flash (a : Nat) (bs : List Byte) : (s.poke a bs).flash = s.flash := rfl
@[simp] theorem State.poke_mail (a : Nat) (bs : List Byte) : (s.poke a bs).mail = s.mail := rfl
@[simp] theorem State.poke_tb (a : Nat) (bs : List Byte) : (s.poke a bs).tb = s.tb := rfl
@[simp] theorem State.poke_cog (a : Nat) (bs : List Byte) : (s.poke a bs).cog = s.cog := rfl
@[simp] theorem State.poke_ctxs (a : Nat) (bs : List Byte) : (s.poke a bs).ctxs = s.ctxs := rfl
@[simp] theorem State.poke_ready (a : Nat) (bs : List Byte) : (s.poke a bs).ready = s.ready := rfl
@[simp] theorem State.poke_delay (a : Nat) (bs : List Byte) : (s.poke a bs).delay = s.delay := rfl
@[simp] theorem State.poke_queues (a : Nat) (bs : List Byte) : (s.poke a bs).queues = s.queues := rfl
@[simp] theorem State.poke_cmds (a : Nat) (bs : List Byte) : (s.poke a bs).cmds = s.cmds := rfl
@[simp] theorem State.poke_cmdSeq (a : Nat) (bs : List Byte) : (s.poke a bs).cmdSeq = s.cmdSeq := rfl
@[simp] theorem State.poke_writes (a : Nat) (bs : List Byte) : (s.poke a bs).writes = s.writes := rfl
@[simp] theorem State.poke_stagingTurn (a : Nat) (bs : List Byte) : (s.poke a bs).stagingTurn = s.stagingTurn := rfl
@[simp] theorem State.poke_insts (a : Nat) (bs : List Byte) : (s.poke a bs).insts = s.insts := rfl
@[simp] theorem State.poke_regions (a : Nat) (bs : List Byte) : (s.poke a bs).regions = s.regions := rfl
@[simp] theorem State.poke_pipes (a : Nat) (bs : List Byte) : (s.poke a bs).pipes = s.pipes := rfl
@[simp] theorem State.poke_runs (a : Nat) (bs : List Byte) : (s.poke a bs).runs = s.runs := rfl
@[simp] theorem State.poke_pool (a : Nat) (bs : List Byte) : (s.poke a bs).pool = s.pool := rfl
@[simp] theorem State.poke_journal (a : Nat) (bs : List Byte) : (s.poke a bs).journal = s.journal := rfl
@[simp] theorem State.poke_tally (a : Nat) (bs : List Byte) : (s.poke a bs).tally = s.tally := rfl
@[simp] theorem State.poke_merges (a : Nat) (bs : List Byte) : (s.poke a bs).merges = s.merges := rfl
@[simp] theorem State.poke_outbox (a : Nat) (bs : List Byte) : (s.poke a bs).outbox = s.outbox := rfl
@[simp] theorem State.poke_held (a : Nat) (bs : List Byte) : (s.poke a bs).held = s.held := rfl
@[simp] theorem State.poke_mrds (a : Nat) (bs : List Byte) : (s.poke a bs).mrds = s.mrds := rfl
@[simp] theorem State.poke_sent (a : Nat) (bs : List Byte) : (s.poke a bs).sent = s.sent := rfl
@[simp] theorem State.poke_ports (a : Nat) (bs : List Byte) : (s.poke a bs).ports = s.ports := rfl
@[simp] theorem State.poke_crank (a : Nat) (bs : List Byte) : (s.poke a bs).crank = s.crank := rfl
@[simp] theorem State.poke_wicks (a : Nat) (bs : List Byte) : (s.poke a bs).wicks = s.wicks := rfl
@[simp] theorem State.poke_saves (a : Nat) (bs : List Byte) : (s.poke a bs).saves = s.saves := rfl
@[simp] theorem State.poke_sealCount (a : Nat) (bs : List Byte) : (s.poke a bs).sealCount = s.sealCount := rfl
@[simp] theorem State.poke_recSlots (a : Nat) (bs : List Byte) : (s.poke a bs).recSlots = s.recSlots := rfl
@[simp] theorem State.poke_recClock (a : Nat) (bs : List Byte) : (s.poke a bs).recClock = s.recClock := rfl
@[simp] theorem State.poke_bitmaps (a : Nat) (bs : List Byte) : (s.poke a bs).bitmaps = s.bitmaps := rfl
@[simp] theorem State.poke_ledger (a : Nat) (bs : List Byte) : (s.poke a bs).ledger = s.ledger := rfl
@[simp] theorem State.poke_reports (a : Nat) (bs : List Byte) : (s.poke a bs).reports = s.reports := rfl
@[simp] theorem State.poke_dictSeen (a : Nat) (bs : List Byte) : (s.poke a bs).dictSeen = s.dictSeen := rfl
@[simp] theorem State.poke_sconces (a : Nat) (bs : List Byte) : (s.poke a bs).sconces = s.sconces := rfl
@[simp] theorem State.poke_blocks (a : Nat) (bs : List Byte) : (s.poke a bs).blocks = s.blocks := rfl
@[simp] theorem State.poke_credits (a : Nat) (bs : List Byte) : (s.poke a bs).credits = s.credits := rfl
@[simp] theorem State.poke_flits (a : Nat) (bs : List Byte) : (s.poke a bs).flits = s.flits := rfl
@[simp] theorem State.poke_xparts (a : Nat) (bs : List Byte) : (s.poke a bs).xparts = s.xparts := rfl
@[simp] theorem State.poke_peerIns (a : Nat) (bs : List Byte) : (s.poke a bs).peerIns = s.peerIns := rfl
@[simp] theorem State.poke_foldMsgs (a : Nat) (bs : List Byte) : (s.poke a bs).foldMsgs = s.foldMsgs := rfl
@[simp] theorem State.poke_foldQ (a : Nat) (bs : List Byte) : (s.poke a bs).foldQ = s.foldQ := rfl
@[simp] theorem State.poke_sruns (a : Nat) (bs : List Byte) : (s.poke a bs).sruns = s.sruns := rfl
@[simp] theorem State.poke_chds (a : Nat) (bs : List Byte) : (s.poke a bs).chds = s.chds := rfl
@[simp] theorem State.poke_hbm (a : Nat) (bs : List Byte) : (s.poke a bs).hbm = s.hbm := rfl
@[simp] theorem State.poke_retired (a : Nat) (bs : List Byte) : (s.poke a bs).retired = s.retired := rfl
@[simp] theorem State.poke_chains (a : Nat) (bs : List Byte) : (s.poke a bs).chains = s.chains := rfl
@[simp] theorem State.poke_pins (a : Nat) (bs : List Byte) : (s.poke a bs).pins = s.pins := rfl
@[simp] theorem State.poke_boot (a : Nat) (bs : List Byte) : (s.poke a bs).boot = s.boot := rfl
@[simp] theorem State.poke_swx (a : Nat) (bs : List Byte) : (s.poke a bs).swx = s.swx := rfl
@[simp] theorem State.poke_ras (a : Nat) (bs : List Byte) : (s.poke a bs).ras = s.ras := rfl

/-! ### `wipe` -/

@[simp] theorem State.wipe_pending (a n : Nat) : (s.wipe a n).pending = s.pending := rfl
@[simp] theorem State.wipe_drawn (a n : Nat) : (s.wipe a n).drawn = s.drawn := rfl
@[simp] theorem State.wipe_csr (a n : Nat) : (s.wipe a n).csr = s.csr := rfl
@[simp] theorem State.wipe_hostMem (a n : Nat) : (s.wipe a n).hostMem = s.hostMem := rfl
@[simp] theorem State.wipe_flash (a n : Nat) : (s.wipe a n).flash = s.flash := rfl
@[simp] theorem State.wipe_mail (a n : Nat) : (s.wipe a n).mail = s.mail := rfl
@[simp] theorem State.wipe_tb (a n : Nat) : (s.wipe a n).tb = s.tb := rfl
@[simp] theorem State.wipe_cog (a n : Nat) : (s.wipe a n).cog = s.cog := rfl
@[simp] theorem State.wipe_ctxs (a n : Nat) : (s.wipe a n).ctxs = s.ctxs := rfl
@[simp] theorem State.wipe_ready (a n : Nat) : (s.wipe a n).ready = s.ready := rfl
@[simp] theorem State.wipe_delay (a n : Nat) : (s.wipe a n).delay = s.delay := rfl
@[simp] theorem State.wipe_queues (a n : Nat) : (s.wipe a n).queues = s.queues := rfl
@[simp] theorem State.wipe_cmds (a n : Nat) : (s.wipe a n).cmds = s.cmds := rfl
@[simp] theorem State.wipe_cmdSeq (a n : Nat) : (s.wipe a n).cmdSeq = s.cmdSeq := rfl
@[simp] theorem State.wipe_writes (a n : Nat) : (s.wipe a n).writes = s.writes := rfl
@[simp] theorem State.wipe_stagingTurn (a n : Nat) : (s.wipe a n).stagingTurn = s.stagingTurn := rfl
@[simp] theorem State.wipe_insts (a n : Nat) : (s.wipe a n).insts = s.insts := rfl
@[simp] theorem State.wipe_regions (a n : Nat) : (s.wipe a n).regions = s.regions := rfl
@[simp] theorem State.wipe_pipes (a n : Nat) : (s.wipe a n).pipes = s.pipes := rfl
@[simp] theorem State.wipe_runs (a n : Nat) : (s.wipe a n).runs = s.runs := rfl
@[simp] theorem State.wipe_pool (a n : Nat) : (s.wipe a n).pool = s.pool := rfl
@[simp] theorem State.wipe_journal (a n : Nat) : (s.wipe a n).journal = s.journal := rfl
@[simp] theorem State.wipe_tally (a n : Nat) : (s.wipe a n).tally = s.tally := rfl
@[simp] theorem State.wipe_merges (a n : Nat) : (s.wipe a n).merges = s.merges := rfl
@[simp] theorem State.wipe_outbox (a n : Nat) : (s.wipe a n).outbox = s.outbox := rfl
@[simp] theorem State.wipe_held (a n : Nat) : (s.wipe a n).held = s.held := rfl
@[simp] theorem State.wipe_mrds (a n : Nat) : (s.wipe a n).mrds = s.mrds := rfl
@[simp] theorem State.wipe_sent (a n : Nat) : (s.wipe a n).sent = s.sent := rfl
@[simp] theorem State.wipe_ports (a n : Nat) : (s.wipe a n).ports = s.ports := rfl
@[simp] theorem State.wipe_crank (a n : Nat) : (s.wipe a n).crank = s.crank := rfl
@[simp] theorem State.wipe_wicks (a n : Nat) : (s.wipe a n).wicks = s.wicks := rfl
@[simp] theorem State.wipe_saves (a n : Nat) : (s.wipe a n).saves = s.saves := rfl
@[simp] theorem State.wipe_sealCount (a n : Nat) : (s.wipe a n).sealCount = s.sealCount := rfl
@[simp] theorem State.wipe_recSlots (a n : Nat) : (s.wipe a n).recSlots = s.recSlots := rfl
@[simp] theorem State.wipe_recClock (a n : Nat) : (s.wipe a n).recClock = s.recClock := rfl
@[simp] theorem State.wipe_bitmaps (a n : Nat) : (s.wipe a n).bitmaps = s.bitmaps := rfl
@[simp] theorem State.wipe_ledger (a n : Nat) : (s.wipe a n).ledger = s.ledger := rfl
@[simp] theorem State.wipe_reports (a n : Nat) : (s.wipe a n).reports = s.reports := rfl
@[simp] theorem State.wipe_dictSeen (a n : Nat) : (s.wipe a n).dictSeen = s.dictSeen := rfl
@[simp] theorem State.wipe_sconces (a n : Nat) : (s.wipe a n).sconces = s.sconces := rfl
@[simp] theorem State.wipe_blocks (a n : Nat) : (s.wipe a n).blocks = s.blocks := rfl
@[simp] theorem State.wipe_credits (a n : Nat) : (s.wipe a n).credits = s.credits := rfl
@[simp] theorem State.wipe_flits (a n : Nat) : (s.wipe a n).flits = s.flits := rfl
@[simp] theorem State.wipe_xparts (a n : Nat) : (s.wipe a n).xparts = s.xparts := rfl
@[simp] theorem State.wipe_peerIns (a n : Nat) : (s.wipe a n).peerIns = s.peerIns := rfl
@[simp] theorem State.wipe_foldMsgs (a n : Nat) : (s.wipe a n).foldMsgs = s.foldMsgs := rfl
@[simp] theorem State.wipe_foldQ (a n : Nat) : (s.wipe a n).foldQ = s.foldQ := rfl
@[simp] theorem State.wipe_sruns (a n : Nat) : (s.wipe a n).sruns = s.sruns := rfl
@[simp] theorem State.wipe_chds (a n : Nat) : (s.wipe a n).chds = s.chds := rfl
@[simp] theorem State.wipe_hbm (a n : Nat) : (s.wipe a n).hbm = s.hbm := rfl
@[simp] theorem State.wipe_retired (a n : Nat) : (s.wipe a n).retired = s.retired := rfl
@[simp] theorem State.wipe_chains (a n : Nat) : (s.wipe a n).chains = s.chains := rfl
@[simp] theorem State.wipe_pins (a n : Nat) : (s.wipe a n).pins = s.pins := rfl
@[simp] theorem State.wipe_boot (a n : Nat) : (s.wipe a n).boot = s.boot := rfl
@[simp] theorem State.wipe_swx (a n : Nat) : (s.wipe a n).swx = s.swx := rfl
@[simp] theorem State.wipe_ras (a n : Nat) : (s.wipe a n).ras = s.ras := rfl

/-! ### `setWick` -/

@[simp] theorem State.setWick_pending (pos : Nat) (f : Wick → Wick) : (s.setWick pos f).pending = s.pending := rfl
@[simp] theorem State.setWick_drawn (pos : Nat) (f : Wick → Wick) : (s.setWick pos f).drawn = s.drawn := rfl
@[simp] theorem State.setWick_csr (pos : Nat) (f : Wick → Wick) : (s.setWick pos f).csr = s.csr := rfl
@[simp] theorem State.setWick_mem (pos : Nat) (f : Wick → Wick) : (s.setWick pos f).mem = s.mem := rfl
@[simp] theorem State.setWick_hostMem (pos : Nat) (f : Wick → Wick) : (s.setWick pos f).hostMem = s.hostMem := rfl
@[simp] theorem State.setWick_flash (pos : Nat) (f : Wick → Wick) : (s.setWick pos f).flash = s.flash := rfl
@[simp] theorem State.setWick_mail (pos : Nat) (f : Wick → Wick) : (s.setWick pos f).mail = s.mail := rfl
@[simp] theorem State.setWick_poison (pos : Nat) (f : Wick → Wick) : (s.setWick pos f).poison = s.poison := rfl
@[simp] theorem State.setWick_tb (pos : Nat) (f : Wick → Wick) : (s.setWick pos f).tb = s.tb := rfl
@[simp] theorem State.setWick_cog (pos : Nat) (f : Wick → Wick) : (s.setWick pos f).cog = s.cog := rfl
@[simp] theorem State.setWick_ctxs (pos : Nat) (f : Wick → Wick) : (s.setWick pos f).ctxs = s.ctxs := rfl
@[simp] theorem State.setWick_ready (pos : Nat) (f : Wick → Wick) : (s.setWick pos f).ready = s.ready := rfl
@[simp] theorem State.setWick_delay (pos : Nat) (f : Wick → Wick) : (s.setWick pos f).delay = s.delay := rfl
@[simp] theorem State.setWick_queues (pos : Nat) (f : Wick → Wick) : (s.setWick pos f).queues = s.queues := rfl
@[simp] theorem State.setWick_cmds (pos : Nat) (f : Wick → Wick) : (s.setWick pos f).cmds = s.cmds := rfl
@[simp] theorem State.setWick_cmdSeq (pos : Nat) (f : Wick → Wick) : (s.setWick pos f).cmdSeq = s.cmdSeq := rfl
@[simp] theorem State.setWick_writes (pos : Nat) (f : Wick → Wick) : (s.setWick pos f).writes = s.writes := rfl
@[simp] theorem State.setWick_stagingTurn (pos : Nat) (f : Wick → Wick) : (s.setWick pos f).stagingTurn = s.stagingTurn := rfl
@[simp] theorem State.setWick_insts (pos : Nat) (f : Wick → Wick) : (s.setWick pos f).insts = s.insts := rfl
@[simp] theorem State.setWick_regions (pos : Nat) (f : Wick → Wick) : (s.setWick pos f).regions = s.regions := rfl
@[simp] theorem State.setWick_pipes (pos : Nat) (f : Wick → Wick) : (s.setWick pos f).pipes = s.pipes := rfl
@[simp] theorem State.setWick_runs (pos : Nat) (f : Wick → Wick) : (s.setWick pos f).runs = s.runs := rfl
@[simp] theorem State.setWick_pool (pos : Nat) (f : Wick → Wick) : (s.setWick pos f).pool = s.pool := rfl
@[simp] theorem State.setWick_journal (pos : Nat) (f : Wick → Wick) : (s.setWick pos f).journal = s.journal := rfl
@[simp] theorem State.setWick_tally (pos : Nat) (f : Wick → Wick) : (s.setWick pos f).tally = s.tally := rfl
@[simp] theorem State.setWick_merges (pos : Nat) (f : Wick → Wick) : (s.setWick pos f).merges = s.merges := rfl
@[simp] theorem State.setWick_outbox (pos : Nat) (f : Wick → Wick) : (s.setWick pos f).outbox = s.outbox := rfl
@[simp] theorem State.setWick_held (pos : Nat) (f : Wick → Wick) : (s.setWick pos f).held = s.held := rfl
@[simp] theorem State.setWick_mrds (pos : Nat) (f : Wick → Wick) : (s.setWick pos f).mrds = s.mrds := rfl
@[simp] theorem State.setWick_sent (pos : Nat) (f : Wick → Wick) : (s.setWick pos f).sent = s.sent := rfl
@[simp] theorem State.setWick_ports (pos : Nat) (f : Wick → Wick) : (s.setWick pos f).ports = s.ports := rfl
@[simp] theorem State.setWick_crank (pos : Nat) (f : Wick → Wick) : (s.setWick pos f).crank = s.crank := rfl
@[simp] theorem State.setWick_saves (pos : Nat) (f : Wick → Wick) : (s.setWick pos f).saves = s.saves := rfl
@[simp] theorem State.setWick_sealCount (pos : Nat) (f : Wick → Wick) : (s.setWick pos f).sealCount = s.sealCount := rfl
@[simp] theorem State.setWick_recSlots (pos : Nat) (f : Wick → Wick) : (s.setWick pos f).recSlots = s.recSlots := rfl
@[simp] theorem State.setWick_recClock (pos : Nat) (f : Wick → Wick) : (s.setWick pos f).recClock = s.recClock := rfl
@[simp] theorem State.setWick_bitmaps (pos : Nat) (f : Wick → Wick) : (s.setWick pos f).bitmaps = s.bitmaps := rfl
@[simp] theorem State.setWick_ledger (pos : Nat) (f : Wick → Wick) : (s.setWick pos f).ledger = s.ledger := rfl
@[simp] theorem State.setWick_reports (pos : Nat) (f : Wick → Wick) : (s.setWick pos f).reports = s.reports := rfl
@[simp] theorem State.setWick_dictSeen (pos : Nat) (f : Wick → Wick) : (s.setWick pos f).dictSeen = s.dictSeen := rfl
@[simp] theorem State.setWick_sconces (pos : Nat) (f : Wick → Wick) : (s.setWick pos f).sconces = s.sconces := rfl
@[simp] theorem State.setWick_blocks (pos : Nat) (f : Wick → Wick) : (s.setWick pos f).blocks = s.blocks := rfl
@[simp] theorem State.setWick_credits (pos : Nat) (f : Wick → Wick) : (s.setWick pos f).credits = s.credits := rfl
@[simp] theorem State.setWick_flits (pos : Nat) (f : Wick → Wick) : (s.setWick pos f).flits = s.flits := rfl
@[simp] theorem State.setWick_xparts (pos : Nat) (f : Wick → Wick) : (s.setWick pos f).xparts = s.xparts := rfl
@[simp] theorem State.setWick_peerIns (pos : Nat) (f : Wick → Wick) : (s.setWick pos f).peerIns = s.peerIns := rfl
@[simp] theorem State.setWick_foldMsgs (pos : Nat) (f : Wick → Wick) : (s.setWick pos f).foldMsgs = s.foldMsgs := rfl
@[simp] theorem State.setWick_foldQ (pos : Nat) (f : Wick → Wick) : (s.setWick pos f).foldQ = s.foldQ := rfl
@[simp] theorem State.setWick_sruns (pos : Nat) (f : Wick → Wick) : (s.setWick pos f).sruns = s.sruns := rfl
@[simp] theorem State.setWick_chds (pos : Nat) (f : Wick → Wick) : (s.setWick pos f).chds = s.chds := rfl
@[simp] theorem State.setWick_hbm (pos : Nat) (f : Wick → Wick) : (s.setWick pos f).hbm = s.hbm := rfl
@[simp] theorem State.setWick_retired (pos : Nat) (f : Wick → Wick) : (s.setWick pos f).retired = s.retired := rfl
@[simp] theorem State.setWick_chains (pos : Nat) (f : Wick → Wick) : (s.setWick pos f).chains = s.chains := rfl
@[simp] theorem State.setWick_pins (pos : Nat) (f : Wick → Wick) : (s.setWick pos f).pins = s.pins := rfl
@[simp] theorem State.setWick_boot (pos : Nat) (f : Wick → Wick) : (s.setWick pos f).boot = s.boot := rfl
@[simp] theorem State.setWick_swx (pos : Nat) (f : Wick → Wick) : (s.setWick pos f).swx = s.swx := rfl
@[simp] theorem State.setWick_ras (pos : Nat) (f : Wick → Wick) : (s.setWick pos f).ras = s.ras := rfl

/-! ### `sendOut` -/

@[simp] theorem State.sendOut_pending (stage inst gen : Nat) (act : OutAct) : (s.sendOut stage inst gen act).pending = s.pending := rfl
@[simp] theorem State.sendOut_drawn (stage inst gen : Nat) (act : OutAct) : (s.sendOut stage inst gen act).drawn = s.drawn := rfl
@[simp] theorem State.sendOut_csr (stage inst gen : Nat) (act : OutAct) : (s.sendOut stage inst gen act).csr = s.csr := rfl
@[simp] theorem State.sendOut_mem (stage inst gen : Nat) (act : OutAct) : (s.sendOut stage inst gen act).mem = s.mem := rfl
@[simp] theorem State.sendOut_hostMem (stage inst gen : Nat) (act : OutAct) : (s.sendOut stage inst gen act).hostMem = s.hostMem := rfl
@[simp] theorem State.sendOut_flash (stage inst gen : Nat) (act : OutAct) : (s.sendOut stage inst gen act).flash = s.flash := rfl
@[simp] theorem State.sendOut_mail (stage inst gen : Nat) (act : OutAct) : (s.sendOut stage inst gen act).mail = s.mail := rfl
@[simp] theorem State.sendOut_poison (stage inst gen : Nat) (act : OutAct) : (s.sendOut stage inst gen act).poison = s.poison := rfl
@[simp] theorem State.sendOut_tb (stage inst gen : Nat) (act : OutAct) : (s.sendOut stage inst gen act).tb = s.tb := rfl
@[simp] theorem State.sendOut_cog (stage inst gen : Nat) (act : OutAct) : (s.sendOut stage inst gen act).cog = s.cog := rfl
@[simp] theorem State.sendOut_ctxs (stage inst gen : Nat) (act : OutAct) : (s.sendOut stage inst gen act).ctxs = s.ctxs := rfl
@[simp] theorem State.sendOut_ready (stage inst gen : Nat) (act : OutAct) : (s.sendOut stage inst gen act).ready = s.ready := rfl
@[simp] theorem State.sendOut_delay (stage inst gen : Nat) (act : OutAct) : (s.sendOut stage inst gen act).delay = s.delay := rfl
@[simp] theorem State.sendOut_queues (stage inst gen : Nat) (act : OutAct) : (s.sendOut stage inst gen act).queues = s.queues := rfl
@[simp] theorem State.sendOut_cmds (stage inst gen : Nat) (act : OutAct) : (s.sendOut stage inst gen act).cmds = s.cmds := rfl
@[simp] theorem State.sendOut_cmdSeq (stage inst gen : Nat) (act : OutAct) : (s.sendOut stage inst gen act).cmdSeq = s.cmdSeq := rfl
@[simp] theorem State.sendOut_writes (stage inst gen : Nat) (act : OutAct) : (s.sendOut stage inst gen act).writes = s.writes := rfl
@[simp] theorem State.sendOut_stagingTurn (stage inst gen : Nat) (act : OutAct) : (s.sendOut stage inst gen act).stagingTurn = s.stagingTurn := rfl
@[simp] theorem State.sendOut_insts (stage inst gen : Nat) (act : OutAct) : (s.sendOut stage inst gen act).insts = s.insts := rfl
@[simp] theorem State.sendOut_regions (stage inst gen : Nat) (act : OutAct) : (s.sendOut stage inst gen act).regions = s.regions := rfl
@[simp] theorem State.sendOut_pipes (stage inst gen : Nat) (act : OutAct) : (s.sendOut stage inst gen act).pipes = s.pipes := rfl
@[simp] theorem State.sendOut_runs (stage inst gen : Nat) (act : OutAct) : (s.sendOut stage inst gen act).runs = s.runs := rfl
@[simp] theorem State.sendOut_pool (stage inst gen : Nat) (act : OutAct) : (s.sendOut stage inst gen act).pool = s.pool := rfl
@[simp] theorem State.sendOut_journal (stage inst gen : Nat) (act : OutAct) : (s.sendOut stage inst gen act).journal = s.journal := rfl
@[simp] theorem State.sendOut_tally (stage inst gen : Nat) (act : OutAct) : (s.sendOut stage inst gen act).tally = s.tally := rfl
@[simp] theorem State.sendOut_merges (stage inst gen : Nat) (act : OutAct) : (s.sendOut stage inst gen act).merges = s.merges := rfl
@[simp] theorem State.sendOut_held (stage inst gen : Nat) (act : OutAct) : (s.sendOut stage inst gen act).held = s.held := rfl
@[simp] theorem State.sendOut_mrds (stage inst gen : Nat) (act : OutAct) : (s.sendOut stage inst gen act).mrds = s.mrds := rfl
@[simp] theorem State.sendOut_sent (stage inst gen : Nat) (act : OutAct) : (s.sendOut stage inst gen act).sent = s.sent := rfl
@[simp] theorem State.sendOut_ports (stage inst gen : Nat) (act : OutAct) : (s.sendOut stage inst gen act).ports = s.ports := rfl
@[simp] theorem State.sendOut_crank (stage inst gen : Nat) (act : OutAct) : (s.sendOut stage inst gen act).crank = s.crank := rfl
@[simp] theorem State.sendOut_wicks (stage inst gen : Nat) (act : OutAct) : (s.sendOut stage inst gen act).wicks = s.wicks := rfl
@[simp] theorem State.sendOut_saves (stage inst gen : Nat) (act : OutAct) : (s.sendOut stage inst gen act).saves = s.saves := rfl
@[simp] theorem State.sendOut_sealCount (stage inst gen : Nat) (act : OutAct) : (s.sendOut stage inst gen act).sealCount = s.sealCount := rfl
@[simp] theorem State.sendOut_recSlots (stage inst gen : Nat) (act : OutAct) : (s.sendOut stage inst gen act).recSlots = s.recSlots := rfl
@[simp] theorem State.sendOut_recClock (stage inst gen : Nat) (act : OutAct) : (s.sendOut stage inst gen act).recClock = s.recClock := rfl
@[simp] theorem State.sendOut_bitmaps (stage inst gen : Nat) (act : OutAct) : (s.sendOut stage inst gen act).bitmaps = s.bitmaps := rfl
@[simp] theorem State.sendOut_ledger (stage inst gen : Nat) (act : OutAct) : (s.sendOut stage inst gen act).ledger = s.ledger := rfl
@[simp] theorem State.sendOut_reports (stage inst gen : Nat) (act : OutAct) : (s.sendOut stage inst gen act).reports = s.reports := rfl
@[simp] theorem State.sendOut_dictSeen (stage inst gen : Nat) (act : OutAct) : (s.sendOut stage inst gen act).dictSeen = s.dictSeen := rfl
@[simp] theorem State.sendOut_sconces (stage inst gen : Nat) (act : OutAct) : (s.sendOut stage inst gen act).sconces = s.sconces := rfl
@[simp] theorem State.sendOut_blocks (stage inst gen : Nat) (act : OutAct) : (s.sendOut stage inst gen act).blocks = s.blocks := rfl
@[simp] theorem State.sendOut_credits (stage inst gen : Nat) (act : OutAct) : (s.sendOut stage inst gen act).credits = s.credits := rfl
@[simp] theorem State.sendOut_flits (stage inst gen : Nat) (act : OutAct) : (s.sendOut stage inst gen act).flits = s.flits := rfl
@[simp] theorem State.sendOut_xparts (stage inst gen : Nat) (act : OutAct) : (s.sendOut stage inst gen act).xparts = s.xparts := rfl
@[simp] theorem State.sendOut_peerIns (stage inst gen : Nat) (act : OutAct) : (s.sendOut stage inst gen act).peerIns = s.peerIns := rfl
@[simp] theorem State.sendOut_foldMsgs (stage inst gen : Nat) (act : OutAct) : (s.sendOut stage inst gen act).foldMsgs = s.foldMsgs := rfl
@[simp] theorem State.sendOut_foldQ (stage inst gen : Nat) (act : OutAct) : (s.sendOut stage inst gen act).foldQ = s.foldQ := rfl
@[simp] theorem State.sendOut_sruns (stage inst gen : Nat) (act : OutAct) : (s.sendOut stage inst gen act).sruns = s.sruns := rfl
@[simp] theorem State.sendOut_chds (stage inst gen : Nat) (act : OutAct) : (s.sendOut stage inst gen act).chds = s.chds := rfl
@[simp] theorem State.sendOut_hbm (stage inst gen : Nat) (act : OutAct) : (s.sendOut stage inst gen act).hbm = s.hbm := rfl
@[simp] theorem State.sendOut_retired (stage inst gen : Nat) (act : OutAct) : (s.sendOut stage inst gen act).retired = s.retired := rfl
@[simp] theorem State.sendOut_chains (stage inst gen : Nat) (act : OutAct) : (s.sendOut stage inst gen act).chains = s.chains := rfl
@[simp] theorem State.sendOut_pins (stage inst gen : Nat) (act : OutAct) : (s.sendOut stage inst gen act).pins = s.pins := rfl
@[simp] theorem State.sendOut_boot (stage inst gen : Nat) (act : OutAct) : (s.sendOut stage inst gen act).boot = s.boot := rfl
@[simp] theorem State.sendOut_swx (stage inst gen : Nat) (act : OutAct) : (s.sendOut stage inst gen act).swx = s.swx := rfl
@[simp] theorem State.sendOut_ras (stage inst gen : Nat) (act : OutAct) : (s.sendOut stage inst gen act).ras = s.ras := rfl

/-! ### `withCommand` -/

@[simp] theorem State.withCommand_drawn (c : Instr) : (s.withCommand c).drawn = s.drawn := rfl
@[simp] theorem State.withCommand_csr (c : Instr) : (s.withCommand c).csr = s.csr := rfl
@[simp] theorem State.withCommand_mem (c : Instr) : (s.withCommand c).mem = s.mem := rfl
@[simp] theorem State.withCommand_hostMem (c : Instr) : (s.withCommand c).hostMem = s.hostMem := rfl
@[simp] theorem State.withCommand_flash (c : Instr) : (s.withCommand c).flash = s.flash := rfl
@[simp] theorem State.withCommand_mail (c : Instr) : (s.withCommand c).mail = s.mail := rfl
@[simp] theorem State.withCommand_poison (c : Instr) : (s.withCommand c).poison = s.poison := rfl
@[simp] theorem State.withCommand_tb (c : Instr) : (s.withCommand c).tb = s.tb := rfl
@[simp] theorem State.withCommand_cog (c : Instr) : (s.withCommand c).cog = s.cog := rfl
@[simp] theorem State.withCommand_ctxs (c : Instr) : (s.withCommand c).ctxs = s.ctxs := rfl
@[simp] theorem State.withCommand_ready (c : Instr) : (s.withCommand c).ready = s.ready := rfl
@[simp] theorem State.withCommand_delay (c : Instr) : (s.withCommand c).delay = s.delay := rfl
@[simp] theorem State.withCommand_queues (c : Instr) : (s.withCommand c).queues = s.queues := rfl
@[simp] theorem State.withCommand_cmds (c : Instr) : (s.withCommand c).cmds = s.cmds := rfl
@[simp] theorem State.withCommand_cmdSeq (c : Instr) : (s.withCommand c).cmdSeq = s.cmdSeq := rfl
@[simp] theorem State.withCommand_writes (c : Instr) : (s.withCommand c).writes = s.writes := rfl
@[simp] theorem State.withCommand_stagingTurn (c : Instr) : (s.withCommand c).stagingTurn = s.stagingTurn := rfl
@[simp] theorem State.withCommand_insts (c : Instr) : (s.withCommand c).insts = s.insts := rfl
@[simp] theorem State.withCommand_regions (c : Instr) : (s.withCommand c).regions = s.regions := rfl
@[simp] theorem State.withCommand_pipes (c : Instr) : (s.withCommand c).pipes = s.pipes := rfl
@[simp] theorem State.withCommand_runs (c : Instr) : (s.withCommand c).runs = s.runs := rfl
@[simp] theorem State.withCommand_pool (c : Instr) : (s.withCommand c).pool = s.pool := rfl
@[simp] theorem State.withCommand_journal (c : Instr) : (s.withCommand c).journal = s.journal := rfl
@[simp] theorem State.withCommand_tally (c : Instr) : (s.withCommand c).tally = s.tally := rfl
@[simp] theorem State.withCommand_merges (c : Instr) : (s.withCommand c).merges = s.merges := rfl
@[simp] theorem State.withCommand_outbox (c : Instr) : (s.withCommand c).outbox = s.outbox := rfl
@[simp] theorem State.withCommand_held (c : Instr) : (s.withCommand c).held = s.held := rfl
@[simp] theorem State.withCommand_mrds (c : Instr) : (s.withCommand c).mrds = s.mrds := rfl
@[simp] theorem State.withCommand_sent (c : Instr) : (s.withCommand c).sent = s.sent := rfl
@[simp] theorem State.withCommand_ports (c : Instr) : (s.withCommand c).ports = s.ports := rfl
@[simp] theorem State.withCommand_crank (c : Instr) : (s.withCommand c).crank = s.crank := rfl
@[simp] theorem State.withCommand_wicks (c : Instr) : (s.withCommand c).wicks = s.wicks := rfl
@[simp] theorem State.withCommand_saves (c : Instr) : (s.withCommand c).saves = s.saves := rfl
@[simp] theorem State.withCommand_sealCount (c : Instr) : (s.withCommand c).sealCount = s.sealCount := rfl
@[simp] theorem State.withCommand_recSlots (c : Instr) : (s.withCommand c).recSlots = s.recSlots := rfl
@[simp] theorem State.withCommand_recClock (c : Instr) : (s.withCommand c).recClock = s.recClock := rfl
@[simp] theorem State.withCommand_bitmaps (c : Instr) : (s.withCommand c).bitmaps = s.bitmaps := rfl
@[simp] theorem State.withCommand_ledger (c : Instr) : (s.withCommand c).ledger = s.ledger := rfl
@[simp] theorem State.withCommand_reports (c : Instr) : (s.withCommand c).reports = s.reports := rfl
@[simp] theorem State.withCommand_dictSeen (c : Instr) : (s.withCommand c).dictSeen = s.dictSeen := rfl
@[simp] theorem State.withCommand_sconces (c : Instr) : (s.withCommand c).sconces = s.sconces := rfl
@[simp] theorem State.withCommand_blocks (c : Instr) : (s.withCommand c).blocks = s.blocks := rfl
@[simp] theorem State.withCommand_credits (c : Instr) : (s.withCommand c).credits = s.credits := rfl
@[simp] theorem State.withCommand_flits (c : Instr) : (s.withCommand c).flits = s.flits := rfl
@[simp] theorem State.withCommand_xparts (c : Instr) : (s.withCommand c).xparts = s.xparts := rfl
@[simp] theorem State.withCommand_peerIns (c : Instr) : (s.withCommand c).peerIns = s.peerIns := rfl
@[simp] theorem State.withCommand_foldMsgs (c : Instr) : (s.withCommand c).foldMsgs = s.foldMsgs := rfl
@[simp] theorem State.withCommand_foldQ (c : Instr) : (s.withCommand c).foldQ = s.foldQ := rfl
@[simp] theorem State.withCommand_sruns (c : Instr) : (s.withCommand c).sruns = s.sruns := rfl
@[simp] theorem State.withCommand_chds (c : Instr) : (s.withCommand c).chds = s.chds := rfl
@[simp] theorem State.withCommand_hbm (c : Instr) : (s.withCommand c).hbm = s.hbm := rfl
@[simp] theorem State.withCommand_retired (c : Instr) : (s.withCommand c).retired = s.retired := rfl
@[simp] theorem State.withCommand_chains (c : Instr) : (s.withCommand c).chains = s.chains := rfl
@[simp] theorem State.withCommand_pins (c : Instr) : (s.withCommand c).pins = s.pins := rfl
@[simp] theorem State.withCommand_boot (c : Instr) : (s.withCommand c).boot = s.boot := rfl
@[simp] theorem State.withCommand_swx (c : Instr) : (s.withCommand c).swx = s.swx := rfl
@[simp] theorem State.withCommand_ras (c : Instr) : (s.withCommand c).ras = s.ras := rfl

end Sys2Proof.Machine
end

