-- ==== Sys2Proof/Laws/Csr.lean ====
section
/-! SUPPORT. Tables by key, the CSR file and the bit fields of a number. -/
namespace Sys2Proof.Machine

/-! ### Tables -/

@[simp] theorem Tab.get_put_same {α : Type} (t : Tab α) (a : Nat) (b : α) : Tab.get (Tab.put t a b) a = some b := by
  induction t with
  | nil => simp [Tab.put, Tab.get]
  | cons c r ih =>
    obtain ⟨k, v⟩ := c
    simp only [Tab.put]
    split
    · simp [Tab.get]
    · split
      · simp_all [Tab.get]
      · rename_i _ h
        simp only [Tab.get]
        rw [if_neg (fun e => h e.symm), ih]

theorem Tab.get_put_ne {α : Type} (t : Tab α) (a a' : Nat) (b : α) (h : a' ≠ a) :
    Tab.get (Tab.put t a b) a' = Tab.get t a' := by
  induction t with
  | nil => simp [Tab.put, Tab.get, h.symm]
  | cons c r ih =>
    obtain ⟨k, v⟩ := c
    simp only [Tab.put]
    split
    · simp [Tab.get, h.symm]
    · split
      · subst_vars; simp [Tab.get, h.symm]
      · simp [Tab.get, ih]

@[simp] theorem Tab.at_put_same {α : Type} [Inhabited α] (t : Tab α) (a : Nat) (b : α) :
    Tab.at (Tab.put t a b) a = b := by simp [Tab.at]

theorem Tab.at_put_ne {α : Type} [Inhabited α] (t : Tab α) (a a' : Nat) (b : α) (h : a' ≠ a) :
    Tab.at (Tab.put t a b) a' = Tab.at t a' := by simp [Tab.at, Tab.get_put_ne _ _ _ _ h]

theorem Tab.get_upd_same {α : Type} (t : Tab α) (a : Nat) (f : α → α) :
    Tab.get (Tab.upd t a f) a = (Tab.get t a).map f := by
  induction t with
  | nil => rfl
  | cons c r ih =>
    obtain ⟨k, v⟩ := c
    simp only [Tab.upd, List.map_cons] at *
    split
    · simp_all [Tab.get]
    · rename_i h
      simp only [Tab.get]
      rw [if_neg h, if_neg h, ih]

theorem Tab.get_upd_ne {α : Type} (t : Tab α) (a a' : Nat) (f : α → α) (h : a' ≠ a) :
    Tab.get (Tab.upd t a f) a' = Tab.get t a' := by
  induction t with
  | nil => rfl
  | cons c r ih =>
    obtain ⟨k, v⟩ := c
    simp only [Tab.upd, List.map_cons] at *
    split
    · subst_vars
      simp only [Tab.get]
      rw [if_neg h.symm, if_neg h.symm, ih]
    · simp only [Tab.get]
      rw [ih]

theorem Tab.at_upd_ne {α : Type} [Inhabited α] (t : Tab α) (a a' : Nat) (f : α → α) (h : a' ≠ a) :
    Tab.at (Tab.upd t a f) a' = Tab.at t a' := by simp [Tab.at, Tab.get_upd_ne _ _ _ _ h]

theorem Tab.at_upd_same {α : Type} [Inhabited α] (t : Tab α) (a : Nat) (f : α → α) (v : α)
    (h : Tab.get t a = some v) : Tab.at (Tab.upd t a f) a = f v := by simp [Tab.at, Tab.get_upd_same, h]

theorem Tab.get_del_ne {α : Type} (t : Tab α) (a a' : Nat) (h : a' ≠ a) :
    Tab.get (Tab.del t a) a' = Tab.get t a' := by
  induction t with
  | nil => rfl
  | cons c r ih =>
    obtain ⟨k, v⟩ := c
    simp only [Tab.del, List.filter_cons] at *
    by_cases e : k = a
    · subst e
      simp only [bne_self_eq_false, Bool.false_eq_true, if_false, Tab.get]
      rw [ih, if_neg h.symm]
    · have e' : (k != a) = true := by simpa using e
      simp only [e', if_true, Tab.get, ih]

@[simp] theorem Tab.get_del_same {α : Type} (t : Tab α) (a : Nat) : Tab.get (Tab.del t a) a = none := by
  induction t with
  | nil => rfl
  | cons c r ih =>
    obtain ⟨k, v⟩ := c
    simp only [Tab.del, List.filter_cons] at *
    by_cases e : k = a
    · subst e; simpa using ih
    · have e' : (k != a) = true := by simpa using e
      simp only [e', if_true, Tab.get, ih, if_neg e]

/-! ### Bit fields -/

theorem bitsOf_lt (n lo w : Nat) : bitsOf n lo w < 2 ^ w := Nat.mod_lt _ (Nat.two_pow_pos w)

/-- A number is what lies below a field, the field, and what lies above it. -/
theorem bitsOf_split (n lo w : Nat) :
    n = n % 2 ^ lo + (bitsOf n lo w) * 2 ^ lo + (n / 2 ^ (lo + w)) * 2 ^ (lo + w) := by
  have h1 := Nat.div_add_mod n (2 ^ lo)
  have h2 := Nat.div_add_mod (n / 2 ^ lo) (2 ^ w)
  simp only [bitsOf, Nat.shiftRight_eq_div_pow]
  rw [Nat.pow_add, ← Nat.div_div_eq_div_mul]
  generalize n / 2 ^ lo = q at *
  generalize q / 2 ^ w = r at *
  generalize q % 2 ^ w = f at *
  rw [← h2] at h1
  rw [Nat.mul_add] at h1
  have : 2 ^ lo * (2 ^ w * r) = r * (2 ^ lo * 2 ^ w) := by
    rw [← Nat.mul_assoc, Nat.mul_comm]
  rw [this, Nat.mul_comm (2 ^ lo) f] at h1
  omega

theorem putBits_eq (n lo w v : Nat) :
    putBits n lo w v = n % 2 ^ lo + (v % 2 ^ w) * 2 ^ lo + (n / 2 ^ (lo + w)) * 2 ^ (lo + w) := by
  have h := bitsOf_split n lo w
  simp only [putBits, Nat.shiftLeft_eq]
  omega

theorem low_lt (n lo w v : Nat) : n % 2 ^ lo + (v % 2 ^ w) * 2 ^ lo < 2 ^ (lo + w) := by
  have h1 : n % 2 ^ lo < 2 ^ lo := Nat.mod_lt _ (Nat.two_pow_pos lo)
  have h2 : v % 2 ^ w < 2 ^ w := Nat.mod_lt _ (Nat.two_pow_pos w)
  have h3 : (v % 2 ^ w + 1) * 2 ^ lo ≤ 2 ^ w * 2 ^ lo := Nat.mul_le_mul_right _ h2
  rw [Nat.add_mul, Nat.one_mul] at h3
  rw [Nat.pow_add, Nat.mul_comm (2 ^ lo)]
  omega

/-- R7: a field that is set reads as set, in its width. -/
@[simp] theorem bitsOf_putBits_same (n lo w v : Nat) : bitsOf (putBits n lo w v) lo w = v % 2 ^ w := by
  rw [putBits_eq]
  have h1 : n % 2 ^ lo < 2 ^ lo := Nat.mod_lt _ (Nat.two_pow_pos lo)
  simp only [bitsOf, Nat.shiftRight_eq_div_pow]
  have e : n % 2 ^ lo + v % 2 ^ w * 2 ^ lo + n / 2 ^ (lo + w) * 2 ^ (lo + w)
      = n % 2 ^ lo + 2 ^ lo * (v % 2 ^ w + 2 ^ w * (n / 2 ^ (lo + w))) := by
    rw [Nat.mul_add, Nat.mul_comm (2 ^ lo) (v % 2 ^ w), ← Nat.mul_assoc, ← Nat.pow_add, Nat.mul_comm (2 ^ (lo + w)),
      Nat.add_assoc]
  rw [e, Nat.add_mul_div_left _ _ (Nat.two_pow_pos lo), Nat.div_eq_of_lt h1, Nat.zero_add, Nat.add_mul_mod_self_left,
    Nat.mod_mod]

/-- R7: setting a field leaves a field beside it alone. -/
theorem bitsOf_putBits_ne (n lo w v lo' w' : Nat) (h : lo' + w' ≤ lo ∨ lo + w ≤ lo') :
    bitsOf (putBits n lo w v) lo' w' = bitsOf n lo' w' := by
  rw [putBits_eq]
  rcases h with h | h
  · have key : ∀ m : Nat, bitsOf m lo' w' = bitsOf (m % 2 ^ lo) lo' w' := by
      intro m
      simp only [bitsOf, Nat.shiftRight_eq_div_pow]
      obtain ⟨d, rfl⟩ := Nat.exists_eq_add_of_le h
      rw [show lo' + w' + d = lo' + (w' + d) by omega, Nat.pow_add 2 lo', Nat.mod_mul_right_div_self]
      rw [Nat.pow_add 2 w', Nat.mod_mul_right_mod]
    rw [key, key n]
    congr 1
    rw [Nat.add_assoc, Nat.pow_add, ← Nat.mul_assoc, Nat.mul_right_comm, ← Nat.add_mul, Nat.add_mul_mod_self_right,
      Nat.mod_mod]
  · have key : ∀ m : Nat, bitsOf m lo' w' = bitsOf (m / 2 ^ (lo + w)) (lo' - (lo + w)) w' := by
      intro m
      simp only [bitsOf, Nat.shiftRight_eq_div_pow]
      rw [Nat.div_div_eq_div_mul, ← Nat.pow_add, Nat.add_sub_cancel' h]
    rw [key, key n]
    congr 1
    rw [Nat.add_mul_div_right _ _ (Nat.two_pow_pos _), Nat.div_eq_of_lt (low_lt n lo w v), Nat.zero_add]

theorem putBits_lt (n lo w v b : Nat) (hn : n < 2 ^ b) (hw : lo + w ≤ b) : putBits n lo w v < 2 ^ b := by
  rw [putBits_eq]
  obtain ⟨d, rfl⟩ := Nat.exists_eq_add_of_le hw
  have h1 := low_lt n lo w v
  have h2 : n / 2 ^ (lo + w) < 2 ^ d := Nat.div_lt_of_lt_mul (by rwa [← Nat.pow_add])
  have h3 : (n / 2 ^ (lo + w) + 1) * 2 ^ (lo + w) ≤ 2 ^ d * 2 ^ (lo + w) := Nat.mul_le_mul_right _ h2
  rw [Nat.add_mul, Nat.one_mul, ← Nat.pow_add, Nat.add_comm d] at h3
  omega

/-! ### Registers -/

/-- A register that is written holds the low 64 bits of what was written. -/
@[simp] theorem State.rd_wr_same (s : State) (off v : Nat) : (s.wr off v).rd off = v % 2 ^ 64 := by
  simp [State.rd, State.wr]

theorem State.rd_wr_ne (s : State) (off off' v : Nat) (h : off' ≠ off) : (s.wr off v).rd off' = s.rd off' := by
  simp [State.rd, State.wr, Tab.get_put_ne _ _ _ _ h]

theorem State.fld_wr_ne (s : State) (off off' v : Nat) (f : Nat × Nat) (h : off' ≠ off) :
    (s.wr off v).fld off' f = s.fld off' f := by simp [State.fld, State.rd_wr_ne _ _ _ _ h]

theorem State.rd_setFld_ne (s : State) (off off' v : Nat) (f : Nat × Nat) (h : off' ≠ off) :
    (s.setFld off f v).rd off' = s.rd off' := State.rd_wr_ne _ _ _ _ h

theorem State.fld_setFld_ne (s : State) (off off' v : Nat) (f g : Nat × Nat) (h : off' ≠ off) :
    (s.setFld off f v).fld off' g = s.fld off' g := State.fld_wr_ne _ _ _ _ _ h

theorem bitsOf_mod (n lo w b : Nat) (h : lo + w ≤ b) : bitsOf (n % 2 ^ b) lo w = bitsOf n lo w := by
  simp only [bitsOf, Nat.shiftRight_eq_div_pow]
  obtain ⟨d, rfl⟩ := Nat.exists_eq_add_of_le h
  rw [show lo + w + d = lo + (w + d) by omega, Nat.pow_add 2 lo, Nat.mod_mul_right_div_self, Nat.pow_add 2 w,
    Nat.mod_mul_right_mod]

/-- A field that is set reads as set, in its width. -/
theorem State.fld_setFld_same (s : State) (off v : Nat) (f : Nat × Nat) (h : f.1 + f.2 ≤ 64) :
    (s.setFld off f v).fld off f = v % 2 ^ f.2 := by
  rw [State.fld, State.setFld, State.rd_wr_same, bitsOf_mod _ _ _ _ h, bitsOf_putBits_same]

/-- Setting a field leaves a field beside it alone. -/
theorem State.fld_setFld_other (s : State) (off v : Nat) (f g : Nat × Nat) (hg : g.1 + g.2 ≤ 64)
    (h : g.1 + g.2 ≤ f.1 ∨ f.1 + f.2 ≤ g.1) : (s.setFld off f v).fld off g = s.fld off g := by
  rw [State.fld, State.setFld, State.rd_wr_same, bitsOf_mod _ _ _ _ hg, bitsOf_putBits_ne _ _ _ _ _ _ h]; rfl

theorem State.rd_raise_ne (s : State) (off off' : Nat) (f : Nat × Nat) (h : off' ≠ off) :
    (s.raise off f).rd off' = s.rd off' := State.rd_wr_ne _ _ _ _ h

/-- A sticky bit that is raised reads 1. -/
theorem State.fld_raise_same (s : State) (off : Nat) (f : Nat × Nat) (h : f.1 + f.2 ≤ 64) (hw : 0 < f.2) :
    (s.raise off f).fld off f = 1 := by
  rw [State.raise, State.fld_setFld_same _ _ _ _ h]
  exact Nat.mod_eq_of_lt (Nat.one_lt_two_pow (by omega))

theorem State.rd_bump_same (s : State) (off n : Nat) : (s.bump off n).rd off = (s.rd off + n) % 2 ^ 64 := by
  simp [State.bump]

theorem State.rd_bump_ne (s : State) (off off' n : Nat) (h : off' ≠ off) : (s.bump off n).rd off' = s.rd off' :=
  State.rd_wr_ne _ _ _ _ h

/-! ### Guards -/

theorem whenDue_true (s t : State) : whenDue true s t = t := rfl

theorem whenDue_false (s t : State) : whenDue false s t = s := rfl

end Sys2Proof.Machine
end

