-- ==== Sys2Proof/Laws/Memory.lean ====
section
/-! SUPPORT. The memories: every operation keeps the canonical form, a read after a write gives what was written, and a
write leaves every other address alone. -/
namespace Sys2Proof.Machine

/-! ### One byte -/

@[simp] theorem cellGet_nil (a : Nat) : cellGet [] a = 0 := rfl

@[simp] theorem Memory.wf_nil : Memory.wf [] = true := rfl

theorem Memory.wf_cons (c : Host.Cell) (r : List Host.Cell) :
    Memory.wf (c :: r) = true ↔ c.2 ≠ 0 ∧ (∀ d ∈ r, c.1 < d.1) ∧ Memory.wf r = true := by
  induction r generalizing c with
  | nil => simp [Memory.wf]
  | cons d r ih =>
    simp only [Memory.wf, Bool.and_eq_true, bne_iff_ne, decide_eq_true_eq, List.mem_cons, forall_eq_or_imp]
    constructor
    · rintro ⟨⟨h1, h2⟩, h3⟩
      have := (ih d).1 h3
      exact ⟨h1, ⟨h2, fun e he => Nat.lt_trans h2 (this.2.1 e he)⟩, h3⟩
    · rintro ⟨h1, ⟨h2, _⟩, h3⟩
      exact ⟨⟨h1, h2⟩, h3⟩

theorem cellGet_of_lt (m : List Host.Cell) (a : Nat) (h : ∀ d ∈ m, a < d.1) : cellGet m a = 0 := by
  induction m with
  | nil => rfl
  | cons c r ih =>
    obtain ⟨k, v⟩ := c
    have hk := h (k, v) (by simp)
    simp only [cellGet]
    rw [if_neg (by simp at hk; omega)]
    exact ih fun d hd => h d (by simp [hd])

/-- A write leaves every other address alone. -/
theorem cellGet_cellPut_ne (m : List Host.Cell) (a a' : Nat) (b : Byte) (h : a' ≠ a) :
    cellGet (cellPut m a b) a' = cellGet m a' := by
  induction m with
  | nil => simp only [cellPut]; split <;> simp [cellGet, h.symm]
  | cons c r ih =>
    obtain ⟨k, v⟩ := c
    simp only [cellPut]
    split
    · split <;> simp [cellGet, h.symm]
    · split
      · subst_vars; split <;> simp [cellGet, h.symm]
      · simp [cellGet, ih]

/-- A read after a write gives the byte written. -/
theorem cellGet_cellPut_same (m : List Host.Cell) (a : Nat) (b : Byte) (hm : Memory.wf m = true) :
    cellGet (cellPut m a b) a = b := by
  induction m with
  | nil => simp only [cellPut]; split <;> simp_all [cellGet]
  | cons c r ih =>
    obtain ⟨k, v⟩ := c
    obtain ⟨_, h2, h3⟩ := (Memory.wf_cons _ _).1 hm
    simp only [cellPut]
    split
    · rename_i hlt
      split
      · rename_i hb
        rw [hb]
        apply cellGet_of_lt
        intro d hd
        rcases List.mem_cons.1 hd with rfl | hd
        · exact hlt
        · exact Nat.lt_trans hlt (h2 d hd)
      · simp [cellGet]
    · split
      · rename_i _ hk
        split
        · rename_i hb
          rw [hb]
          apply cellGet_of_lt
          intro d hd
          rw [hk]
          exact h2 d hd
        · simp [cellGet, hk]
      · rename_i _ hk
        simp only [cellGet]
        rw [if_neg (fun e => hk e.symm)]
        exact ih h3

theorem lt_of_mem_cellPut (m : List Host.Cell) (a k : Nat) (b : Byte) (hk : k < a) (h : ∀ d ∈ m, k < d.1) :
    ∀ d ∈ cellPut m a b, k < d.1 := by
  induction m with
  | nil => simp only [cellPut]; split <;> simp [hk]
  | cons c r ih =>
    obtain ⟨k', v⟩ := c
    have hr : ∀ d ∈ r, k < d.1 := fun d hd => h d (by simp [hd])
    have hc := h (k', v) (by simp)
    simp only [cellPut]
    split
    · split
      · exact h
      · intro d hd
        rcases List.mem_cons.1 hd with rfl | hd
        · exact hk
        · exact h d hd
    · split
      · split
        · exact hr
        · intro d hd
          rcases List.mem_cons.1 hd with rfl | hd
          · exact hc
          · exact hr d hd
      · intro d hd
        rcases List.mem_cons.1 hd with rfl | hd
        · exact hc
        · exact ih hr d hd

/-- A write keeps the canonical form. -/
theorem Memory.wf_cellPut (m : List Host.Cell) (a : Nat) (b : Byte) (hm : Memory.wf m = true) :
    Memory.wf (cellPut m a b) = true := by
  induction m with
  | nil => simp only [cellPut]; split <;> simp_all [Memory.wf]
  | cons c r ih =>
    obtain ⟨k, v⟩ := c
    obtain ⟨h1, h2, h3⟩ := (Memory.wf_cons _ _).1 hm
    simp only [cellPut]
    split
    · rename_i hlt
      split
      · exact hm
      · rename_i hb
        refine (Memory.wf_cons _ _).2 ⟨hb, ?_, hm⟩
        intro d hd
        rcases List.mem_cons.1 hd with rfl | hd
        · exact hlt
        · exact Nat.lt_trans hlt (h2 d hd)
    · split
      · split
        · exact h3
        · rename_i hb
          exact (Memory.wf_cons _ _).2 ⟨hb, h2, h3⟩
      · rename_i hlt hk
        exact (Memory.wf_cons _ _).2 ⟨h1, lt_of_mem_cellPut r a k b (by omega) h2, ih h3⟩

/-! ### Runs of bytes -/

theorem Memory.wf_cellsWrite (m : List Host.Cell) (a : Nat) (bs : List Byte) (hm : Memory.wf m = true) :
    Memory.wf (cellsWrite m a bs) = true := by
  induction bs generalizing m a with
  | nil => exact hm
  | cons b bs ih => exact ih _ _ (Memory.wf_cellPut m a b hm)

theorem cellGet_cellsWrite_out (m : List Host.Cell) (a k : Nat) (bs : List Byte)
    (h : k < a ∨ a + bs.length ≤ k) : cellGet (cellsWrite m a bs) k = cellGet m k := by
  induction bs generalizing m a with
  | nil => rfl
  | cons b bs ih =>
    simp only [List.length_cons] at h
    simp only [cellsWrite]
    rw [ih _ _ (by omega), cellGet_cellPut_ne _ _ _ _ (by omega)]

theorem cellGet_cellsWrite_in (m : List Host.Cell) (a i : Nat) (bs : List Byte) (hm : Memory.wf m = true)
    (h : i < bs.length) : cellGet (cellsWrite m a bs) (a + i) = bs.getD i 0 := by
  induction bs generalizing m a i with
  | nil => simp at h
  | cons b bs ih =>
    simp only [cellsWrite]
    cases i with
    | zero =>
      rw [cellGet_cellsWrite_out _ _ _ _ (by omega)]
      simp [cellGet_cellPut_same _ _ _ hm]
    | succ i =>
      have := ih (cellPut m a b) (a + 1) i (Memory.wf_cellPut m a b hm) (by simpa using h)
      rw [show a + (i + 1) = a + 1 + i by omega, this]
      simp

theorem Memory.wf_filter (m : List Host.Cell) (p : Host.Cell → Bool) (hm : Memory.wf m = true) :
    Memory.wf (m.filter p) = true := by
  induction m with
  | nil => rfl
  | cons c r ih =>
    obtain ⟨h1, h2, h3⟩ := (Memory.wf_cons _ _).1 hm
    simp only [List.filter_cons]
    split
    · exact (Memory.wf_cons _ _).2 ⟨h1, fun d hd => h2 d (List.mem_filter.1 hd).1, ih h3⟩
    · exact ih h3

theorem Memory.wf_cellsZero (m : List Host.Cell) (lo n : Nat) (hm : Memory.wf m = true) :
    Memory.wf (cellsZero m lo n) = true := Memory.wf_filter m _ hm

theorem cellGet_cellsZero (m : List Host.Cell) (lo n k : Nat) :
    cellGet (cellsZero m lo n) k = if lo ≤ k ∧ k < lo + n then 0 else cellGet m k := by
  induction m with
  | nil => simp [cellsZero]
  | cons c r ih =>
    obtain ⟨q, v⟩ := c
    simp only [cellsZero, List.filter_cons] at *
    by_cases hq : q < lo ∨ lo + n ≤ q
    · simp only [hq, decide_true, if_true, cellGet]
      by_cases e : q = k
      · subst e; rw [if_pos rfl, if_neg (by omega), if_pos rfl]
      · rw [if_neg e, if_neg e, ih]
    · simp only [hq, decide_false, Bool.false_eq_true, if_false, cellGet]
      rw [ih]
      by_cases e : q = k
      · subst e; rw [if_pos (by omega), if_pos (by omega)]
      · rw [if_neg e]

theorem Memory.wf_foldl_put (l : List Host.Cell) (f : Host.Cell → Nat) (m : List Host.Cell)
    (hm : Memory.wf m = true) : Memory.wf (l.foldl (fun m c => cellPut m (f c) c.2) m) = true := by
  induction l generalizing m with
  | nil => exact hm
  | cons c r ih => exact ih _ (Memory.wf_cellPut _ _ _ hm)

theorem Memory.wf_cellsCopy (src dst : List Host.Cell) (frm dest n : Nat) (hm : Memory.wf dst = true) :
    Memory.wf (cellsCopy src dst frm dest n) = true :=
  Memory.wf_foldl_put _ (fun c => c.1 - frm + dest) _ (Memory.wf_cellsZero dst dest n hm)

/-! ### Reading runs of bytes -/

@[simp] theorem cellsRead_length (m : List Host.Cell) (a n : Nat) : (cellsRead m a n).length = n := by
  induction n generalizing a with
  | zero => rfl
  | succ n ih => simp [cellsRead, ih]

theorem cellsRead_congr (m m' : List Host.Cell) (a n : Nat)
    (h : ∀ i, i < n → cellGet m (a + i) = cellGet m' (a + i)) : cellsRead m a n = cellsRead m' a n := by
  induction n generalizing a with
  | zero => rfl
  | succ n ih =>
    simp only [cellsRead]
    have h0 := h 0 (by omega)
    simp only [Nat.add_zero] at h0
    rw [h0, ih]
    intro i hi
    have := h (i + 1) (by omega)
    rwa [show a + (i + 1) = a + 1 + i by omega] at this

/-- R672, R183: what was written is read back. -/
theorem cellsRead_cellsWrite_same (m : List Host.Cell) (a : Nat) (bs : List Byte) (hm : Memory.wf m = true) :
    cellsRead (cellsWrite m a bs) a bs.length = bs := by
  induction bs generalizing m a with
  | nil => rfl
  | cons b bs ih =>
    simp only [cellsWrite, List.length_cons, cellsRead]
    rw [ih _ _ (Memory.wf_cellPut m a b hm), cellGet_cellsWrite_out _ _ _ _ (by omega),
      cellGet_cellPut_same _ _ _ hm]

theorem cellsRead_cellsWrite_out (m : List Host.Cell) (a k n : Nat) (bs : List Byte)
    (h : k + n ≤ a ∨ a + bs.length ≤ k) : cellsRead (cellsWrite m a bs) k n = cellsRead m k n := by
  apply cellsRead_congr
  intro i hi
  exact cellGet_cellsWrite_out _ _ _ _ (by omega)

theorem State.peek_poke_same (s : State) (a : Nat) (bs : List Byte) (hm : Memory.wf s.mem = true) :
    (s.poke a bs).peek a bs.length = bs := cellsRead_cellsWrite_same _ _ _ hm

theorem State.peek_poke_out (s : State) (a k n : Nat) (bs : List Byte) (h : k + n ≤ a ∨ a + bs.length ≤ k) :
    (s.poke a bs).peek k n = s.peek k n := cellsRead_cellsWrite_out _ _ _ _ _ h

theorem State.poke_wf (s : State) (a : Nat) (bs : List Byte) (hm : Memory.wf s.mem = true) :
    Memory.wf (s.poke a bs).mem = true := Memory.wf_cellsWrite _ _ _ hm

theorem State.wipe_wf (s : State) (a n : Nat) (hm : Memory.wf s.mem = true) :
    Memory.wf (s.wipe a n).mem = true := Memory.wf_cellsZero _ _ _ hm

/-- The memories of the reset state are in canonical form. -/
theorem State.reset_wf : Memory.wf State.reset.mem = true ∧ Memory.wf State.reset.hostMem = true
    ∧ Memory.wf State.reset.flash = true ∧ Memory.wf State.reset.mail = true := ⟨rfl, rfl, rfl, rfl⟩

end Sys2Proof.Machine
end

