-- ==== Sys2Proof/WellFormed.lean ====
section
/-! DEFINITION. Which operands a command can carry: what the block's buses, packets, pins and unit counts admit (R6,
R9, R10, R24, R527, R632, R633, R706). A command outside these names nothing of the block. -/
namespace Sys2Proof

open Sys2Proof.Machine

/-- The operands of a command name units the block has and values its fields can carry. -/
def Instr.wf : Instr → Bool
  | .csrWrite _ off size val => decide (off < 2 ^ 28 ∧ 1 ≤ size ∧ size ≤ 8 ∧ val < 2 ^ 64)
  | .csrReadClear _ off => decide (off < 2 ^ 28)
  | .unassignedAccess _ unit _ addr => decide (unit < 2 ^ 16 ∧ addr < 2 ^ 40)
  | .tailDoorbell inst loc idx => decide (inst ≤ 1024 ∧ loc < 512 ∧ idx < 2 ^ 32)
  | .dbell port inst gen loc idx => decide (port < 6 ∧ inst < 2048 ∧ gen < 2 ^ 16 ∧ loc < 2 ^ 16 ∧ idx < 2 ^ 32)
  | .cmdp port inst gen loc idx units => decide (port < 6 ∧ inst < 2048 ∧ gen < 2 ^ 16 ∧ loc < 2 ^ 16 ∧ idx < 2 ^ 32 ∧ units < 256)
  | .entryFetch g bytes => decide (g < 16384 ∧ bytes.length ≤ 4096)
  | .headPublish g => decide (g < 16384)
  | .ntfy g => decide (g < 16384)
  | .eventWrite inst => decide (inst ≤ 1024)
  | .overflowEvent g => decide (g < 16384)
  | .mailboxDoorbell inst _ val => decide (inst ≤ 1024 ∧ val < 2 ^ 64)
  | .identify key => decide (key ≤ mgmtKey)
  | .queueCreate key g => decide (key ≤ mgmtKey ∧ g < 16384)
  | .queueDelete key => decide (key ≤ mgmtKey)
  | .queueDrain key => decide (key ≤ mgmtKey)
  | .queueFlush key _ => decide (key ≤ mgmtKey)
  | .getState key => decide (key ≤ mgmtKey)
  | .setFeature key => decide (key ≤ mgmtKey)
  | .getLog key _ => decide (key ≤ mgmtKey)
  | .instanceCreate key => decide (key ≤ mgmtKey)
  | .instanceResize key => decide (key ≤ mgmtKey)
  | .resizeRelease inst => decide (inst ≤ 1024)
  | .instanceReset key => decide (key ≤ mgmtKey)
  | .instanceDestroy key => decide (key ≤ mgmtKey)
  | .generationRetireEnd inst gen => decide (inst ≤ 1024 ∧ gen < 2 ^ 16)
  | .staleWriteDrop _ => true
  | .poolSetup key => decide (key ≤ mgmtKey)
  | .fwStage key _ => decide (key ≤ mgmtKey)
  | .fwActivate key _ => decide (key ≤ mgmtKey)
  | .fwActivateTimeout => true
  | .keyLoad key _ => decide (key ≤ mgmtKey)
  | .repair key _ _ => decide (key ≤ mgmtKey)
  | .timeSet key => decide (key ≤ mgmtKey)
  | .timeSetTimeout => true
  | .tableWrite key => decide (key ≤ mgmtKey)
  | .xferRdy key xid => decide (key ≤ mgmtKey ∧ xid < 256)
  | .dataPacket port inst gen loc entry xid off _ bytes => decide (port < 6 ∧ inst < 2048 ∧ gen < 2 ^ 16 ∧ loc < 2 ^ 16 ∧ entry < 2 ^ 32 ∧ xid < 256 ∧ off < 2 ^ 32 ∧ 1 ≤ bytes.length ∧ bytes.length ≤ 4096)
  | .xferTimeout key xid => decide (key ≤ mgmtKey ∧ xid < 256)
  | .tableRead key => decide (key ≤ mgmtKey)
  | .tableCopy key => decide (key ≤ mgmtKey)
  | .regionAlloc key num base => decide (key ≤ mgmtKey ∧ num < 2 ^ 16 ∧ base < 2 ^ 40)
  | .regionFree key => decide (key ≤ mgmtKey)
  | .pipelineLoad key num _ _ _ => decide (key ≤ mgmtKey ∧ num < 2 ^ 16)
  | .pipelineUnload key => decide (key ≤ mgmtKey)
  | .queryRun key => decide (key ≤ mgmtKey)
  | .runStart key _ _ _ => decide (key ≤ mgmtKey)
  | .queryAbort key => decide (key ≤ mgmtKey)
  | .queryStatus key => decide (key ≤ mgmtKey)
  | .digest key _ _ => decide (key ≤ mgmtKey)
  | .barrier key => decide (key ≤ mgmtKey)
  | .nop key => decide (key ≤ mgmtKey)
  | .qmQresetGo _ g => decide (g < 16384)
  | .queueEnable _ g _ => decide (g < 16384)
  | .stageStart key stage _ => decide (key ≤ mgmtKey ∧ stage < 64)
  | .stageBarrier key stage _ _ => decide (key ≤ mgmtKey ∧ stage < 64)
  | .dispatch w ctx upset => decide (w < 1156 ∧ ctx < 2 ^ 20 ∧ upset ≤ 2)
  | .cog => true
  | .loadWindow => true
  | .preempt w save => decide (w < 1156 ∧ save < 2 ^ 16)
  | .resumeTask w ctx => decide (w < 1156 ∧ ctx < 2 ^ 20)
  | .watchdog w _ => decide (w < 1156)
  | .stalledWordIssue w _ => decide (w < 1156)
  | .farLoadData w _ => decide (w < 1156)
  | .commitPass ctx => decide (ctx < 2 ^ 20)
  | .publish ctx => decide (ctx < 2 ^ 20)
  | .slotCommit key stage slot => decide (key ≤ mgmtKey ∧ stage < 64 ∧ slot < 64)
  | .slotRestart key stage slot => decide (key ≤ mgmtKey ∧ stage < 64 ∧ slot < 64)
  | .migration ctx slot => decide (ctx < 2 ^ 20 ∧ slot < 64)
  | .resultEntryWrite key => decide (key ≤ mgmtKey)
  | .endEntryWrite key => decide (key ≤ mgmtKey)
  | .resultStall key => decide (key ≤ mgmtKey)
  | .runResume key => decide (key ≤ mgmtKey)
  | .deadlineMissed key => decide (key ≤ mgmtKey)
  | .recipeSlotFill w _ => decide (w < 1156)
  | .segmentDeliver w _ _ => decide (w < 1156)
  | .idBitmapBuild w => decide (w < 1156)
  | .ledgerReport => true
  | .ledgerFill _ => true
  | .rcpinv _ n slots => decide (n < 68 ∧ slots < 2 ^ 64)
  | .recipeWindowWrite _ n slot j val => decide (n < 68 ∧ slot < 16 ∧ j < 384 ∧ val < 2 ^ 64)
  | .wordNop w code => decide (w < 1156 ∧ code ≤ 2)
  | .mov w code => decide (w < 1156 ∧ code ≤ 2)
  | .add w code => decide (w < 1156 ∧ code ≤ 2)
  | .sub w code => decide (w < 1156 ∧ code ≤ 2)
  | .mul w code => decide (w < 1156 ∧ code ≤ 2)
  | .mulh w code => decide (w < 1156 ∧ code ≤ 2)
  | .mulhu w code => decide (w < 1156 ∧ code ≤ 2)
  | .div w code => decide (w < 1156 ∧ code ≤ 2)
  | .divu w code => decide (w < 1156 ∧ code ≤ 2)
  | .rem w code => decide (w < 1156 ∧ code ≤ 2)
  | .remu w code => decide (w < 1156 ∧ code ≤ 2)
  | .min w code => decide (w < 1156 ∧ code ≤ 2)
  | .max w code => decide (w < 1156 ∧ code ≤ 2)
  | .minu w code => decide (w < 1156 ∧ code ≤ 2)
  | .maxu w code => decide (w < 1156 ∧ code ≤ 2)
  | .neg w code => decide (w < 1156 ∧ code ≤ 2)
  | .abs w code => decide (w < 1156 ∧ code ≤ 2)
  | .and w code => decide (w < 1156 ∧ code ≤ 2)
  | .or w code => decide (w < 1156 ∧ code ≤ 2)
  | .xor w code => decide (w < 1156 ∧ code ≤ 2)
  | .andn w code => decide (w < 1156 ∧ code ≤ 2)
  | .not w code => decide (w < 1156 ∧ code ≤ 2)
  | .shl w code => decide (w < 1156 ∧ code ≤ 2)
  | .shr w code => decide (w < 1156 ∧ code ≤ 2)
  | .sar w code => decide (w < 1156 ∧ code ≤ 2)
  | .addo w code => decide (w < 1156 ∧ code ≤ 2)
  | .subo w code => decide (w < 1156 ∧ code ≤ 2)
  | .mulo w code => decide (w < 1156 ∧ code ≤ 2)
  | .addou w code => decide (w < 1156 ∧ code ≤ 2)
  | .subou w code => decide (w < 1156 ∧ code ≤ 2)
  | .swiden w code => decide (w < 1156 ∧ code ≤ 2)
  | .uwiden w code => decide (w < 1156 ∧ code ≤ 2)
  | .narrow w code => decide (w < 1156 ∧ code ≤ 2)
  | .addq w code => decide (w < 1156 ∧ code ≤ 2)
  | .subq w code => decide (w < 1156 ∧ code ≤ 2)
  | .addqo w code => decide (w < 1156 ∧ code ≤ 2)
  | .subqo w code => decide (w < 1156 ∧ code ≤ 2)
  | .dscl w code => decide (w < 1156 ∧ code ≤ 2)
  | .dsclo w code => decide (w < 1156 ∧ code ≤ 2)
  | .ddivr w code => decide (w < 1156 ∧ code ≤ 2)
  | .cmpeq w code => decide (w < 1156 ∧ code ≤ 2)
  | .cmpne w code => decide (w < 1156 ∧ code ≤ 2)
  | .cmplt w code => decide (w < 1156 ∧ code ≤ 2)
  | .cmple w code => decide (w < 1156 ∧ code ≤ 2)
  | .cmpgt w code => decide (w < 1156 ∧ code ≤ 2)
  | .cmpge w code => decide (w < 1156 ∧ code ≤ 2)
  | .cmpltu w code => decide (w < 1156 ∧ code ≤ 2)
  | .cmpleu w code => decide (w < 1156 ∧ code ≤ 2)
  | .cmpgtu w code => decide (w < 1156 ∧ code ≤ 2)
  | .cmpgeu w code => decide (w < 1156 ∧ code ≤ 2)
  | .blend w code => decide (w < 1156 ∧ code ≤ 2)
  | .compress w code => decide (w < 1156 ∧ code ≤ 2)
  | .expand w code => decide (w < 1156 ∧ code ≤ 2)
  | .mcount w code => decide (w < 1156 ∧ code ≤ 2)
  | .mexp w code => decide (w < 1156 ∧ code ≤ 2)
  | .mpack w code => decide (w < 1156 ∧ code ≤ 2)
  | .mtail w code => decide (w < 1156 ∧ code ≤ 2)
  | .fadd w code => decide (w < 1156 ∧ code ≤ 2)
  | .fsub w code => decide (w < 1156 ∧ code ≤ 2)
  | .fmul w code => decide (w < 1156 ∧ code ≤ 2)
  | .fdiv w code => decide (w < 1156 ∧ code ≤ 2)
  | .fsqrt w code => decide (w < 1156 ∧ code ≤ 2)
  | .fmin w code => decide (w < 1156 ∧ code ≤ 2)
  | .fmax w code => decide (w < 1156 ∧ code ≤ 2)
  | .fneg w code => decide (w < 1156 ∧ code ≤ 2)
  | .fabs w code => decide (w < 1156 ∧ code ≤ 2)
  | .fceq w code => decide (w < 1156 ∧ code ≤ 2)
  | .fclt w code => decide (w < 1156 ∧ code ≤ 2)
  | .fcle w code => decide (w < 1156 ∧ code ≤ 2)
  | .fcanon w code => decide (w < 1156 ∧ code ≤ 2)
  | .fcvtf w code => decide (w < 1156 ∧ code ≤ 2)
  | .fcvti w code => decide (w < 1156 ∧ code ≤ 2)
  | .fwiden w code => decide (w < 1156 ∧ code ≤ 2)
  | .fnarrow w code => decide (w < 1156 ∧ code ≤ 2)
  | .hash w code => decide (w < 1156 ∧ code ≤ 2)
  | .hashf w code => decide (w < 1156 ∧ code ≤ 2)
  | .crcb w code => decide (w < 1156 ∧ code ≤ 2)
  | .pfxcmp w code => decide (w < 1156 ∧ code ≤ 2)
  | .bclass w code => decide (w < 1156 ∧ code ≤ 2)
  | .ldx w code => decide (w < 1156 ∧ code ≤ 2)
  | .gather w code => decide (w < 1156 ∧ code ≤ 2)
  | .stx w code => decide (w < 1156 ∧ code ≤ 2)
  | .sfold w code => decide (w < 1156 ∧ code ≤ 2)
  | .emit w code => decide (w < 1156 ∧ code ≤ 2)
  | .eflush w code => decide (w < 1156 ∧ code ≤ 2)
  | .search w code => decide (w < 1156 ∧ code ≤ 2)
  | .step w code => decide (w < 1156 ∧ code ≤ 2)
  | .slpush w code => decide (w < 1156 ∧ code ≤ 2)
  | .slseal w code => decide (w < 1156 ∧ code ≤ 2)
  | .slpop w code => decide (w < 1156 ∧ code ≤ 2)
  | .lda w code => decide (w < 1156 ∧ code ≤ 2)
  | .adda w code => decide (w < 1156 ∧ code ≤ 2)
  | .sta w code => decide (w < 1156 ∧ code ≤ 2)
  | .rdff w code => decide (w < 1156 ∧ code ≤ 2)
  | .clrff w code => decide (w < 1156 ∧ code ≤ 2)
  | .rdrep w code => decide (w < 1156 ∧ code ≤ 2)
  | .br w code => decide (w < 1156 ∧ code ≤ 2)
  | .bany w code => decide (w < 1156 ∧ code ≤ 2)
  | .ball w code => decide (w < 1156 ∧ code ≤ 2)
  | .bnone w code => decide (w < 1156 ∧ code ≤ 2)
  | .bnall w code => decide (w < 1156 ∧ code ≤ 2)
  | .loop w code => decide (w < 1156 ∧ code ≤ 2)
  | .baz w code => decide (w < 1156 ∧ code ≤ 2)
  | .banz w code => decide (w < 1156 ∧ code ≤ 2)
  | .call w code => decide (w < 1156 ∧ code ≤ 2)
  | .ret w code => decide (w < 1156 ∧ code ≤ 2)
  | .yield w code => decide (w < 1156 ∧ code ≤ 2)
  | .halt w code => decide (w < 1156 ∧ code ≤ 2)
  | .haltf w code => decide (w < 1156 ∧ code ≤ 2)
  | .break w code => decide (w < 1156 ∧ code ≤ 2)
  | .rep w code => decide (w < 1156 ∧ code ≤ 2)
  | .repi w code => decide (w < 1156 ∧ code ≤ 2)
  | .exchangeSend w p _ => decide (w < 1156 ∧ p < 0x030)
  | .exchangeFlitReceive _ => true
  | .recordsPacket port src dst hops inst gen slot task exch epoch bytes => decide (port < 6 ∧ src < 16 ∧ dst < 16 ∧ hops < 4 ∧ inst < 2 ^ 16 ∧ gen < 2 ^ 16 ∧ slot < 256 ∧ task < 2 ^ 32 ∧ exch < 2 ^ 16 ∧ epoch < 256 ∧ bytes.length ≤ 112)
  | .markPacket port src dst hops task epoch flits => decide (port < 6 ∧ src < 16 ∧ dst < 16 ∧ hops < 4 ∧ task < 2 ^ 32 ∧ epoch < 256 ∧ flits < 2 ^ 32)
  | .markAck port src dst hops task epoch => decide (port < 6 ∧ src < 16 ∧ dst < 16 ∧ hops < 4 ∧ task < 2 ^ 32 ∧ epoch < 256)
  | .unreachable port src dst hops lost => decide (port < 6 ∧ src < 16 ∧ dst < 16 ∧ hops < 4 ∧ lost < 256)
  | .chdSearchServe w _ => decide (w < 1156)
  | .chdStepServe w _ => decide (w < 1156)
  | .chdGo _ c val => decide (c < 4 ∧ val < 2 ^ 64)
  | .chdClear _ c val => decide (c < 4 ∧ val < 2 ^ 64)
  | .chdInsert c => decide (c < 4)
  | .chdDelete c => decide (c < 4)
  | .scrubRow c _ => decide (c < 4)
  | .bankWrite _ c b val => decide (c < 4 ∧ b < 32 ∧ val < 2 ^ 64)
  | .foldRequestApply _ upset => decide (upset ≤ 2)
  | .foldLineDrain ch => decide (ch < 128)
  | .foldFinish key p => decide (key ≤ mgmtKey ∧ p < 128)
  | .foldSpareSwap st u => decide (st < 8 ∧ u < 16)
  | .foldTblCfgWrite _ t k val => decide (t < 64 ∧ k < 4 ∧ val < 2 ^ 64)
  | .ladderSort n _ => decide (n < 68)
  | .runClose w a => decide (w < 1156 ∧ a < 2 ^ 40)
  | .sortMerge w a => decide (w < 1156 ∧ a < 2 ^ 40)
  | .fmtctlSet _ n bits => decide (n < 68 ∧ bits < 2 ^ 64)
  | .fmtctlClear _ n bits => decide (n < 68 ∧ bits < 2 ^ 64)
  | .formatWindowWrite _ n j val => decide (n < 68 ∧ j < 64 ∧ val < 2 ^ 64)
  | .refWindow _ => true
  | .refLossTimeout => true
  | .ppsPulse _ _ => true
  | .ppsTimeout => true
  | .slewStep => true
  | .oscMeasure _ => true
  | .cogcfgWrite _ val => decide (val < 2 ^ 64)
  | .minuteBoundary => true
  | .tallyRecordWrite => true
  | .flitReceive p bytes _ => decide (p < 6 ∧ bytes.length = 256)
  | .replayTimeout p => decide (p < 6)
  | .controlResend p _ => decide (p < 6)
  | .swapReq p k g => decide (p < 6 ∧ k < 8 ∧ g < 2 ^ 32)
  | .swapAt p _ => decide (p < 6)
  | .laneErrorWindow p counts _ => decide (p < 6 ∧ counts.length ≤ 9)
  | .portEnable _ p _ => decide (p < 6)
  | .retrain p => decide (p < 6)
  | .trainingFrames p lanes => decide (p < 6 ∧ lanes ≤ 9)
  | .equaliseDone p good _ => decide (p < 6 ∧ good < 512)
  | .alignDone p lanes => decide (p < 6 ∧ lanes.length = 9)
  | .configAgreement p mode dev good credits _ ack => decide (credits.length = 4 ∧ p < 6 ∧ mode < 2 ∧ dev < 16 ∧ good < 512 ∧ ack < 4096)
  | .trainTimeout p => decide (p < 6)
  | .refclkLoss p => decide (p < 6)
  | .linkLost p => decide (p < 6)
  | .cpl p tag st bytes => decide (p < 6 ∧ tag < 1024 ∧ st < 4 ∧ bytes.length ≤ 4096)
  | .cplTimeout p tag => decide (p < 6 ∧ tag < 1024)
  | .publicationReissue p => decide (p < 6)
  | .hello p mode dev => decide (p < 6 ∧ mode < 2 ∧ dev < 16)
  | .echo p bytes => decide (p < 6 ∧ bytes.length ≤ 64)
  | .echoReply p bytes => decide (p < 6 ∧ bytes.length ≤ 64)
  | .refresh st u => decide (st < 8 ∧ u < 16)
  | .tempReadout st temp => decide (st < 8 ∧ temp < 256)
  | .patrolRead st fault dq => decide (st < 8 ∧ fault < 3 ∧ dq < 36)
  | .hbmRetrain st u q _ => decide (st < 8 ∧ u < 16 ∧ q < 2)
  | .frameRetire ch frame spare _ => decide (ch < 128 ∧ frame < 2 ^ 20 ∧ spare < 2 ^ 12)
  | .trnGo _ st val fails count => decide (st < 8 ∧ val < 2 ^ 64 ∧ fails < 2 ^ 36 ∧ count < 2 ^ 64)
  | .chainGo _ c val _ => decide (c < 64 ∧ val < 2 ^ 64)
  | .chainAbort _ c val => decide (c < 64 ∧ val < 2 ^ 64)
  | .chainClear _ c val => decide (c < 64 ∧ val < 2 ^ 64)
  | .chainComplete c _ => decide (c < 64)
  | .sconceRequest w _ _ upset => decide (w < 1156 ∧ upset ≤ 2)
  | .sconceFill n w _ => decide (n < 68 ∧ w < 32)
  | .sconceWriteBack n => decide (n < 68)
  | .scnClean _ n val => decide (n < 68 ∧ val < 2 ^ 64)
  | .scnInvalidate _ n val => decide (n < 68 ∧ val < 2 ^ 64)
  | .scnCleanInvalidate _ n val => decide (n < 68 ∧ val < 2 ^ 64)
  | .scnRange _ n val => decide (n < 68 ∧ val < 2 ^ 64)
  | .scnLock _ n w val => decide (n < 68 ∧ w < 8 ∧ val < 2 ^ 64)
  | .strokeEnd => true
  | .strokeCopy => true
  | .releaseStroke => true
  | .heartbeatWindow seat _ _ => decide (seat < 2)
  | .grantChange _ _ => true
  | .takeover => true
  | .releaseGap => true
  | .claimInstruction seat => decide (seat < 2)
  | .rejoin seat => decide (seat < 2)
  | .seatBootTimeout => true
  | .swxBlock upset => decide (upset ≤ 2)
  | .swxExport => true
  | .swxImport n _ => decide (n < 8)
  | .swxWaitTimeout inst ctx => decide (inst ≤ 1024 ∧ ctx < 2 ^ 16)
  | .sootMeasure _ => true
  | .autoRepair cls unit detail _ _ _ _ => decide (cls < 16 ∧ unit < 2 ^ 16 ∧ detail < 2 ^ 32)
  | .calSave _ => true
  | .otpProgGo _ val _ => decide (val < 2 ^ 64)
  | .snuffPin _ => true
  | .releaseWick _ => true
  | .kill _ => true
  | .rcpvalidGo _ val => decide (val < 2 ^ 64)
  | .crkRejoinWrite _ val => decide (val < 2 ^ 64)
  | .pwrgoodLow => true
  | .pwrgoodHigh straps => decide (straps < 2 ^ 7)
  | .resetNLow => true
  | .resetNHigh => true
  | .thermTrip => true
  | .vidMove => true
  | .fusesStage => true
  | .sramTestStage banks => banks.all fun b => decide (b < 128)
  | .fetchStage => true
  | .fetchTimeout => true
  | .verifyStage seat => decide (seat < 2)
  | .lamplighterStage fails => decide (fails ≤ epochPositions)
  | .hbmStage rates _ _ _ => decide (rates.length = 8)
  | .servicesStage bases => decide (bases.length = 4)
  | .linksStage => true
  | .bootGo _ => true
  | .smbCsrRead off _ => decide (off < 2 ^ 32)
  | .smbCsrWrite off val _ => decide (off < 2 ^ 32 ∧ val < 2 ^ 64)
  | .smbCommand _ _ => true
  | .smbStatusRead _ => true
  | .smbFreeze byte _ => decide (byte < 256)
  | .extest _ => true
  | .samplePreload _ => true
  | .idcode => true
  | .memAcc _ addr data => decide (addr < 2 ^ 40 ∧ data < 2 ^ 64)
  | .testAcc _ addr data => decide (addr < 2 ^ 40 ∧ data < 2 ^ 64)
  | .snuff => true
  | .resume => true
  | .bypass ir => decide (ir < 256)
  | .scrubVisitEnd c => decide (c < 4)
  | .dieSensorConversion n _ => decide (n < 64)
  | .voltageMonitorReading v raw => decide (v < 16 ∧ raw < 2 ^ 16)
  | .smbAlertResponse => true
  | .ackReport p => decide (p < 6)
  | .memHeldSample => true

end Sys2Proof
end

