-- ==== Sys2Proof/Tests/Slice0.lean ====
section
/-! SUPPORT. Tests of the model: one ill-formed term for each check of `WellFormed`, one state that meets the hypotheses
of each clause of each statement, and small tests of single steps. -/
namespace Sys2Proof.Tests

set_option Elab.async false

open Sys2Proof.Machine Sys2Proof.Safety

/-! ### Words -/

/-- A running wick, its kernel of `ws` at the start of the code store of lantern 0. -/
def onWick (ws : List Nat) (k : Wick) : State :=
  { mem := cellsWrite [] (codeKey 0 0) (ws.flatMap fun w => le w 8),
    wicks := [(0, { k with st := 1, codeLen := 8 * ws.length, waxSlots := 64, budget := 100 })] }

/-- A long word (R181), in the first width its entry permits. -/
def long (op d s1 s2 : Nat) : Nat :=
  op * 2 ^ 53 + (match opRow op with | some r => r.widths.headD 0 | none => 0) * 2 ^ 51 + d * 2 ^ 34 + s1 * 2 ^ 17 + s2

/-- An operand of a class: a wax slot (mode 0), register 1, or an immediate or displacement. -/
def opd (c : Cls) (slot imm : Nat) : Nat :=
  match c with
  | .none => 0
  | .v | .x | .d | .dr | .xi => slot
  | .rg => 1
  | .i => 6 * 2 ^ 14 + imm
  | .t => imm
  | .p => 5 * 2 ^ 14 + imm

/-- The word of an opcode with `DST` slot 1, `SRC1` slot 2 and `SRC2` slot 3 where its classes have them. -/
def plain (op imm : Nat) : Nat :=
  match opRow op with
  | some r => long op (opd r.d 1 imm) (opd r.s1 2 imm) (opd r.s2 3 imm)
  | none => 0

/-- Two words, the first of them the one asked for, the second a no-operation. -/
def run1 (op imm : Nat) (k : Wick) : State := onWick [plain op imm, 0] k

/-- The operation that stands at the `PC`. -/
def front (s : State) : Half :=
  match decodeWord (env s 0) (s.codeWord 0 (s.wick 0).pc) with
  | .ok (h :: _) => h
  | _ => { op := 0, wc := 0, row := rowC [] .none .none .none }

/-- `Issues`, as a computation. -/
def issues (s : State) (pos : Nat) (hs : List Half) : Bool :=
  s.live && (s.wick pos).st == 1 && !(s.wick pos).stalled && decide ((s.wick pos).cycles < (s.wick pos).budget) &&
  (match decodeWord (env s pos) (s.codeWord (pos / 17) (s.wick pos).pc) with | .ok l => l == hs | .error _ => false) &&
  (takesOf hs).all (fun t => decide (t.2 < ((s.wick pos).port t.1).filled)) &&
  !(s.wick pos).interlocked
    (hs.flatMap Half.waxEas ++ (takesOf hs).map fun t => ((s.wick pos).port t.1).slotEa t.2) &&
  (s.wick pos).loads.all fun l => !l.arrived

theorem issues_true {s : State} {pos : Nat} {hs : List Half} (h : issues s pos hs = true) : Issues s pos hs := by
  simp only [issues, Bool.and_eq_true, List.all_eq_true, decide_eq_true_eq, beq_iff_eq, Bool.not_eq_true'] at h
  obtain ⟨⟨⟨⟨⟨⟨⟨h1, h2⟩, h3⟩, h4⟩, h5⟩, h6⟩, h7⟩, h8⟩ := h
  refine ⟨h1, h2, h3, h4, ?_, h6, h7, h8⟩
  split at h5
  · rename_i l e; rw [e, eq_of_beq h5]
  · cases h5

/-- What every word statement asks of a word whose `DST` is the wax slot at `ea`: a running wick that issues it, a word
that follows it, a memory in canonical form. -/
def ready (s : State) (h : Half) (op ea : Nat) : Bool :=
  issues s 0 [h] && decide ((s.wick 0).repKind = 0 ∧ (s.wick 0).codeBase ≤ (s.wick 0).pc + 8 ∧
    (s.wick 0).pc + 8 < (s.wick 0).codeBase + (s.wick 0).codeLen) && Memory.wf s.mem && h.op == op && h.d.loc == .wax ea

theorem ready_true {s : State} {h : Half} {op ea : Nat} (e : ready s h op ea = true) :
    Issues s 0 [h] ∧ Follows (s.wick 0) ∧ Memory.wf s.mem = true ∧ h.op = op ∧ h.d.loc = .wax ea := by
  simp only [ready, Bool.and_eq_true, beq_iff_eq, decide_eq_true_eq] at e
  obtain ⟨⟨⟨⟨h1, h2⟩, h3⟩, h4⟩, h5⟩ := e
  exact ⟨issues_true h1, .inr ⟨.inl h2.1, h2.2⟩, h3, h4, h5⟩

/-- Such a wick for an opcode. -/
def oneWord (op : Nat) : State := run1 op 0 {}

theorem wit_LaneWords_1 : ∀ r ∈ intRows ++ maskRows, ∃ s h ea, Issues s 0 [h] ∧ Follows (s.wick 0) ∧
    Memory.wf s.mem = true ∧ h.op = r.op ∧ h.d.loc = .wax ea := fun r m =>
  ⟨oneWord r.op, front (oneWord r.op), 32, ready_true ((by decide +kernel :
    ∀ r ∈ intRows ++ maskRows, ready (oneWord r.op) (front (oneWord r.op)) r.op 32 = true) r m)⟩

/-- A division by the immediate 7, or by 0. -/
def divides (op by_ : Nat) : State := onWick [long op 1 2 (6 * 2 ^ 14 + by_), 0] {}

theorem wit_LaneWords_2 : ∀ r ∈ divRows, ∃ s h ea, (Issues s 0 [h] ∧ Follows (s.wick 0) ∧ Memory.wf s.mem = true ∧
    h.op = r.op ∧ h.d.loc = .wax ea) ∧ ∀ i, i < 256 / h.w → lane h.w (srcB s 0 h) i ≠ 0#h.w := fun r m =>
  ⟨divides r.op 7, front (divides r.op 7), 32,
    ready_true ((by decide +kernel :
      ∀ r ∈ divRows, ready (divides r.op 7) (front (divides r.op 7)) r.op 32 = true) r m),
    (by decide +kernel : ∀ r ∈ divRows, ∀ i, i < 256 / (front (divides r.op 7)).w →
      lane (front (divides r.op 7)).w (srcB (divides r.op 7) 0 (front (divides r.op 7))) i ≠ 0) r m⟩

theorem wit_LaneWords_3 : ∀ r ∈ divRows, ∃ s h i, Issues s 0 [h] ∧ h.op = r.op ∧ i < 256 / h.w ∧
    lane h.w (srcB s 0 h) i = 0#h.w := fun r m =>
  ⟨divides r.op 0, front (divides r.op 0), 0, (ready_true ((by decide +kernel :
      ∀ r ∈ divRows, ready (divides r.op 0) (front (divides r.op 0)) r.op 32 = true) r m)).1,
    (by decide +kernel : ∀ r ∈ divRows, (front (divides r.op 0)).op = r.op ∧ 0 < 256 / (front (divides r.op 0)).w ∧
      lane (front (divides r.op 0)).w (srcB (divides r.op 0) 0 (front (divides r.op 0))) 0 = 0) r m⟩

theorem wit_LaneWords_4 : ∀ r ∈ wideRows, ∃ s h ea, Issues s 0 [h] ∧ Follows (s.wick 0) ∧
    Memory.wf s.mem = true ∧ h.op = r.1.op ∧ h.d.loc = .wax ea := fun r m =>
  ⟨oneWord r.1.op, front (oneWord r.1.op), 32, ready_true ((by decide +kernel :
    ∀ r ∈ wideRows, ready (oneWord r.1.op) (front (oneWord r.1.op)) r.1.op 32 = true) r m)⟩

theorem wit_WordFloat_1 : ∀ r ∈ floatRows, ∃ s h ea, Issues s 0 [h] ∧ Follows (s.wick 0) ∧
    Memory.wf s.mem = true ∧ h.op = r.op ∧ h.d.loc = .wax ea := fun r m =>
  ⟨oneWord r.op, front (oneWord r.op), 32, ready_true ((by decide +kernel :
    ∀ r ∈ floatRows, ready (oneWord r.op) (front (oneWord r.op)) r.op 32 = true) r m)⟩

theorem wit_WordFloat_2_WordShuffle : ∀ op ∈ [0x06F, 0x070, 0x02D, 0x02E, 0x02F, 0x080, 0x081, 0x082, 0x083, 0x084,
    0x085, 0x086, 0x092, 0x093, 0x094], ∃ s h ea, Issues s 0 [h] ∧ Follows (s.wick 0) ∧ Memory.wf s.mem = true ∧
    h.op = op ∧ h.d.loc = .wax ea := fun op m =>
  ⟨oneWord op, front (oneWord op), 32, ready_true ((by decide +kernel :
    ∀ op ∈ [0x06F, 0x070, 0x02D, 0x02E, 0x02F, 0x080, 0x081, 0x082, 0x083, 0x084, 0x085, 0x086, 0x092, 0x093, 0x094],
      ready (oneWord op) (front (oneWord op)) op 32 = true) op m)⟩

/-- `ready` without a wax destination. -/
def goes (s : State) (h : Half) (op : Nat) : Bool :=
  issues s 0 [h] && decide ((s.wick 0).repKind = 0 ∧ (s.wick 0).codeBase ≤ (s.wick 0).pc + 8 ∧
    (s.wick 0).pc + 8 < (s.wick 0).codeBase + (s.wick 0).codeLen) && Memory.wf s.mem && h.op == op

theorem goes_true {s : State} {h : Half} {op : Nat} (e : goes s h op = true) :
    Issues s 0 [h] ∧ Follows (s.wick 0) ∧ Memory.wf s.mem = true ∧ h.op = op := by
  simp only [goes, Bool.and_eq_true, beq_iff_eq, decide_eq_true_eq] at e
  obtain ⟨⟨⟨h1, h2⟩, h3⟩, h4⟩ := e
  exact ⟨issues_true h1, .inr ⟨.inl h2.1, h2.2⟩, h3, h4⟩

theorem wit_WordRegisters_1 : ∃ s h ea r, (Issues s 0 [h] ∧ Follows (s.wick 0) ∧ Memory.wf s.mem = true ∧
    h.op = 0x0C2 ∧ h.d.loc = .wax ea) ∧ h.s2.loc = .reg r :=
  ⟨oneWord 0x0C2, front (oneWord 0x0C2), 32, 1, ready_true (by decide +kernel), by decide +kernel⟩

theorem wit_WordRegisters_2 : ∀ op ∈ [0x0C3, 0x0C5], ∃ s h ea, Issues s 0 [h] ∧ Follows (s.wick 0) ∧
    Memory.wf s.mem = true ∧ h.op = op ∧ h.d.loc = .wax ea := fun op m =>
  ⟨oneWord op, front (oneWord op), 32, ready_true ((by decide +kernel :
    ∀ op ∈ [0x0C3, 0x0C5], ready (oneWord op) (front (oneWord op)) op 32 = true) op m)⟩

theorem wit_WordRegisters_3 : ∀ op ∈ [0x0C0, 0x0C1, 0x0C4, 0x000], ∃ s h, Issues s 0 [h] ∧ Follows (s.wick 0) ∧
    Memory.wf s.mem = true ∧ h.op = op := fun op m =>
  ⟨oneWord op, front (oneWord op), goes_true ((by decide +kernel :
    ∀ op ∈ [0x0C0, 0x0C1, 0x0C4, 0x000], goes (oneWord op) (front (oneWord op)) op = true) op m)⟩

/-! A branch to the next word (taken where the wax slot holds a lane that is not 0, register 1 holds `v`), and one that
leaves the code. -/

/-- A branch by `disp` words; slot 2 holds the lane `x` in its first bytes and 0 beyond, register 1 holds `v`. -/
def branching (op disp x v : Nat) : State :=
  let k : Wick := { a := (List.replicate 16 0).set 1 v }
  (run1 op disp k).poke (waxKey 0 64) (le x 32)

/-- Lane values and register values under which each branch is taken, and those under which it is not. -/
def takes (op : Nat) : Nat × Nat :=
  if op = 0x0E2 then (2 ^ 256 - 1, 0) else if op = 0x0E3 then (0, 0) else if op = 0x0E6 then (0, 0) else (1, 2)
def skips (op : Nat) : Nat × Nat :=
  if op = 0x0E3 then (1, 0) else if op = 0x0E4 then (2 ^ 256 - 1, 0) else if op = 0x0E6 then (0, 1)
  else if op = 0x0E5 then (0, 1) else (0, 0)

theorem wit_WordBranches_1 : ∀ r ∈ branchRows, ∃ s h p, (Issues s 0 [h] ∧ Follows (s.wick 0) ∧ Memory.wf s.mem = true ∧
    h.op = r.op) ∧ r.taken h.w (srcA s 0 h) (areg (s.wick 0).a (regOf h)) = true ∧
    target (s.wick 0) h = ((p : Nat) : Int) ∧ InCode (s.wick 0) p := fun r m =>
  let s (r : BranchRow) := branching r.op 1 (takes r.op).1 (takes r.op).2
  ⟨s r, front (s r), 8, goes_true ((by decide +kernel : ∀ r ∈ branchRows, goes (s r) (front (s r)) r.op = true) r m),
    (by decide +kernel : ∀ r ∈ branchRows, r.taken (front (s r)).w (srcA (s r) 0 (front (s r)))
      (areg ((s r).wick 0).a (regOf (front (s r)))) = true) r m,
    (by decide +kernel : ∀ r ∈ branchRows, target ((s r).wick 0) (front (s r)) = ((8 : Nat) : Int)) r m,
    by show (0 : Nat) ≤ 8 ∧ 8 < 16 ∧ 8 % 8 = 0; decide⟩

theorem wit_WordBranches_2 : ∀ r ∈ branchRows, r.op ≠ 0x0E0 → ∃ s h, (Issues s 0 [h] ∧ Follows (s.wick 0) ∧
    Memory.wf s.mem = true ∧ h.op = r.op) ∧ r.taken h.w (srcA s 0 h) (areg (s.wick 0).a (regOf h)) = false :=
  fun r m n =>
  let s (r : BranchRow) := branching r.op 1 (skips r.op).1 (skips r.op).2
  ⟨s r, front (s r), goes_true ((by decide +kernel : ∀ r ∈ branchRows, goes (s r) (front (s r)) r.op = true) r m),
    (by decide +kernel : ∀ r ∈ branchRows, r.op ≠ 0x0E0 → r.taken (front (s r)).w (srcA (s r) 0 (front (s r)))
      (areg ((s r).wick 0).a (regOf (front (s r)))) = false) r m n⟩

theorem wit_WordBranches_3 : ∀ r ∈ branchRows, ∃ s h, (Issues s 0 [h] ∧ Follows (s.wick 0) ∧ Memory.wf s.mem = true ∧
    h.op = r.op) ∧ r.taken h.w (srcA s 0 h) (areg (s.wick 0).a (regOf h)) = true ∧
    ∀ p : Nat, target (s.wick 0) h = (p : Int) → ¬InCode (s.wick 0) p := fun r m =>
  let s (r : BranchRow) := branching r.op 2 (takes r.op).1 (takes r.op).2
  ⟨s r, front (s r), goes_true ((by decide +kernel : ∀ r ∈ branchRows, goes (s r) (front (s r)) r.op = true) r m),
    (by decide +kernel : ∀ r ∈ branchRows, r.taken (front (s r)).w (srcA (s r) 0 (front (s r)))
      (areg ((s r).wick 0).a (regOf (front (s r)))) = true) r m,
    fun p e c => by
      have e' := (by decide +kernel : ∀ r ∈ branchRows, target ((s r).wick 0) (front (s r)) = ((16 : Nat) : Int)) r m
      rw [e'] at e
      have : p = 16 := by omega
      subst this
      exact absurd c.2.1 ((by decide +kernel : ∀ r ∈ branchRows,
        ¬16 < ((s r).wick 0).codeBase + ((s r).wick 0).codeLen) r m)⟩

/-- `CALL` to the next word, `RET` to it. -/
def calls : State := branching 0x0E8 1 0 0
def returns (lr : Nat) : State := run1 0x0E9 0 { lr := lr, ctx := 0 }

theorem wit_WordBranches_4 : ∃ s h p, (Issues s 0 [h] ∧ Follows (s.wick 0) ∧ Memory.wf s.mem = true ∧ h.op = 0x0E8) ∧
    target (s.wick 0) h = ((p : Nat) : Int) ∧ InCode (s.wick 0) p :=
  ⟨calls, front calls, 8, goes_true (by decide +kernel), by decide +kernel,
    by show (0 : Nat) ≤ 8 ∧ 8 < 16 ∧ 8 % 8 = 0; decide⟩

theorem wit_WordBranches_5 : ∃ s h, (Issues s 0 [h] ∧ Follows (s.wick 0) ∧ Memory.wf s.mem = true ∧ h.op = 0x0E9) ∧
    (s.wick 0).lr ≠ 0x3FFFF ∧ InCode (s.wick 0) (s.wick 0).lr :=
  ⟨returns 8, front (returns 8), goes_true (by decide +kernel), by decide +kernel,
    by show (0 : Nat) ≤ 8 ∧ 8 < 16 ∧ 8 % 8 = 0; decide⟩

/-! Words that end a task or repeat. -/

/-- The wick's task, in context 0. -/
def withTask (s : State) : State := { s with ctxs := [(0, { st := .running })] }

theorem wit_WordEnds_1 : ∀ op ∈ [0x0EB, 0x0E9], ∃ s h c, (Issues s 0 [h] ∧ Follows (s.wick 0) ∧
    Memory.wf s.mem = true ∧ h.op = op) ∧ Tab.get s.ctxs (s.wick 0).ctx = some c ∧ partialRow s (s.wick 0) = false ∧
    (∀ p ∈ (s.wick 0).ports, p.pack = []) ∧ ((s.wick 0).ladder.getD {}).mode ≠ 2 ∧
    ((s.wick 0).ladder.getD {}).mode ≠ 3 ∧ (op = 0x0E9 → (s.wick 0).lr = 0x3FFFF) := fun op m =>
  let s (op : Nat) := withTask (run1 op 0 { lr := 0x3FFFF })
  ⟨s op, front (s op), { st := .running },
    goes_true ((by decide +kernel : ∀ op ∈ [0x0EB, 0x0E9], goes (s op) (front (s op)) op = true) op m),
    (by decide +kernel : ∀ op ∈ [0x0EB, 0x0E9], Tab.get (s op).ctxs ((s op).wick 0).ctx = some { st := .running } ∧
      partialRow (s op) ((s op).wick 0) = false ∧ (∀ p ∈ ((s op).wick 0).ports, p.pack = []) ∧
      (((s op).wick 0).ladder.getD {}).mode ≠ 2 ∧ (((s op).wick 0).ladder.getD {}).mode ≠ 3 ∧
      (op = 0x0E9 → ((s op).wick 0).lr = 0x3FFFF)) op m⟩

theorem wit_WordEnds_2 : ∃ s h c, (Issues s 0 [h] ∧ Follows (s.wick 0) ∧ Memory.wf s.mem = true ∧ h.op = 0x0EC) ∧
    Tab.get s.ctxs (s.wick 0).ctx = some c :=
  let s := withTask (run1 0x0EC 0x405 {})
  ⟨s, front s, { st := .running }, goes_true (by decide +kernel), by decide +kernel⟩

theorem wit_WordEnds_3 : ∀ v ∈ [0, 1], ∃ s h, (Issues s 0 [h] ∧ Follows (s.wick 0) ∧ Memory.wf s.mem = true ∧
    h.op = 0x0ED) ∧ (s.fld (R.LAN_MON_CTL 0) F.LAN_MON_CTL_BREAK_HOLD).testBit 0 = (v != 0) := fun v m =>
  let s (v : Nat) := (withTask (run1 0x0ED 0 {})).setFld (R.LAN_MON_CTL 0) F.LAN_MON_CTL_BREAK_HOLD v
  ⟨s v, front (s v), goes_true ((by decide +kernel : ∀ v ∈ [0, 1], goes (s v) (front (s v)) 0x0ED = true) v m),
    (by decide +kernel : ∀ v ∈ [0, 1],
      ((s v).fld (R.LAN_MON_CTL 0) F.LAN_MON_CTL_BREAK_HOLD).testBit 0 = (v != 0)) v m⟩

theorem wit_WordEnds_4 : ∀ op ∈ [0x0EA, 0x0F0, 0x0F1], ∃ s h, (Issues s 0 [h] ∧ Follows (s.wick 0) ∧
    Memory.wf s.mem = true ∧ h.op = op) ∧ (s.wick 0).repKind = 0 ∧ noRepeat (s.codeWord 0 ((s.wick 0).pc + 8)) = false ∧
    InCode (s.wick 0) ((s.wick 0).pc + 8) := fun op m =>
  let s (op : Nat) := run1 op 5 {}
  ⟨s op, front (s op), goes_true ((by decide +kernel :
      ∀ op ∈ [0x0EA, 0x0F0, 0x0F1], goes (s op) (front (s op)) op = true) op m),
    (by decide +kernel : ∀ op ∈ [0x0EA, 0x0F0, 0x0F1], ((s op).wick 0).repKind = 0 ∧
      noRepeat ((s op).codeWord 0 (((s op).wick 0).pc + 8)) = false) op m |>.1,
    (by decide +kernel : ∀ op ∈ [0x0EA, 0x0F0, 0x0F1], ((s op).wick 0).repKind = 0 ∧
      noRepeat ((s op).codeWord 0 (((s op).wick 0).pc + 8)) = false) op m |>.2,
    by show (0 : Nat) ≤ 0 + 8 ∧ 0 + 8 < 16 ∧ (0 + 8) % 8 = 0; decide⟩

/-- `REPI` by the immediate 1 and by the 65,536 of a wax slot: the ends of its range. -/
theorem wit_WordEnds_5 : (∃ s h, (Issues s 0 [h] ∧ Follows (s.wick 0) ∧ Memory.wf s.mem = true ∧ h.op = 0x0F1) ∧
      h.s2.loc = .imm 1) ∧
    (∃ s h ea, (Issues s 0 [h] ∧ Follows (s.wick 0) ∧ Memory.wf s.mem = true ∧ h.op = 0x0F1) ∧ h.s2.loc = .wax ea ∧
      (lane 32 (srcB s 0 h) 0).toNat = 65536) :=
  let i := onWick [long 0x0F1 0 0 (6 * 2 ^ 14 + 1), 0] {}
  let w := (run1 0x0F1 0 {}).poke (waxKey 0 96) (le 65536 32)
  ⟨⟨i, front i, goes_true (by decide +kernel), by decide +kernel⟩,
    ⟨w, front w, 96, goes_true (by decide +kernel), by decide +kernel⟩⟩

/-! Far words, through window 0: 64 bytes of the lantern store that may be written, or of HBM that may be read. -/

/-- A wick with a far window, `op` with the offset of slot 2 and the window (and code) `imm`. -/
def far (op kind imm x : Nat) : State :=
  (run1 op imm { wins := [(kind, 0x100000, 64)] }).poke (waxKey 0 64) (le x 32)

theorem wit_WordFar_1 : ∃ s h ea, (Issues s 0 [h] ∧ Follows (s.wick 0) ∧ Memory.wf s.mem = true ∧ h.op = 0x0A0 ∧
    h.d.loc = .wax ea) ∧ Inside (window (s.wick 0) h) false 32 (lane 64 (srcA s 0 h) 0).toNat :=
  let s := far 0x0A0 2 0 32
  ⟨s, front s, 32, ready_true (by decide +kernel), by unfold Inside; decide +kernel⟩

theorem wit_WordFar_2 : ∃ s h ea, (Issues s 0 [h] ∧ Follows (s.wick 0) ∧ Memory.wf s.mem = true ∧ h.op = 0x0A1 ∧
    h.d.loc = .wax ea) ∧ ∀ i ∈ List.range (256 / h.w),
      Inside (window (s.wick 0) h) false (h.w / 8) (lane h.w (srcA s 0 h) i).toNat :=
  let s := far 0x0A1 2 0 60
  ⟨s, front s, 32, ready_true (by decide +kernel), by unfold Inside; decide +kernel⟩

theorem wit_WordFar_3 : ∃ s h, (Issues s 0 [h] ∧ Follows (s.wick 0) ∧ Memory.wf s.mem = true ∧ h.op = 0x0A2) ∧
    Inside (window (s.wick 0) h) true 32 (lane 64 (srcA s 0 h) 0).toNat ∧ ∃ ea, h.d.loc = .wax ea :=
  let s := far 0x0A2 1 0 32
  ⟨s, front s, goes_true (by decide +kernel), by unfold Inside; decide +kernel, 32, by decide +kernel⟩

/-- An `SFOLD` of eight lanes, whose offsets 4i stand in slot 1. -/
def sfolds : State :=
  (run1 0x0A3 0 { wins := [(1, 0x100000, 64)] }).poke (waxKey 0 32) ((List.range 8).flatMap fun i => le (4 * i) 4)

theorem wit_WordFar_4 : ∃ s h ea, (Issues s 0 [h] ∧ Follows (s.wick 0) ∧ Memory.wf s.mem = true ∧ h.op = 0x0A3 ∧
    h.d.loc = .wax ea) ∧
    (∀ i ∈ List.range (256 / h.w), Inside (window (s.wick 0) h) true (h.w / 8) (lane h.w (slotAt s 0 ea) i).toNat) ∧
    (∀ i ∈ List.range (256 / h.w), ∀ j ∈ List.range (256 / h.w), i ≠ j →
      farKey 0 (window (s.wick 0) h) (lane h.w (slotAt s 0 ea) i).toNat
        ≠ farKey 0 (window (s.wick 0) h) (lane h.w (slotAt s 0 ea) j).toNat) :=
  ⟨sfolds, front sfolds, 32, ready_true (by decide +kernel), by unfold Inside; decide +kernel, by decide +kernel⟩

/-- An `LDX` and an `STX` past the end of the window. -/
theorem wit_WordFar_5 : ∀ op ∈ [0x0A0, 0x0A2], ∃ s h, (Issues s 0 [h] ∧ Follows (s.wick 0) ∧
    Memory.wf s.mem = true ∧ h.op = op) ∧
    ¬Inside (window (s.wick 0) h) (op == 0x0A2) 32 (lane 64 (srcA s 0 h) 0).toNat := fun op m =>
  let s (op : Nat) := far op 1 0 64
  ⟨s op, front (s op), goes_true ((by decide +kernel :
      ∀ op ∈ [0x0A0, 0x0A2], goes (s op) (front (s op)) op = true) op m),
    (by unfold Inside; decide +kernel : ∀ op ∈ [0x0A0, 0x0A2], ¬Inside (window ((s op).wick 0) (front (s op)))
      (op == 0x0A2) 32 (lane 64 (srcA (s op) 0 (front (s op))) 0).toNat) op m⟩

/-! Ports and the sort ladder. -/

/-- A wick with one bound port, `op` naming it as its destination; slot 3 (the mask or the second source) holds `b`. -/
def onPort (op : Nat) (p : Port) (b : Nat) : State :=
  (run1 op p.num { ports := [p], chds := [0] }).poke (waxKey 0 96) (le b 32)

/-- `EMIT` into an empty pack buffer, and into one with 28 bytes (8 lanes of 1 byte follow); `EFLUSH` of 28 bytes. -/
def emits (packed lanes : Nat) : State :=
  onPort 0x0B0 { num := 0x020, base := 10, len := 2, pack := zeros packed } (2 ^ (8 * lanes) - 1)

theorem wit_WordPorts_1 : ∃ s h p, (Issues s 0 [h] ∧ Follows (s.wick 0) ∧ Memory.wf s.mem = true ∧ h.op = 0x0B0) ∧
    p ∈ (s.wick 0).ports ∧ 0x020 ≤ p.num ∧ p.num ≤ 0x02F ∧ (s.wick 0).port p.num = p ∧ h.d.loc = .port p.num ∧
    p.pack.length + (((List.range (256 / h.w)).filter fun i => lane h.w (srcB s 0 h) i != 0#h.w).flatMap
      fun i => le (lane h.w (srcA s 0 h) i).toNat (h.w / 8)).length = 31 :=
  ⟨emits 23 8, front (emits 23 8), { num := 0x020, base := 10, len := 2, pack := zeros 23 },
    goes_true (by decide +kernel), by decide +kernel⟩

theorem wit_WordPorts_2 : ∃ s h p, (Issues s 0 [h] ∧ Follows (s.wick 0) ∧ Memory.wf s.mem = true ∧ h.op = 0x0B0) ∧
    p ∈ (s.wick 0).ports ∧ 0x020 ≤ p.num ∧ p.num ≤ 0x02F ∧ (s.wick 0).port p.num = p ∧ h.d.loc = .port p.num ∧
    p.filled < p.len ∧
    p.pack.length + (((List.range (256 / h.w)).filter fun i => lane h.w (srcB s 0 h) i != 0#h.w).flatMap
      fun i => le (lane h.w (srcA s 0 h) i).toNat (h.w / 8)).length = 32 :=
  ⟨emits 24 8, front (emits 24 8), { num := 0x020, base := 10, len := 2, pack := zeros 24 },
    goes_true (by decide +kernel), by decide +kernel⟩

theorem wit_WordPorts_3 : ∃ s h p, (Issues s 0 [h] ∧ Follows (s.wick 0) ∧ Memory.wf s.mem = true ∧ h.op = 0x0B1) ∧
    p ∈ (s.wick 0).ports ∧ 0x020 ≤ p.num ∧ p.num ≤ 0x02F ∧ (s.wick 0).port p.num = p ∧ h.d.loc = .port p.num ∧
    p.pack ≠ [] ∧ p.pack.length ≤ 32 ∧ p.filled < p.len :=
  let p : Port := { num := 0x02F, base := 10, len := 2, pack := zeros 28 }
  ⟨onPort 0x0B1 p 0, front (onPort 0x0B1 p 0), p, goes_true (by decide +kernel), by decide +kernel⟩

theorem wit_WordPorts_4 : ∀ e ∈ [(0x0B2, 2), (0x0B3, 1)], ∃ s h p, (Issues s 0 [h] ∧ Follows (s.wick 0) ∧
    Memory.wf s.mem = true ∧ h.op = e.1) ∧ p ∈ (s.wick 0).ports ∧ p.num = 0x040 ∧ (s.wick 0).port 0x040 = p ∧
    h.d.loc = .port 0x040 ∧ bitsOf (srcB s 0 h) 64 8 < (s.wick 0).chds.length ∧ p.filled + e.2 = p.len := fun e m =>
  let q (n : Nat) : Port := { num := 0x040, base := 10, len := 3, filled := 3 - n }
  let s (e : Nat × Nat) := onPort e.1 (q e.2) 0
  ⟨s e, front (s e), q e.2, goes_true ((by decide +kernel :
      ∀ e ∈ [(0x0B2, 2), (0x0B3, 1)], goes (s e) (front (s e)) e.1 = true) e m),
    (by decide +kernel : ∀ e ∈ [(0x0B2, 2), (0x0B3, 1)], q e.2 ∈ ((s e).wick 0).ports ∧ (q e.2).num = 0x040 ∧
      ((s e).wick 0).port 0x040 = q e.2 ∧ (front (s e)).d.loc = .port 0x040 ∧
      bitsOf (srcB (s e) 0 (front (s e))) 64 8 < ((s e).wick 0).chds.length ∧ (q e.2).filled + e.2 = (q e.2).len) e m⟩

theorem wit_WordPorts_5 : ∃ s h, (Issues s 0 [h] ∧ Follows (s.wick 0) ∧ Memory.wf s.mem = true ∧ h.op = 0x0B4) ∧
    s.bit (R.LAN_SL_CTL 0) F.LAN_SL_CTL_EN = true ∧ (s.wick 0).closing = false ∧ (s.wick 0).openRun.length < 256 ∧
    (s.wick 0).openRun = [] ∧ (s.wick 0).sealed.length < 2 :=
  let s := (run1 0x0B4 0 { ladder := some {} }).setFld (R.LAN_SL_CTL 0) F.LAN_SL_CTL_EN 1
  ⟨s, front s, goes_true (by decide +kernel), by decide +kernel⟩

theorem wit_WordPorts_6 : ∀ l ∈ [[5], []], ∃ s h, (Issues s 0 [h] ∧ Follows (s.wick 0) ∧ Memory.wf s.mem = true ∧
    h.op = 0x0B5) ∧ (s.wick 0).openRun = l := fun l m =>
  let s (l : List Nat) := run1 0x0B5 0 { ladder := some {}, openRun := l }
  ⟨s l, front (s l), goes_true ((by decide +kernel :
    ∀ l ∈ [[5], []], goes (s l) (front (s l)) 0x0B5 = true) l m), rfl⟩

theorem wit_WordPorts_7 : ∀ i ∈ [0, 1], ∃ s h ea run rest, (Issues s 0 [h] ∧ Follows (s.wick 0) ∧
    Memory.wf s.mem = true ∧ h.op = 0x0B6 ∧ h.d.loc = .wax ea) ∧ ((s.wick 0).ladder.getD {}).mode ≠ 2 ∧
    ((s.wick 0).ladder.getD {}).mode ≠ 3 ∧ (s.wick 0).sealed = run :: rest ∧ run.sorted = true ∧
    h.s2.immediate = ((i : Nat) : Int) ∧ 1 < run.recs.length := fun i m =>
  let run : Sealed := { sorted := true, recs := [1, 2] }
  let s (i : Nat) := run1 0x0B6 i { ladder := some {}, sealed := [run] }
  ⟨s i, front (s i), 32, run, [], ready_true ((by decide +kernel :
      ∀ i ∈ [0, 1], ready (s i) (front (s i)) 0x0B6 32 = true) i m),
    by show 0 ≠ 2; decide, by show 0 ≠ 3; decide, rfl, rfl,
    (by decide +kernel : ∀ i ∈ [0, 1], (front (s i)).s2.immediate = ((i : Nat) : Int)) i m, by decide⟩

/-- R182: a paired word of a code for each half. -/
def pair (opA dsA opB dsB s2 : Nat) : Nat :=
  2 ^ 63 + (opA * 2 ^ 24 + 3 * 2 ^ 22 + dsA * 2 ^ 11 + s2) * 2 ^ 32 + (opB * 2 ^ 24 + 3 * 2 ^ 22 + dsB * 2 ^ 11 + s2) * 2

/-- Both halves of a paired word, `ADD` and `SUB` here, for either of which the word may be commanded; both at slot 1,
and at slots 1 and 2. -/
theorem wit_WordPair : ∀ e ∈ [1, 2], ∃ s x y va vb fa fb ea, Issues s 0 [x, y] ∧ Follows (s.wick 0) ∧
    Memory.wf s.mem = true ∧ x.op = 0x010 ∧ y.op = 0x011 ∧ x.d.loc = .wax 32 ∧ y.d.loc = .wax ea ∧ ea = 32 * e ∧
    vecOp x.op x.w (s.source 0 x.w x.s1 0) (s.source 0 x.w x.s2 (seenIn x.s2 [x.s1])) (slotAt s 0 32) = some (va, fa) ∧
    vecOp y.op y.w (s.source 0 y.w y.s1 (seenIn y.s1 [x.s1, x.s2]))
      (s.source 0 y.w y.s2 (seenIn y.s2 [x.s1, x.s2, y.s1])) (slotAt s 0 ea) = some (vb, fb) ∧
    divByZero x.op x.w (s.source 0 x.w x.s2 (seenIn x.s2 [x.s1])) = false ∧
    divByZero y.op y.w (s.source 0 y.w y.s2 (seenIn y.s2 [x.s1, x.s2, y.s1])) = false := fun e m =>
  let s (e : Nat) : State := (onWick [pair 0x010 1 0x011 e 3, 0] {}).poke (waxKey 0 96) (le 5 32)
  let both (e : Nat) : Half × Half := match decodeWord (env (s e) 0) ((s e).codeWord 0 0) with
    | .ok [x, y] => (x, y) | _ => (front (s e), front (s e))
  let x (e : Nat) := (both e).1
  let y (e : Nat) := (both e).2
  let a (e : Nat) := (vecOp 0x010 64 ((s e).source 0 64 (x e).s1 0) ((s e).source 0 64 (x e).s2 0) 0).getD (0, 0)
  let b (e : Nat) := (vecOp 0x011 64 ((s e).source 0 64 (y e).s1 0) ((s e).source 0 64 (y e).s2 0) 0).getD (0, 0)
  ⟨s e, x e, y e, (a e).1, (b e).1, (a e).2, (b e).2, 32 * e,
    issues_true ((by decide +kernel : ∀ e ∈ [1, 2], issues (s e) 0 [x e, y e] = true) e m),
    .inr ⟨.inl rfl, by show (0 : Nat) ≤ 8 ∧ 8 < 16; decide⟩,
    (by decide +kernel : ∀ e ∈ [1, 2], Memory.wf (s e).mem = true ∧ (x e).op = 0x010 ∧ (y e).op = 0x011 ∧
      (x e).d.loc = .wax 32 ∧ (y e).d.loc = .wax (32 * e) ∧ 32 * e = 32 * e ∧
      vecOp (x e).op (x e).w ((s e).source 0 (x e).w (x e).s1 0)
        ((s e).source 0 (x e).w (x e).s2 (seenIn (x e).s2 [(x e).s1])) (slotAt (s e) 0 32) = some ((a e).1, (a e).2) ∧
      vecOp (y e).op (y e).w ((s e).source 0 (y e).w (y e).s1 (seenIn (y e).s1 [(x e).s1, (x e).s2]))
        ((s e).source 0 (y e).w (y e).s2 (seenIn (y e).s2 [(x e).s1, (x e).s2, (y e).s1])) (slotAt (s e) 0 (32 * e))
        = some ((b e).1, (b e).2) ∧
      divByZero (x e).op (x e).w ((s e).source 0 (x e).w (x e).s2 (seenIn (x e).s2 [(x e).s1])) = false ∧
      divByZero (y e).op (y e).w ((s e).source 0 (y e).w (y e).s2 (seenIn (y e).s2 [(x e).s1, (x e).s2, (y e).s1]))
        = false) e m⟩

/-- A word of a lane row whose `DST` is port 0x020. -/
def toPort (op : Nat) : State :=
  let k : Wick := { ports := [{ num := 0x020, base := 10, len := 1 }] }
  match opRow op with
  | some r => onWick [long op (5 * 2 ^ 14 + 0x020) (opd r.s1 2 0) (opd r.s2 3 0), 0] k
  | none => {}

theorem wit_WordPortResult : ∀ r ∈ intRows ++ maskRows, ∃ s h p v ff, (Issues s 0 [h] ∧ Follows (s.wick 0) ∧
    Memory.wf s.mem = true ∧ h.op = r.op) ∧ p ∈ (s.wick 0).ports ∧ (s.wick 0).port p.num = p ∧ 0x020 ≤ p.num ∧
    p.num ≤ 0x02F ∧ h.d.loc = .port p.num ∧ p.filled < p.len ∧
    vecOp h.op h.w (srcA s 0 h) (srcB s 0 h) 0 = some (v, ff) := fun r m =>
  let p : Port := { num := 0x020, base := 10, len := 1 }
  let h (r : LaneRow) := front (toPort r.op)
  let v (r : LaneRow) := (vecOp (h r).op (h r).w (srcA (toPort r.op) 0 (h r)) (srcB (toPort r.op) 0 (h r)) 0).getD (0, 0)
  ⟨toPort r.op, h r, p, (v r).1, (v r).2, goes_true ((by decide +kernel :
      ∀ r ∈ intRows ++ maskRows, goes (toPort r.op) (h r) r.op = true) r m),
    (by decide +kernel : ∀ r ∈ intRows ++ maskRows, p ∈ ((toPort r.op).wick 0).ports ∧
      ((toPort r.op).wick 0).port p.num = p ∧ 0x020 ≤ p.num ∧ p.num ≤ 0x02F ∧ (h r).d.loc = .port p.num ∧
      p.filled < p.len ∧ vecOp (h r).op (h r).w (srcA (toPort r.op) 0 (h r)) (srcB (toPort r.op) 0 (h r)) 0
        = some ((v r).1, (v r).2)) r m⟩

/-- What the trap statement asks of the wick. -/
def stands (s : State) : Bool :=
  s.live && decide ((s.wick 0).st = 1 ∧ (s.wick 0).stalled = false ∧ (s.wick 0).cycles < (s.wick 0).budget)

theorem wit_WordTraps_1 : ∃ s, stands s = true ∧ (s.codeWord 0 (s.wick 0).pc).testBit 63 = false ∧
    opRow (bitsOf (s.codeWord 0 (s.wick 0).pc) 53 10) = none :=
  ⟨onWick [0x3FF * 2 ^ 53] {}, by decide +kernel⟩

/-- The rows of an entry that does not permit every width. -/
theorem wit_WordTraps_2 : ∀ r ∈ wideRows, ∃ s, stands s = true ∧
    (s.codeWord 0 (s.wick 0).pc).testBit 63 = false ∧ bitsOf (s.codeWord 0 (s.wick 0).pc) 53 10 = r.1.op ∧
    ∀ row, opRow r.1.op = some row → row.widths.contains (bitsOf (s.codeWord 0 (s.wick 0).pc) 51 2) = false :=
  fun r m =>
  let s (r : LaneRow × Nat) := onWick [r.1.op * 2 ^ 53] {}
  ⟨s r, (by decide +kernel : ∀ r ∈ wideRows, stands (s r) = true ∧
      ((s r).codeWord 0 ((s r).wick 0).pc).testBit 63 = false ∧
      bitsOf ((s r).codeWord 0 ((s r).wick 0).pc) 53 10 = r.1.op) r m |>.1,
    (by decide +kernel : ∀ r ∈ wideRows, stands (s r) = true ∧
      ((s r).codeWord 0 ((s r).wick 0).pc).testBit 63 = false ∧
      bitsOf ((s r).codeWord 0 ((s r).wick 0).pc) 53 10 = r.1.op) r m |>.2.1,
    (by decide +kernel : ∀ r ∈ wideRows, stands (s r) = true ∧
      ((s r).codeWord 0 ((s r).wick 0).pc).testBit 63 = false ∧
      bitsOf ((s r).codeWord 0 ((s r).wick 0).pc) 53 10 = r.1.op) r m |>.2.2,
    (by decide +kernel : ∀ r ∈ wideRows, ∀ row ∈ opRow r.1.op,
      row.widths.contains (bitsOf ((s r).codeWord 0 ((s r).wick 0).pc) 51 2) = false) r m⟩

theorem wit_WordTraps_3 : ∀ r ∈ intRows ++ maskRows ++ divRows ++ wideRows.map (·.1), ∃ s, stands s = true ∧
    wordIs r.op (s.codeWord 0 (s.wick 0).pc) = true := fun r m =>
  ⟨oneWord r.op, (by decide +kernel : ∀ r ∈ intRows ++ maskRows ++ divRows ++ wideRows.map (·.1),
    stands (oneWord r.op) = true ∧ wordIs r.op ((oneWord r.op).codeWord 0 ((oneWord r.op).wick 0).pc) = true) r m⟩

/-! ### Registers -/

/-- The register at an offset, and its first field. -/
def regOn (off : Nat) : RegDef := (regAt off).getD ⟨"", 0, [], []⟩
def field0 (off : Nat) : RegField := (regOn off).flds.headD ⟨"", 0, 0, .ro, 0⟩

theorem wit_CsrWrites_1 : ∀ off ∈ [R.RAS_TH, R.TB_OSCTRIM], ∃ (s : State) (who : Who) (val : Nat) (r : RegDef)
    (f : RegField), s.busServes who = true ∧ who ≠ .mgmt ∧ who ≠ .jtag ∧ off % 8 = 0 ∧ val < 2 ^ 64 ∧
    occupied off = true ∧ PlainReg off ∧ regAt off = some r ∧ Apart r f ∧
    (∀ g ∈ r.flds, reservedValue off g.lo (bitsOf val g.lo g.wid) = false) ∧
    (off = R.RAS_TH → userLimit off f.lo = none) ∧
    (off = R.TB_OSCTRIM → userLimit off f.lo = some 50000 ∧ f.acc = .rw ∧ 50000 < 2 ^ (f.wid - 1) ∧ 0 < f.wid) :=
  fun off m =>
  ⟨State.reset, .lamplighter, 100, regOn off, field0 off, by decide,
    (by unfold PlainReg Apart; decide +kernel : ∀ off ∈ [R.RAS_TH, R.TB_OSCTRIM],
      Who.lamplighter ≠ .mgmt ∧ Who.lamplighter ≠ .jtag ∧ off % 8 = 0 ∧ 100 < 2 ^ 64 ∧ occupied off = true ∧
      PlainReg off ∧ regAt off = some (regOn off) ∧ Apart (regOn off) (field0 off) ∧
      (∀ g ∈ (regOn off).flds, reservedValue off g.lo (bitsOf 100 g.lo g.wid) = false) ∧
      (off = R.RAS_TH → userLimit off (field0 off).lo = none) ∧
      (off = R.TB_OSCTRIM → userLimit off (field0 off).lo = some 50000 ∧ (field0 off).acc = .rw ∧
        50000 < 2 ^ ((field0 off).wid - 1) ∧ 0 < (field0 off).wid)) off m⟩

theorem wit_CsrWrites_2 : ∃ (s : State) (who : Who) (off val : Nat) (r : RegDef) (f : RegField),
    s.busServes who = true ∧ who ≠ .mgmt ∧ who ≠ .jtag ∧ off % 8 = 0 ∧ val < 2 ^ 64 ∧ occupied off = true ∧
    PlainReg off ∧ regAt off = some r ∧ Apart r f ∧ f.acc = .rw ∧ off ≠ errReg off ∧
    reservedValue off f.lo (bitsOf val f.lo f.wid) = true :=
  ⟨State.reset, .wick, R.RAS_TH, 99, regOn R.RAS_TH, field0 R.RAS_TH, by unfold PlainReg Apart; decide +kernel⟩

theorem wit_CsrAccesses_1 : ∃ (s : State) (who : Who), s.busServes who = true ∧ s.ras.frozen = false ∧
    (0x100004 % 8 ≠ 0 ∧ (4 : Nat) ≠ 8) ∧ (R.DRL_HIST 0 % 8 = 0 ∧ R.DRL_HIST 1023 < R.DRL_HIST 1024) ∧
    occupied 0x100030 = false ∧ (occupied R.CRK_ARB = true ∧ csrReaches who R.CRK_ARB = false) ∧
    who = .lamplighter ∧ s.place 0xFD00000000 = .unassigned :=
  ⟨State.reset, .lamplighter, by decide +kernel⟩

/-- A running wick with a task in context 0 and a Reservoir job. -/
def working : State :=
  withTask (onWick [0, 0] { job := some { slot := some 0, ready := true } })

theorem wit_CsrAccesses_2 : ∃ (s : State) (c : Ctx) (j : Job), s.live = true ∧ (s.wick 0).st = 1 ∧ Tab.get s.ctxs (s.wick 0).ctx = some c ∧
    s.place 0xFD00000000 = .unassigned ∧ (s.wick 0).job = some j ∧ j.slot.isSome = true :=
  ⟨working, { st := .running }, { slot := some 0, ready := true }, by decide +kernel⟩

/-! ### Queues -/

/-- A block that serves commands: crank A is captain, the boot has reached `READY`, port 0 is ACTIVE for a host. -/
def up : State :=
  ((({ crank := { roleA := .captain, synced := true } } : State).setFld R.TOP_BOOT F.TOP_BOOT_STAGE 8).setFld
    (R.MLK_STAT 0) F.MLK_STAT_STATE 5).setFld R.QM_CTL F.QM_CTL_EN 1

/-- Parameters by offset, width and value. -/
def prms (fs : List (Nat × Nat × Nat)) (n : Nat := 40) : List Byte :=
  fs.foldl (fun b f => patch b f.1 (le f.2.2 f.2.1)) (zeros n)

/-- A ring of 16 slots of instance 5, queue 1 of it and queue 1,025 of the device. -/
def ring : Queue := { st := .enabled, sizeLog2 := 4, inst := 5, loc := 1, pubGen := 7 }

/-- Instance 5, RESERVED, under generation 7, and its queue `q`. -/
def tenant (q : Queue) : State :=
  { up with
    insts := [(5, { st := 1, cls := 1, gen := 7, lastGen := 7, wicks := 4, banks := 8, mem := 2 ^ 30, fold := 16,
                    memRes := 2 ^ 30, banksRes := 8 })],
    queues := [(1025, q)] }

/-- An accepted command of that queue. -/
def cmd (op : Nat) (prm : List Byte) : Cmd :=
  { g := 1025, ents := [(0, 1)], opcode := op, inst := 5, gen := 7, prm := prm }

/-- Its key. -/
def key0 : Nat := 1025 * 65536

/-- A block that has accepted a command. -/
def asks (s : State) (c : Cmd) : State := { s with cmds := [(key0, c)] }

/-- `Due`, as a computation. -/
def due (s : State) (key op : Nat) (c : Cmd) : Bool :=
  Tab.get s.cmds key == some c && s.serving && c.opcode == op && !c.finished && !c.isOpen && (c.started || s.mayStart c)

theorem due_true {s : State} {key op : Nat} {c : Cmd} (h : due s key op c = true) : Due s key op c := by
  simp only [due, Bool.and_eq_true, Bool.or_eq_true, beq_iff_eq, Bool.not_eq_true'] at h
  obtain ⟨⟨⟨⟨⟨h1, h2⟩, h3⟩, h4⟩, h5⟩, h6⟩ := h
  exact ⟨h1, h2, h3, h4, h5, h6⟩

/-- The doorbell of queue 1 of instance 5 at its edges: an empty ring filled by 16, and one slot more. -/
theorem wit_Doorbells_1 : ∃ (s : State) (g : Nat) (q : Queue), s.live = true ∧ s.crank.gap = false ∧ s.crank.halted = false ∧
    s.globalOf 5 1 = some g ∧ Tab.get s.queues g = some q ∧ q.st ≠ .overrun ∧ 65536 < 131072 ∧ 65536 % 65536 < q.n ∧
    q.submits = true ∧ occupancy q.n q.head q.tail + occupancy q.n q.tail 65536 = q.n ∧
    q.n < occupancy q.n q.head q.tail + occupancy q.n q.tail 65537 ∧
    s.hostUp 0 = true ∧ 7 = s.genOf 5 :=
  ⟨tenant ring, 1025, ring, by decide +kernel⟩

theorem wit_Doorbells_2 : ∃ (s : State) (g : Nat) (q : Queue), s.live = true ∧ s.crank.gap = false ∧ s.crank.halted = false ∧
    s.globalOf 5 1 = some g ∧ Tab.get s.queues g = some q ∧ q.st ≠ .overrun ∧ 3 % 65536 < q.n ∧
    q.submits = false ∧ occupancy q.n q.head 3 ≤ occupancy q.n q.head q.tail :=
  ⟨tenant { ring with typ := 2, tail := 3 }, 1025, { ring with typ := 2, tail := 3 }, by decide +kernel⟩

theorem wit_Doorbells_3 : ∃ (s : State) (g : Nat) (q : Queue), s.live = true ∧ s.crank.gap = false ∧ s.crank.halted = false ∧
    s.globalOf 5 1 = some g ∧ Tab.get s.queues g = some q ∧ q.st ≠ .overrun ∧ 0 % 65536 < q.n ∧ 1 % 65536 < q.n ∧
    q.submits = true ∧ q.push = true ∧ s.hostUp 0 = true ∧ s.genOf 5 = 7 ∧ q.tail = 0 ∧
    occupancy q.n q.head q.tail + 16 = q.n :=
  ⟨tenant { ring with push := true }, 1025, { ring with push := true }, by decide +kernel⟩

theorem wit_Doorbells_4 : ∃ (s : State), s.live = true ∧ s.crank.gap = false ∧ s.crank.halted = false ∧ s.globalOf 5 2 = none ∧
    s.globalOf 5 1 = some 1025 ∧ (Tab.at s.queues 1025).n ≤ 16 % 65536 :=
  ⟨tenant ring, by decide +kernel⟩

theorem wit_Doorbells_5 : ∃ s : State, s.live = true ∧ s.crank.gap = true ∧
    (s.crank.latched.filter (·.port == 6)).length < 4096 :=
  ⟨{ tenant ring with crank := { up.crank with gap := true } }, by decide +kernel⟩

/-- A `NOP` entry of one slot, whole, under a generation. -/
def nopEntry (gen units : Nat) : List Byte := le 0x5F 1 ++ le 3 1 ++ le units 1 ++ zeros 1 ++ zeros 2 ++ le gen 2 ++ zeros 56

theorem wit_Doorbells_6 : ∀ gen ∈ [7, 6], ∃ (s : State) (q : Queue), s.fetching 1025 = true ∧ Tab.get s.queues 1025 = some q ∧
    q.chain = none ∧ q.fwMark = 0 ∧
    (entryLengthBad q.n (q.fetch % 65536) (readEntry (nopEntry gen 1)).units = false ∧
      (readEntry (nopEntry gen 1)).units ≤ q.unread ∧ (nopEntry gen 1).length = 64 * (readEntry (nopEntry gen 1)).units ∧
      bitAt (readEntry (nopEntry gen 1)).flags 0 = true ∧ bitAt (readEntry (nopEntry gen 1)).flags 1 = true) ∧
    (readEntry (nopEntry gen 1)).gen = gen ∧ s.genOf q.inst = 7 ∧
    ∀ c : Cmd, c.prm = (readEntry (nopEntry gen 1)).prm → c.opcode = (readEntry (nopEntry gen 1)).opcode →
      commandCheck 1025 c (headerOffence (readEntry (nopEntry gen 1)) 0) = none := fun gen m =>
  ⟨tenant { ring with tail := 1 }, { ring with tail := 1 }, by decide +kernel, by decide +kernel, rfl, rfl,
    (by decide +kernel : ∀ gen ∈ [7, 6],
      entryLengthBad ({ ring with tail := 1 } : Queue).n 0 (readEntry (nopEntry gen 1)).units = false ∧
      (readEntry (nopEntry gen 1)).units ≤ ({ ring with tail := 1 } : Queue).unread ∧
      (nopEntry gen 1).length = 64 * (readEntry (nopEntry gen 1)).units ∧
      bitAt (readEntry (nopEntry gen 1)).flags 0 = true ∧ bitAt (readEntry (nopEntry gen 1)).flags 1 = true) gen m,
    (by decide +kernel : ∀ gen ∈ [7, 6], (readEntry (nopEntry gen 1)).gen = gen) gen m, by decide +kernel,
    fun c h1 h2 => by
      have e : commandCheck 1025 c (headerOffence (readEntry (nopEntry gen 1)) 0)
          = commandCheck 1025 { c with } (headerOffence (readEntry (nopEntry gen 1)) 0) := rfl
      have k : ∀ gen ∈ [7, 6], headerOffence (readEntry (nopEntry gen 1)) 0 = none ∧
          (readEntry (nopEntry gen 1)).opcode = 0x5F ∧ opDefined 0x5F = true ∧
          paramOffence 0x5F (readEntry (nopEntry gen 1)).prm = none ∧
          paramMissing 0x5F (readEntry (nopEntry gen 1)).prm = false := by decide +kernel
      obtain ⟨k1, k2, k3, k4, k5⟩ := k gen m
      unfold commandCheck
      rw [h1, h2, k1, k2, k3, k4, k5]
      simp⟩

theorem wit_Doorbells_7 : ∃ (s : State) (q : Queue), s.fetching 1025 = true ∧ Tab.get s.queues 1025 = some q ∧ q.chain = none ∧
    q.fwMark = 0 ∧ entryLengthBad q.n (q.fetch % 65536) (readEntry (nopEntry 7 17)).units = true ∧ 1 ≤ q.unread ∧
    (nopEntry 7 17).length = 64 :=
  ⟨tenant { ring with tail := 1 }, { ring with tail := 1 }, by decide +kernel⟩

theorem wit_Publication_1 : ∀ w ∈ [true, false], ∃ (s : State) (q : Queue) (c : Cmd), s.serving = true ∧ s.crank.gap = false ∧
    Tab.get s.queues 1025 = some q ∧ q.submits = true ∧ q.st ≠ .absent ∧
    Tab.get s.cmds (1025 * 65536 + q.prod % 65536) = some c ∧ c.written = w ∧ c.isOpen = false ∧
    Tab.get s.cmds (1025 * 65536 + advance q.n q.prod c.slots % 65536) = none := fun w m =>
  let c (w : Bool) : Cmd := { cmd 0x5F [] with written := w, finished := true }
  ⟨asks (tenant { ring with tail := 1 }) (c w), { ring with tail := 1 }, c w,
    (by decide +kernel : ∀ w ∈ [true, false], (asks (tenant { ring with tail := 1 }) (c w)).serving = true ∧
      (asks (tenant { ring with tail := 1 }) (c w)).crank.gap = false ∧
      Tab.get (tenant { ring with tail := 1 }).queues 1025 = some { ring with tail := 1 } ∧
      ({ ring with tail := 1 } : Queue).submits = true ∧ QState.enabled ≠ .absent ∧
      Tab.get (asks (tenant { ring with tail := 1 }) (c w)).cmds (1025 * 65536 + 0 % 65536) = some (c w) ∧
      (c w).written = w ∧ (c w).isOpen = false ∧
      Tab.get (asks (tenant { ring with tail := 1 }) (c w)).cmds
        (1025 * 65536 + advance 16 0 (c w).slots % 65536) = none) w m⟩

theorem wit_Publication_2 : ∀ gen ∈ [7, 6], ∃ (s : State) (q : Queue), s.live = true ∧ s.crank.gap = false ∧ s.crank.halted = false ∧
    Tab.get s.queues 1025 = some q ∧ q.st ≠ .absent ∧ s.hostUp q.port = true ∧ q.notifyEn = true ∧ 0 < q.pendCount ∧
    q.coalCount = q.pendCount ∧ s.fresh q.inst q.pubGen = (gen == 7) := fun gen m =>
  let q (gen : Nat) : Queue := { ring with notifyEn := true, pendCount := 1, pubGen := gen }
  ⟨tenant (q gen), q gen, (by decide +kernel : ∀ gen ∈ [7, 6], (tenant (q gen)).live = true ∧
    (tenant (q gen)).crank.gap = false ∧ (tenant (q gen)).crank.halted = false ∧
    Tab.get (tenant (q gen)).queues 1025 = some (q gen) ∧ (q gen).st ≠ .absent ∧
    (tenant (q gen)).hostUp (q gen).port = true ∧ (q gen).notifyEn = true ∧ 0 < (q gen).pendCount ∧
    (q gen).coalCount = (q gen).pendCount ∧ (tenant (q gen)).fresh (q gen).inst (q gen).pubGen = (gen == 7)) gen m⟩

/-- Instance 5 with an event, and an EVENT ring. -/
def events (head prod lost : Nat) : State :=
  let s := tenant { ring with typ := 3, head := head, prod := prod, lost := lost }
  { s with insts := [(5, { st := 1, gen := 7, events := [{ kind := 0xE1 }] })] }

theorem wit_Publication_3 : ∃ (s : State) (x : Inst) (e : Event) (q : Queue), s.live = true ∧ Tab.get s.insts 5 = some x ∧ x.events = [e] ∧ e.kind ≠ 0xE2 ∧
    s.eventQueue 5 = some 1025 ∧ Tab.get s.queues 1025 = some q ∧ q.lost = 0 ∧ q.st = .enabled ∧ q.room = 1 :=
  ⟨events 0 15 0, { st := 1, gen := 7, events := [{ kind := 0xE1 }] }, { kind := 0xE1 },
    { ring with typ := 3, prod := 15 }, by decide +kernel⟩

theorem wit_Publication_4 : ∃ (s : State) (x : Inst) (e : Event) (q : Queue), s.live = true ∧ Tab.get s.insts 5 = some x ∧ x.events = [e] ∧ e.kind ≠ 0xE2 ∧
    s.eventQueue 5 = some 1025 ∧ Tab.get s.queues 1025 = some q ∧ q.room = 0 :=
  ⟨events 0 65536 0, { st := 1, gen := 7, events := [{ kind := 0xE1 }] }, { kind := 0xE1 },
    { ring with typ := 3, prod := 65536 }, by decide +kernel⟩

theorem wit_Publication_5 : ∃ (s : State) (q : Queue), s.live = true ∧ Tab.get s.queues 1025 = some q ∧ q.st = .enabled ∧ q.typ = 3 ∧
    0 < q.lost ∧ 0 < q.room :=
  ⟨events 0 15 1, { ring with typ := 3, prod := 15, lost := 1 }, by decide +kernel⟩

theorem wit_Publication_6 : ∃ (s : State), s.live = true ∧ (Tab.at s.insts 5).st = 1 ∧ Memory.wf s.mail = true ∧
    (∀ down ∈ [true, false], s.mailPending 5 down = false) :=
  ⟨events 0 0 0, by decide +kernel⟩

theorem wit_QueueControl_1 : ∀ st ∈ [QState.enabled, .disabled, .overrun], ∃ (s : State) (q : Queue), s.live = true ∧
    reaches .lamplighter = true ∧ Tab.get s.queues 1025 = some q ∧ q.st = st ∧ s.queueIdle 1025 = true := fun st m =>
  ⟨tenant { ring with st := st }, { ring with st := st }, (by decide +kernel :
    ∀ st ∈ [QState.enabled, .disabled, .overrun], (tenant { ring with st := st }).live = true ∧
      reaches .lamplighter = true ∧ Tab.get (tenant { ring with st := st }).queues 1025 = some { ring with st := st } ∧
      st = st ∧ (tenant { ring with st := st }).queueIdle 1025 = true) st m⟩

theorem wit_QueueControl_2 : ∀ op ∈ [0x5F, 0x58], ∃ (s : State) (c : Cmd), Due s key0 op c := fun op m =>
  ⟨asks (tenant ring) (cmd op (zeros 40)), cmd op (zeros 40), due_true ((by decide +kernel :
    ∀ op ∈ [0x5F, 0x58], due (asks (tenant ring) (cmd op (zeros 40))) key0 op (cmd op (zeros 40)) = true) op m)⟩

theorem wit_QueueControl_3 : ∃ (s : State) (c : Cmd), Due s key0 0x02 c ∧ s.fld (R.MLK_CFG (c.p 5 1)) F.MLK_CFG_MODE ≠ 1 ∧
    s.globalOf c.inst (c.p 0 2) = none ∧ Tab.get s.queues 1026 = none :=
  let c := cmd 0x02 (prms [(0, 2, 2), (4, 1, 4)])
  ⟨asks (tenant ring) c, c, due_true (by decide +kernel), by decide +kernel⟩

/-- Commands on queue 2 of the instance, which is queue 1,026 of the device. -/
def twoQueues (q : Queue) : State := { tenant ring with queues := [(1025, ring), (1026, { q with loc := 2 })] }

theorem wit_QueueControl_4 : ∀ st ∈ [QState.enabled, .disabled, .overrun], ∃ (s : State) (c : Cmd) (q : Queue), Due s key0 0x03 c ∧ c.p 0 2 ≠ 0 ∧
    s.globalOf c.inst (c.p 0 2) = some 1026 ∧ Tab.get s.queues 1026 = some q ∧ q.st = st ∧ s.queueIdle 1026 = true :=
  fun st m =>
  let c := cmd 0x03 (prms [(0, 2, 2)])
  let q (st : QState) : Queue := { ring with st := st, loc := 2 }
  let s (st : QState) := asks (twoQueues (q st)) c
  ⟨s st, c, q st, due_true ((by decide +kernel : ∀ st ∈ [QState.enabled, .disabled, .overrun],
      due (s st) key0 0x03 c = true) st m),
    (by decide +kernel : ∀ st ∈ [QState.enabled, .disabled, .overrun], c.p 0 2 ≠ 0 ∧
      (s st).globalOf c.inst (c.p 0 2) = some 1026 ∧ Tab.get (s st).queues 1026 = some (q st) ∧ (q st).st = st ∧
      (s st).queueIdle 1026 = true) st m⟩

theorem wit_QueueControl_5 : ∃ (s : State) (c : Cmd) (q : Queue), Due s key0 0x04 c ∧ c.p 0 2 ≠ 0 ∧ s.globalOf c.inst (c.p 0 2) = some 1026 ∧
    Tab.get s.queues 1026 = some q ∧ c.note = q.passed ∧ bitAt (c.p 2 1) 0 = false :=
  let c := cmd 0x04 (prms [(0, 2, 2)])
  ⟨asks (twoQueues ring) c, c, { ring with loc := 2 }, due_true (by decide +kernel), by decide +kernel⟩

/-- Another command of queue 1,026 waits. -/
def waiting (c : Cmd) (q : Queue) : State :=
  { twoQueues q with cmds := [(key0, c), (1026 * 65536, { cmd 0x5F (zeros 40) with g := 1026, seq := 1 })] }

theorem wit_QueueControl_6 : ∃ (s : State) (c : Cmd) (q : Queue), Due s key0 0x04 c ∧ c.p 0 2 ≠ 0 ∧ s.globalOf c.inst (c.p 0 2) = some 1026 ∧
    Tab.get s.queues 1026 = some q ∧ q.passed < c.note ∧ c.started = false ∧ bitAt (c.p 2 1) 0 = true ∧
    q.st = .enabled ∧ s.queueIdle 1026 = false :=
  let c := { cmd 0x04 (prms [(0, 2, 2), (2, 1, 1)]) with note := 1 }
  ⟨waiting c { ring with tail := 1 }, c, { ring with loc := 2, tail := 1 }, due_true (by decide +kernel), by decide +kernel⟩

theorem wit_QueueControl_7 : ∃ (s : State) (c : Cmd) (q : Queue) (e : Cmd), Due s key0 0x05 c ∧ c.p 0 2 ≠ 0 ∧ s.globalOf c.inst (c.p 0 2) = some 1026 ∧
    Tab.get s.queues 1026 = some q ∧ q.submits = true ∧ 1026 * 65536 ≠ key0 ∧ Tab.get s.cmds (1026 * 65536) = some e ∧
    e.g = 1026 ∧ e.mgmt = false ∧ e.started = false ∧ e.finished = false ∧ s.entryAt e < c.note :=
  let c := { cmd 0x05 (prms [(0, 2, 2)]) with note := 1 }
  ⟨waiting c { ring with tail := 1 }, c, { ring with loc := 2, tail := 1 },
    { cmd 0x5F (zeros 40) with g := 1026, seq := 1 }, due_true (by decide +kernel), by decide +kernel⟩

theorem wit_QueueControl_8 : ∃ (s : State) (c : Cmd) (q : Queue), Due s key0 0x05 c ∧ c.p 0 2 ≠ 0 ∧ s.globalOf c.inst (c.p 0 2) = some 1026 ∧
    Tab.get s.queues 1026 = some q ∧ q.submits = false :=
  let c := cmd 0x05 (prms [(0, 2, 2)])
  ⟨asks (twoQueues { ring with typ := 2 }) c, c, { ring with loc := 2, typ := 2 }, due_true (by decide +kernel),
    by decide +kernel⟩

theorem wit_QueueControl_9 : ∀ f ∈ [1, 2], ∃ (s : State) (c : Cmd) (q : Queue), Due s key0 0x07 c ∧ c.p 2 2 ≠ 0 ∧
    s.globalOf c.inst (c.p 2 2) = some 1025 ∧ Tab.get s.queues 1025 = some q ∧ c.p 0 2 = f := fun f m =>
  let c (f : Nat) := cmd 0x07 (prms [(0, 2, f), (2, 2, 1), (8, 8, 1)])
  ⟨asks (tenant ring) (c f), c f, ring,
    due_true ((by decide +kernel : ∀ f ∈ [1, 2], due (asks (tenant ring) (c f)) key0 0x07 (c f) = true) f m),
    (by decide +kernel : ∀ f ∈ [1, 2], (c f).p 2 2 ≠ 0 ∧
      (asks (tenant ring) (c f)).globalOf (c f).inst ((c f).p 2 2) = some 1025 ∧
      Tab.get (asks (tenant ring) (c f)).queues 1025 = some ring ∧ (c f).p 0 2 = f) f m⟩

/-! ### Instances, the Tally, regions and tables -/

/-- Parameters of `INSTANCE_CREATE` and `INSTANCE_RESIZE`: instance `i`, RESERVED, with its amounts. -/
def amounts (i wicks banks mem fold : Nat) : List Byte :=
  prms [(0, 2, i), (2, 1, 1), (4, 2, wicks), (6, 2, banks), (8, 8, mem), (16, 2, fold), (18, 1, 4)]

theorem wit_InstanceCreate_1 : let c := cmd 0x10 (amounts 6 4 4 65536 4); let s := asks (tenant ring) c
    Due s key0 0x10 c ∧ c.p 2 1 = 1 ∧ (Tab.at s.insts (c.p 0 2)).st = 0 ∧
    s.fld (R.MLK_CFG (c.p 19 1)) F.MLK_CFG_MODE ≠ 1 ∧ s.reserveFits 6 0 (c.p 4 2) = true ∧
    s.reserveFits 6 1 (c.p 6 2) = true ∧ s.reserveFits 6 2 (c.p 8 8) = true ∧ s.reserveFits 6 3 (c.p 16 2) = true ∧
    Memory.wf s.mail = true := ⟨due_true (by decide +kernel), by decide +kernel⟩

theorem wit_InstanceCreate_2 : let c := cmd 0x10 (amounts 5 4 4 65536 4); let s := asks (tenant ring) c
    Due s key0 0x10 c ∧ (Tab.at s.insts (c.p 0 2)).st ≠ 0 := ⟨due_true (by decide +kernel), by decide +kernel⟩

/-- Instance 5 is POOLED. -/
def pooled : State := { tenant ring with insts := [(5, { st := 1, cls := 2, gen := 7 })] }

theorem wit_InstanceCreate_3 : let c := cmd 0x14 (prms [(0, 2, 1024)]); let s := asks (tenant ring) c
    Due s key0 0x14 c ∧ (∀ e ∈ s.insts, e.2.st = 0 ∨ e.2.cls ≠ 2) ∧ c.p 0 2 ≤ 1024 :=
  ⟨due_true (by decide +kernel), by decide +kernel⟩

theorem wit_InstanceCreate_4 : let c := cmd 0x14 (prms [(0, 2, 1)]); let s := asks pooled c
    Due s key0 0x14 c ∧ ∃ e ∈ s.insts, e.2.st ≠ 0 ∧ e.2.cls = 2 :=
  ⟨due_true (by decide +kernel), by decide +kernel⟩

/-- Instance 5 holds a region of 64 KiB. -/
def owner : State := { tenant ring with regions := [(9, { inst := 5, base := 65536, size := 65536 })] }

/-- A new size that just fits, and one that does not. -/
theorem wit_InstanceResize_1 : ∀ m ∈ [65536, 65535], let c := cmd 0x11 (amounts 5 4 4 m 4); let s := asks owner c
    Due s key0 0x11 c ∧ c.started = false ∧ (Tab.at s.insts (c.p 0 2)).st = 1 ∧ (Tab.at s.insts (c.p 0 2)).cls = 1 ∧
    (Tab.at s.insts (c.p 0 2)).shrinking = false ∧ s.reserveFits 5 0 (c.p 4 2) = true ∧
    s.reserveFits 5 1 (c.p 6 2) = true ∧ s.reserveFits 5 2 (c.p 8 8) = true ∧ s.reserveFits 5 3 (c.p 16 2) = true ∧
    s.heldBanks 5 ≤ c.p 6 2 ∧ (m = 65536 → s.heldMem 5 ≤ c.p 8 8) ∧ (m = 65535 → c.p 8 8 < s.heldMem 5) := fun m h =>
  ⟨due_true ((by decide +kernel : ∀ m ∈ [65536, 65535],
      due (asks owner (cmd 0x11 (amounts 5 4 4 m 4))) key0 0x11 (cmd 0x11 (amounts 5 4 4 m 4)) = true) m h),
    (by decide +kernel : ∀ m ∈ [65536, 65535], let c := cmd 0x11 (amounts 5 4 4 m 4); let s := asks owner c
      c.started = false ∧ (Tab.at s.insts (c.p 0 2)).st = 1 ∧ (Tab.at s.insts (c.p 0 2)).cls = 1 ∧
      (Tab.at s.insts (c.p 0 2)).shrinking = false ∧ s.reserveFits 5 0 (c.p 4 2) = true ∧
      s.reserveFits 5 1 (c.p 6 2) = true ∧ s.reserveFits 5 2 (c.p 8 8) = true ∧ s.reserveFits 5 3 (c.p 16 2) = true ∧
      s.heldBanks 5 ≤ c.p 6 2 ∧ (m = 65536 → s.heldMem 5 ≤ c.p 8 8) ∧ (m = 65535 → c.p 8 8 < s.heldMem 5)) m h⟩

/-- A shrink to `mem` bytes is under way. -/
def shrinks (mem : Nat) : State :=
  let s := asks owner { cmd 0x11 (amounts 5 4 4 mem 4) with started := true }
  { s with insts := [(5, { st := 1, cls := 1, gen := 7, mem := mem, memRes := 2 ^ 30, banks := 4, shrinking := true,
                           resizeCmd := some key0 })] }

theorem wit_InstanceResize_2 : ∀ m ∈ [65536, 65535], (shrinks m).serving = true ∧
    (Tab.get (shrinks m).cmds key0).isSome = true ∧ (Tab.at (shrinks m).insts 5).shrinking = true ∧
    (Tab.at (shrinks m).insts 5).resizeCmd = some key0 ∧
    (m = 65536 → (shrinks m).heldMem 5 ≤ (Tab.at (shrinks m).insts 5).mem ∧
      (shrinks m).heldBanks 5 ≤ (Tab.at (shrinks m).insts 5).banks) ∧
    (m = 65535 → (Tab.at (shrinks m).insts 5).mem < (shrinks m).heldMem 5) := by decide +kernel

/-- The manager resets or destroys instance 5, which has `n` retired generations, with work outstanding or none. -/
def managed (op n : Nat) (busy : Bool) : State :=
  let s := asks owner { cmd op (prms [(0, 2, 5)]) with inst := 0 }
  { s with
    insts := [(5, { st := 1, gen := 7, lastGen := 0xFFFF, retired := List.replicate n 3 })],
    held := if busy then [{ what := .data 1, inst := 5, gen := 7 }] else [] }

theorem wit_InstanceReset_1 : ∀ op ∈ [0x12, 0x13], ∀ n ∈ [2, 3],
    let c : Cmd := { cmd op (prms [(0, 2, 5)]) with inst := 0 }
    let s := managed op n true
    Due s key0 op c ∧ c.inst ≠ c.p 0 2 ∧ (Tab.at s.insts (c.p 0 2)).st = 1 ∧ s.outstanding 5 7 = true ∧
    ((Tab.at s.insts (c.p 0 2)).retired.length < 3 ∨ 3 ≤ (Tab.at s.insts (c.p 0 2)).retired.length) :=
  fun op m n k => ⟨due_true ((by decide +kernel : ∀ op ∈ [0x12, 0x13], ∀ n ∈ [2, 3],
      due (managed op n true) key0 op { cmd op (prms [(0, 2, 5)]) with inst := 0 } = true) op m n k),
    (by decide +kernel : ∀ op ∈ [0x12, 0x13], ∀ n ∈ [2, 3],
      let c : Cmd := { cmd op (prms [(0, 2, 5)]) with inst := 0 }
      let s := managed op n true
      c.inst ≠ c.p 0 2 ∧ (Tab.at s.insts (c.p 0 2)).st = 1 ∧ s.outstanding 5 7 = true ∧
      ((Tab.at s.insts (c.p 0 2)).retired.length < 3 ∨ 3 ≤ (Tab.at s.insts (c.p 0 2)).retired.length)) op m n k⟩

/-- The resize of instance 5 that its destruction ends. -/
def resizing : State :=
  let s := managed 0x13 0 false
  { s with
    cmds := s.cmds ++ [(key0 + 1, { cmd 0x11 (amounts 5 4 4 65536 4) with started := true })],
    insts := [(5, { st := 1, gen := 7, shrinking := true, resizeCmd := some (key0 + 1) })] }

theorem wit_InstanceReset_2 : let s := { resizing with cmds := Tab.upd resizing.cmds (key0 + 1) fun c => { c with inst := 0 } }
    (Tab.at s.insts 5).resizeCmd = some (key0 + 1) ∧ key0 + 1 ≠ key0 ∧
    ∃ e, Tab.get s.cmds (key0 + 1) = some e ∧ e.inst ≠ 5 ∧ e.mgmt = false :=
  ⟨rfl, by decide, { cmd 0x11 (amounts 5 4 4 65536 4) with started := true, inst := 0 }, by decide +kernel⟩

theorem wit_InstanceReset_3 : ∀ busy ∈ [true, false],
    let s : State := { managed 0x12 1 false with held := if busy then [{ what := .data 1, inst := 5, gen := 3 }] else [] }
    s.live = true ∧ 3 ∈ (Tab.at s.insts 5).retired ∧ s.outstanding 5 3 = busy := by decide +kernel

theorem wit_InstanceReset_4 : ∀ gen ∈ [0, 3, 7],
    let s : State := { managed 0x12 0 false with held := [{ what := .data 1, inst := 5, gen := gen }] }
    s.live = true ∧ (∃ h, s.held[0]? = some h ∧ h.tag = none) ∧
    ((gen = 0 ∨ s.genOf 5 ≠ gen) ∨ (gen ≠ 0 ∧ s.genOf 5 = gen)) := fun gen m =>
  ⟨rfl, ⟨_, rfl, rfl⟩, (by decide +kernel : ∀ gen ∈ [0, 3, 7],
    let s : State := { managed 0x12 0 false with held := [{ what := .data 1, inst := 5, gen := gen }] }
    ((gen = 0 ∨ s.genOf 5 ≠ gen) ∨ (gen ≠ 0 ∧ s.genOf 5 = gen))) gen m⟩

/-- The manager's tally ring with room for one record, a held record, and the signing key. -/
def tallies : State :=
  { tenant { ring with inst := 0, loc := 1, typ := 2, prod := 14 } with
    tally := [{ end_ := 60000000000 }], swx := { slots := [(31, { key := some (zeros 32) })] } }

theorem wit_Tally_1 : tallies.serving = true ∧ tallies.crank.gap = false ∧ tallies.tallyRing = some 1025 ∧
    (Tab.at tallies.queues 1025).st = .enabled ∧ (Tab.at tallies.queues 1025).room = 2 ∧ tallies.tally ≠ [] ∧
    (tallies.swxSlot 31).key.isSome = true := by decide +kernel

theorem wit_Tally_2 : let s : State := { owner with tb := { owner.tb with now := 1000000 } }
    s.pins.pwrgood = true ∧ s.ras.frozen = false ∧ s.boot.tripped = false ∧ s.tb.lastMs ≠ s.now / 1000000 ∧
    (s.insts.map (·.1)).Nodup := by decide +kernel

/-- A region that takes the instance to its limit, and one beyond it. -/
theorem wit_Regions_1 : ∀ size ∈ [2 ^ 30 - 65536, 2 ^ 30], let c := cmd 0x43 (prms [(8, 8, size)]); let s := asks owner c
    Due s key0 0x43 c ∧ Memory.wf s.mem = true ∧
    (size = 2 ^ 30 - 65536 → s.heldMem c.inst + c.p 8 8 ≤ s.capOf c.inst 2 ∧ s.memRoom 65536 (c.p 8 8) = true ∧
      Tab.get s.regions 10 = none ∧ 131072 % 65536 = 0 ∧ s.memFree 131072 (c.p 8 8) = true) ∧
    (size = 2 ^ 30 → s.capOf c.inst 2 < s.heldMem c.inst + c.p 8 8) := fun size m =>
  ⟨due_true ((by decide +kernel : ∀ size ∈ [2 ^ 30 - 65536, 2 ^ 30],
      due (asks owner (cmd 0x43 (prms [(8, 8, size)]))) key0 0x43 (cmd 0x43 (prms [(8, 8, size)])) = true) size m),
    (by decide +kernel : ∀ size ∈ [2 ^ 30 - 65536, 2 ^ 30],
      let c := cmd 0x43 (prms [(8, 8, size)]); let s := asks owner c
      Memory.wf s.mem = true ∧
      (size = 2 ^ 30 - 65536 → s.heldMem c.inst + c.p 8 8 ≤ s.capOf c.inst 2 ∧ s.memRoom 65536 (c.p 8 8) = true ∧
        Tab.get s.regions 10 = none ∧ 131072 % 65536 = 0 ∧ s.memFree 131072 (c.p 8 8) = true) ∧
      (size = 2 ^ 30 → s.capOf c.inst 2 < s.heldMem c.inst + c.p 8 8)) size m⟩

/-- Another command reads region 9. -/
def reading (c : Cmd) : State :=
  { owner with
    cmds := [(key0, c), (key0 + 1, { cmd 0x41 (prms [(0, 4, 9), (16, 4, 64)]) with started := true, seq := 1 })] }

theorem wit_Regions_2 : let c := cmd 0x44 (prms [(0, 4, 9)]); let r : Region := { inst := 5, base := 65536, size := 65536 }
    (Due (asks owner c) key0 0x44 c ∧ Holds (asks owner c) c (c.p 0 4) 0 0 r ∧
      (asks owner c).regionBusy (c.p 0 4) = false) ∧
    (Due (reading c) key0 0x44 c ∧ Holds (reading c) c (c.p 0 4) 0 0 r ∧ (reading c).regionBusy (c.p 0 4) = true) :=
  ⟨⟨due_true (by decide +kernel), by unfold Holds; decide +kernel⟩,
    due_true (by decide +kernel), by unfold Holds; decide +kernel⟩

/-- The last 64 bytes of the region, to the last bytes of the host's address space. -/
theorem wit_Regions_3 : let c := cmd 0x41 (prms [(0, 4, 9), (8, 8, 65472), (16, 4, 64), (24, 8, 2 ^ 64 - 64)])
    let r : Region := { inst := 5, base := 65536, size := 65536 }
    Due (asks owner c) key0 0x41 c ∧ c.started = false ∧ Holds (asks owner c) c (c.p 0 4) (c.p 8 8) (c.p 16 4) r ∧
    Clean (asks owner c) (r.base + c.p 8 8) (c.p 16 4) ∧ 0 < c.p 16 4 ∧ c.p 24 8 + c.p 16 4 = 2 ^ 64 :=
  ⟨due_true (by decide +kernel), by unfold Holds Clean; decide +kernel⟩

theorem wit_Regions_4 : let c := cmd 0x42 (prms [(0, 4, 9), (4, 4, 9), (8, 8, 0), (16, 8, 64), (24, 8, 64)])
    let r : Region := { inst := 5, base := 65536, size := 65536 }
    Due (asks owner c) key0 0x42 c ∧ Holds (asks owner c) c (c.p 0 4) (c.p 8 8) (c.p 24 8) r ∧
    Holds (asks owner c) c (c.p 4 4) (c.p 16 8) (c.p 24 8) r ∧ Clean (asks owner c) (r.base + c.p 8 8) (c.p 24 8) :=
  ⟨due_true (by decide +kernel), by unfold Holds Clean; decide +kernel⟩

/-- A `TABLE_WRITE` of 64 bytes to the end of region 9. -/
def puts : Cmd := cmd 0x40 (prms [(0, 4, 9), (8, 8, 65472), (16, 4, 64)])

theorem wit_TableWrite_1 : Due (asks owner puts) key0 0x40 puts ∧ puts.started = false ∧
    Holds (asks owner puts) puts (puts.p 0 4) (puts.p 8 8) (puts.p 16 4) { inst := 5, base := 65536, size := 65536 } :=
  ⟨due_true (by decide +kernel), by unfold Holds; decide +kernel⟩

/-- The write with its staging, `reqs` asked for. -/
def putting (reqs : List Xfer) (asked : Nat) : State :=
  { asks owner { puts with started := true } with
    writes := [(key0, { region := 9, off := 65472, len := 64, reserved := 64, data := zeros 64, reqs := reqs,
                        asked := asked })] }

theorem wit_TableWrite_2 : let s := putting [] 0; let c := { puts with started := true }
    Due s key0 0x40 c ∧ ∃ w, Tab.get s.writes key0 = some w ∧ w.reserved ≠ 0 ∧
    s.hostUp (Tab.at s.queues c.g).port = true ∧ 3 < 4 ∧ (∀ x ∈ w.reqs, x.xid = 3 → x.sat = true) ∧ w.asked < w.len ∧
    (w.reqs.filter fun x => !x.sat).length < 4 :=
  ⟨due_true (by decide +kernel), _, rfl, by decide +kernel⟩

/-- Data of 32 bytes (the request goes on, or ends short with `LAST`), of 64 (it ends). -/
theorem wit_TableWrite_3 : let x : Xfer := { xid := 3, off := 0, len := 64 }; let s := putting [x] 64
    let c := { puts with started := true }
    s.live = true ∧ s.hostUp 0 = true ∧ s.genOf 5 = 7 ∧ s.globalOf 5 1 = some 1025 ∧
    Tab.get s.cmds (1025 * 65536 + s.entryIndex c % 65536) = some c ∧ c.finished = false ∧ c.mgmt = false ∧
    (∃ w, Tab.get s.writes (1025 * 65536 + s.entryIndex c % 65536) = some w ∧ w.reqs = [x] ∧ x.sat = false ∧
      0 = x.off + x.got ∧ w.data.length = w.len ∧ x.off + x.len ≤ w.len ∧ w.asked = w.len ∧
      Tab.get s.regions w.region = some { inst := 5, base := 65536, size := 65536 }) ∧ Memory.wf s.mem = true ∧
    x.got + 32 < x.len ∧ x.got + 64 = x.len ∧ x.got + 32 + 32 = x.len :=
  ⟨rfl, by decide +kernel, by decide, by decide +kernel, by decide +kernel, rfl, rfl, ⟨_, rfl, by decide +kernel⟩,
    by decide, by decide, by decide, by decide⟩

theorem wit_TableWrite_4 : let s := putting [] 0; s.live = true ∧ s.hostUp 0 = true ∧ s.genOf 5 ≠ 6 := by decide +kernel

/-- The request has waited as long as `XFER_TO`, and one ns less. -/
theorem wit_TableWrite_5 : ∀ less ∈ [0, 1],
    let dest := 1000000 * owner.fld (R.MLK_CFG 0) F.MLK_CFG_XFER_TO
    let s := putting [{ xid := 3, len := 64, idle := dest - less }] 64
    s.live = true ∧ (Tab.get s.cmds key0).isSome = true ∧
    (∃ w x, Tab.get s.writes key0 = some w ∧ (w.reqs.find? fun x => x.xid == 3 && !x.sat) = some x ∧
      (less = 0 → 1000000 * s.fld (R.MLK_CFG (Tab.at s.queues 1025).port) F.MLK_CFG_XFER_TO ≤ x.idle) ∧
      (less = 1 → x.idle < 1000000 * s.fld (R.MLK_CFG (Tab.at s.queues 1025).port) F.MLK_CFG_XFER_TO)) := fun less m =>
  ⟨rfl, rfl, _, _, rfl, rfl, (by decide +kernel : ∀ less ∈ [0, 1],
    let dest := 1000000 * owner.fld (R.MLK_CFG 0) F.MLK_CFG_XFER_TO
    let s := putting [{ xid := 3, len := 64, idle := dest - less }] 64
    (less = 0 → 1000000 * s.fld (R.MLK_CFG (Tab.at s.queues 1025).port) F.MLK_CFG_XFER_TO ≤ dest - less) ∧
    (less = 1 → dest - less < 1000000 * s.fld (R.MLK_CFG (Tab.at s.queues 1025).port) F.MLK_CFG_XFER_TO)) less m⟩

/-! ### Pipelines -/

/-- A pipeline image (R424 to R436): stage 0 is one `FIXED` task of kernel 2 on slot 0, owning 64 bytes of the lantern
store; the kernel is one `HALT`; a row is one `INT8`. -/
def image : List Byte := prms [
  (0, 4, 0x49504B50), (4, 1, 1), (6, 2, 4), (8, 4, 896), (12, 4, 896), (24, 8, 0x77), (56, 4, 1907903771), (60, 4, 4270270971),
  (64, 2, 1), (66, 2, 1), (68, 4, 128), (72, 4, 256), (80, 2, 2), (82, 2, 2), (84, 4, 384), (88, 4, 392),
  (96, 2, 9), (98, 2, 3), (100, 4, 832), (112, 2, 10), (114, 2, 4), (116, 4, 832), (120, 4, 16),
  (129, 1, 4), (132, 2, 2), (134, 2, 0xFFFF), (144, 8, 1), (156, 4, 1), (162, 2, 0xFFFF), (170, 2, 0xFFFF),
  (192, 2, 0x101), (202, 6, 64), (320, 8, 2 ^ 64 - 1), (328, 8, 2 ^ 64 - 1), (336, 8, 2 ^ 64 - 1),
  (344, 8, 2 ^ 64 - 1), (352, 8, 2 ^ 64 - 1), (360, 4, 0xFFFFFFFF),
  (384, 4, 0x4B544B50), (388, 1, 1), (392, 4, 8), (400, 2, 16), (416, 8, 1024), (768, 8, 0x0EB * 2 ^ 53),
  (832, 2, 1), (834, 2, 8), (840, 1, 1)] 896

/-- CRC-32C with the register evaluated at each byte. -/
def crcForced (r : Nat) : List Byte → Nat
  | [] => r
  | b :: t => bif Nat.beq r r then crcForced (crcByte 0x82F63B78 r b) t else 0

theorem crcForced_eq (bs : List Byte) (r : Nat) : crcForced r bs = crc32cRaw r bs := by
  induction bs generalizing r with
  | nil => rfl
  | cons b t ih => simp [crcForced, ih, crc32cRaw]

theorem crc32c_forced : crc32c = fun bs => crcForced 0xFFFFFFFF bs ^^^ 0xFFFFFFFF :=
  funext fun bs => by rw [crc32c, crcForced_eq]

theorem image_ok : imageFault 0 image = none := by
  unfold imageFault headerChecks
  rw [crc32c_forced]
  decide +kernel

/-- Lantern 0 fills slot 0. -/
def lit (s : State) : State :=
  (s.setFld (R.LAN_REP_STAT 0) F.LAN_REP_STAT_FILLS 1).setFld (R.LAN_REP_STAT 0) F.LAN_REP_STAT_SLOT 0

/-- The image stands at the start of region 9, and its load is asked for. -/
def loads : Cmd := cmd 0x48 (prms [(0, 4, 9)])
def loadable : State := (lit (asks owner loads)).poke 65536 image

theorem hbmRead_plain (s : State) (a n : Nat) (h : s.foldQ = []) : s.hbmRead a n = s.peek a n := by
  simp [State.hbmRead, h]

theorem image_length : image.length = 896 := by decide +kernel

theorem loadable_image : loadable.hbmRead 65536 896 = image := by
  rw [hbmRead_plain _ _ _ rfl, loadable, ← image_length]
  exact State.peek_poke_same _ _ _ rfl

theorem cellsRead_take (m : List Host.Cell) (a n k : Nat) (h : k ≤ n) : cellsRead m a k = (cellsRead m a n).take k := by
  induction k generalizing a n with
  | zero => rfl
  | succ k ih =>
    obtain ⟨n, rfl⟩ := Nat.exists_eq_add_of_le' (Nat.lt_of_lt_of_le (Nat.succ_pos k) h)
    show cellGet m a :: cellsRead m (a + 1) k = cellGet m a :: (cellsRead m (a + 1) n).take k
    rw [ih (a + 1) n (by omega)]

theorem loadable_head : fieldAt (loadable.hbmRead 65536 64) 8 4 = 896 := by
  have e : loadable.hbmRead 65536 64 = image.take 64 := by
    rw [← loadable_image]; exact cellsRead_take loadable.mem 65536 896 64 (by decide)
  rw [e]; decide +kernel

theorem wit_Pipelines_1 : ∃ (s : State) (c : Cmd) (r : Region) (img : List Byte), Due s key0 0x48 c ∧
    Tab.get s.regions (c.p 0 4) = some r ∧ r.inst = c.inst ∧ c.p 8 8 % 64 = 0 ∧
    img = s.hbmRead (r.base + c.p 8 8) (fieldAt (s.hbmRead (r.base + c.p 8 8) 64) 8 4) ∧ c.p 8 8 + 896 ≤ r.size ∧
    fieldAt (s.hbmRead (r.base + c.p 8 8) 64) 8 4 = 896 ∧
    Clean s (r.base + c.p 8 8) 896 ∧ bitAt (fieldAt img 16 1) 0 = false ∧ s.pipeSigReq = false ∧
    imageFault s.imageMinorMax img = none ∧ s.pipeQuota c.inst img = false ∧
    s.pipes.countP (·.2.inst == c.inst) < 64 ∧ s.pipes.length < 65535 ∧ s.codeRoom img = true ∧ s.chdRoom img = true ∧
    Img.entries img 7 32 ≤ s.freeFolds.length ∧ Tab.get s.pipes 1 = none ∧ s.kernelsOk img [(0, 2, 0)] = true ∧
    s.chdsOk img [] = true ∧ Img.entries img 7 32 = 0 ∧ s.lanternOf 0 = some 0 ∧ Memory.wf s.mem = true :=
  ⟨loadable, loads, { inst := 5, base := 65536, size := 65536 }, image, due_true (by decide +kernel),
    by decide +kernel, rfl, by decide +kernel, by
      rw [show (65536 : Nat) + loads.p 8 8 = 65536 by decide +kernel, loadable_head, loadable_image],
    by decide +kernel, by rw [show (65536 : Nat) + loads.p 8 8 = 65536 by decide +kernel, loadable_head],
    by unfold Clean; decide +kernel, by decide +kernel, by decide +kernel, image_ok, by decide +kernel,
    by decide +kernel, by decide +kernel, by decide +kernel, by decide +kernel, by decide +kernel, rfl,
    by decide +kernel, by decide +kernel, by decide +kernel, by decide +kernel, State.poke_wf _ _ _ rfl⟩

/-- Pipeline 1 of instance 5 is loaded; lantern 0 serves slot 0. -/
def piped (s : State) : State :=
  { lit s with pipes := [(1, { inst := 5, gen := 7, img := image, imageId := 0x77, kernels := [(0, 2, 0)] })] }

/-- A run of it that `QUERY_RUN` `key0 + 1` started. -/
def run0 : Run := { tag := 3, pipe := 1, inst := 5, gen := 7, resultG := 1026, st := 1, stages := [{}] }

theorem wit_Pipelines_2 : let c := cmd 0x49 (prms [(0, 2, 1)])
    (Due (piped (asks owner c)) key0 0x49 c ∧ (Tab.at (piped (asks owner c)).pipes (c.p 0 2)).inst = c.inst ∧
      (piped (asks owner c)).pipeBusy c.inst (c.p 0 2) = false) ∧
    (let s := { piped (asks owner c) with runs := [(key0 + 1, run0)] }
     Due s key0 0x49 c ∧ (Tab.at s.pipes (c.p 0 2)).inst = c.inst ∧ s.pipeBusy c.inst (c.p 0 2) = true) :=
  ⟨⟨due_true (by decide +kernel), by decide +kernel⟩, due_true (by decide +kernel), by decide +kernel⟩

theorem wit_Census_1 : let c := cmd 0x01 (prms [(0, 8, 2 ^ 64 - 4096)])
    Due (asks owner c) key0 0x01 c ∧ c.started = false ∧ c.p 0 8 + 4096 = 2 ^ 64 :=
  ⟨due_true (by decide +kernel), by decide +kernel⟩

/-- `GET_LOG` of a journal with one record of instance 5 (`SEQ` 0), from `SEQ` 0 and from `SEQ` 1. -/
theorem wit_Census_2 : ∀ frm ∈ [0, 1], let c := cmd 0x08 (prms [(0, 1, 1), (8, 8, frm), (16, 4, 1), (24, 8, 2 ^ 64 - 64)])
    let s : State := { asks owner c with journal := [padTo (zeros 22 ++ le 5 2) 64] }
    Due s key0 0x08 c ∧ c.started = false ∧ c.p 24 8 + 64 * 1 ≤ 2 ^ 64 ∧ c.p 24 8 ≤ 2 ^ 64 ∧
    (frm = 0 → (((s.logRecords (c.p 0 1) c.inst).filter fun r => c.p 8 8 ≤ r.1).take (c.p 16 4)).length = 1 ∧
      (∀ r ∈ s.logRecords (c.p 0 1) c.inst, r.2.length = 64)) ∧
    (frm = 1 → (∀ r ∈ s.logRecords (c.p 0 1) c.inst, r.1 < c.p 8 8) ∧
      (s.held.any fun h => h.what == .data key0) = false) := fun frm m =>
  ⟨due_true ((by decide +kernel : ∀ frm ∈ [0, 1],
      let c := cmd 0x08 (prms [(0, 1, 1), (8, 8, frm), (16, 4, 1), (24, 8, 2 ^ 64 - 64)])
      let s : State := { asks owner c with journal := [padTo (zeros 22 ++ le 5 2) 64] }
      due s key0 0x08 c = true) frm m),
    (by decide +kernel : ∀ frm ∈ [0, 1],
      let c := cmd 0x08 (prms [(0, 1, 1), (8, 8, frm), (16, 4, 1), (24, 8, 2 ^ 64 - 64)])
      let s : State := { asks owner c with journal := [padTo (zeros 22 ++ le 5 2) 64] }
      c.started = false ∧ c.p 24 8 + 64 * 1 ≤ 2 ^ 64 ∧ c.p 24 8 ≤ 2 ^ 64 ∧
      (frm = 0 → (((s.logRecords (c.p 0 1) c.inst).filter fun r => c.p 8 8 ≤ r.1).take (c.p 16 4)).length = 1 ∧
        (∀ r ∈ s.logRecords (c.p 0 1) c.inst, r.2.length = 64)) ∧
      (frm = 1 → (∀ r ∈ s.logRecords (c.p 0 1) c.inst, r.1 < c.p 8 8) ∧
        (s.held.any fun h => h.what == .data key0) = false)) frm m⟩

theorem wit_Census_3 : let c := cmd 0x06 (prms [(0, 1, 1), (8, 8, 2 ^ 64 - 64), (16, 4, 64)])
    Due (asks owner c) key0 0x06 c ∧ c.started = false ∧ c.p 0 1 = 1 ∧ c.p 4 4 = 0 ∧ c.p 16 4 = 64 ∧
    c.p 8 8 + 64 = 2 ^ 64 := ⟨due_true (by decide +kernel), by decide +kernel⟩

/-! ### Runs and stages -/

/-- The pipeline with a RESULT ring `q`, as queue 1,026. -/
def resulting (img : List Byte) (q : Queue) : State :=
  { lit (twoQueues { q with typ := 2 }) with
    pipes := [(1, { inst := 5, gen := 7, img := img, imageId := 0x77, kernels := [(0, 2, 0)] })] }

/-- The run's queue is a RESULT ring, and a COMMAND queue. -/
theorem wit_RunStart_1 : ∀ loc ∈ [2, 1], let c := cmd 0x4A (prms [(0, 2, 1), (2, 2, loc)] 600)
    let s := asks (resulting image ring) c
    Due s key0 0x4A c ∧ c.started = false ∧ (Tab.get s.pipes (c.p 0 2)).isSome = true ∧
    (Tab.at s.pipes (c.p 0 2)).inst = c.inst ∧ (s.globalOf c.inst (c.p 2 2)).isSome = true ∧
    (loc = 2 → (Tab.at s.queues ((s.globalOf c.inst (c.p 2 2)).getD 0)).typ = 2) ∧
    (loc = 1 → (Tab.at s.queues ((s.globalOf c.inst (c.p 2 2)).getD 0)).typ ≠ 2) := fun loc m =>
  ⟨due_true ((by decide +kernel : ∀ loc ∈ [2, 1], let c := cmd 0x4A (prms [(0, 2, 1), (2, 2, loc)] 600)
      due (asks (resulting image ring) c) key0 0x4A c = true) loc m),
    (by decide +kernel : ∀ loc ∈ [2, 1], let c := cmd 0x4A (prms [(0, 2, 1), (2, 2, loc)] 600)
      let s := asks (resulting image ring) c
      c.started = false ∧ (Tab.get s.pipes (c.p 0 2)).isSome = true ∧
      (Tab.at s.pipes (c.p 0 2)).inst = c.inst ∧ (s.globalOf c.inst (c.p 2 2)).isSome = true ∧
      (loc = 2 → (Tab.at s.queues ((s.globalOf c.inst (c.p 2 2)).getD 0)).typ = 2) ∧
      (loc = 1 → (Tab.at s.queues ((s.globalOf c.inst (c.p 2 2)).getD 0)).typ ≠ 2)) loc m⟩

/-- A run under the key of its `QUERY_RUN`. -/
def running (img : List Byte) (r : Run) : State := { resulting img ring with runs := [(key0, r)] }

/-- A queued run whose deadline is to come, and one whose deadline is now. -/
theorem wit_RunStart_2 : let r : Run := { run0 with st := 0, stages := [], deadline := 1 }; let s := running image r
    s.serving = true ∧ Tab.get s.runs key0 = some r ∧ r.st = 0 ∧ r.failing = false ∧ s.runWaits key0 = false ∧
    s.now < r.deadline ∧ s.runOffence (Tab.at s.cmds key0) r image = none ∧
    s.heldMem r.inst + total ((Img.areas image).map (·.2.2)) ≤ s.capOf r.inst 2 ∧
    (let u := s.setRun key0 fun r => { r with st := 1, startT := s.now, stages := List.replicate (Img.stages image) {} }
     match ((u.takeAreas key0 (Img.areas image) []).bind fun t =>
        (t.takeScans key0 r.scans []).bind fun t => t.takeFolds key0 (Tab.at s.pipes r.pipe).foldTabs []) with
     | .ok _ => true | .error _ => false) = true := by decide +kernel

theorem wit_RunStart_3 : let r : Run := { run0 with st := 0, stages := [], deadline := 1 }
    let s := { running image r with tb := { now := 1 } }
    s.serving = true ∧ Tab.get s.runs key0 = some r ∧ r.st = 0 ∧ r.failing = false ∧ s.runWaits key0 = false ∧
    0 < r.deadline ∧ r.deadline ≤ s.now ∧ ∀ e ∈ s.ctxs, e.2.run = key0 → e.2.foldOut = 0 := by decide +kernel

theorem wit_Stages_1 : let s := running image run0
    s.live = true ∧ run0.st = 1 ∧ run0.failing = false ∧ 0 < run0.stages.length ∧ (run0.stages.getD 0 {}).st = 0 ∧
    (run0.stages.getD 0 {}).created = 0 ∧ run0.waitsOver image 0 = true ∧ Img.st image 0 1 1 = 4 ∧
    [(4, 0)].length = min (Img.st image 0 28 4) (2097152 - s.ctxs.length) ∧ Tab.get s.ctxs 4 = none ∧
    0 ∈ Img.slots image 0 ∧ (s.lanternOf 0).isSome = true := by decide +kernel

/-- A stage that waits on one that is not complete. -/
theorem wit_Stages_2 : run0.waitsOver (patch image 136 [2]) 0 = false := by decide +kernel

/-- Stage 0 has its one task COMMITTED; then it stands at its barrier. -/
def ended (barrier : Bool) : Run := { run0 with stages := [{ st := 1, total := 1, created := 1, committed := 1, barrier := barrier }] }

theorem wit_Stages_3 : ∀ b ∈ [false, true], let s := running image (ended b)
    s.serving = true ∧ (ended b).st = 1 ∧ (ended b).failing = false ∧ 0 < (ended b).stages.length ∧
    ((ended b).stages.getD 0 {}).created = ((ended b).stages.getD 0 {}).total ∧ s.stageTasksDone key0 0 = true ∧
    s.foldsFinished key0 0 = true ∧ ((ended b).stages.getD 0 {}).barrier = b ∧ Img.emit image 0 = false ∧
    (ended b).released image 0 = [] ∧ ((ended b).stages.getD 0 {}).loads = [] ∧ s.loadsAt key0 0 = [] := by
  decide +kernel

/-- `CanFail`, as a computation. -/
def canFail (s : State) (key : Nat) (r : Run) : Bool :=
  Tab.get s.runs key == some r && r.st != 3 && !r.failing && s.ctxs.all fun e => e.2.run != key || e.2.foldOut == 0

theorem canFail_true {s : State} {key : Nat} {r : Run} (h : canFail s key r = true) : CanFail s key r := by
  simp only [canFail, Bool.and_eq_true, beq_iff_eq, bne_iff_ne, Bool.not_eq_true', List.all_eq_true, Bool.or_eq_true] at h
  obtain ⟨⟨⟨h1, h2⟩, h3⟩, h4⟩ := h
  exact ⟨h1, ⟨h2, h3⟩, fun e m k => (h4 e m).resolve_left fun n => n k⟩

/-- A run on queue 1 of the instance, whose key names that queue. -/
theorem wit_RunEnds_1 : let c := cmd 0x4B (prms [(0, 2, 1), (2, 2, 3)])
    let s : State := { asks (resulting image ring) c with runs := [(key0 + 1, run0)] }
    Due s key0 0x4B c ∧ s.globalOf c.inst (c.p 0 2) = some 1025 ∧ s.runOfTag 1025 (c.p 2 2) = some (key0 + 1, run0) ∧
    key0 + 1 ≠ key0 ∧ CanFail s (key0 + 1) run0 ∧ run0.st ≠ 3 :=
  ⟨due_true (by decide +kernel), by decide +kernel, by decide +kernel, by decide,
    ⟨by decide +kernel, by decide, by decide +kernel⟩, by decide⟩

theorem wit_RunEnds_2 : let c := cmd 0x4B (prms [(0, 2, 1), (2, 2, 3)]); let s := asks (resulting image ring) c
    Due s key0 0x4B c ∧ s.globalOf c.inst (c.p 0 2) = some 1025 ∧ s.runOfTag 1025 (c.p 2 2) = none ∧
    s.queuedRun 1025 (c.p 2 2) = none := ⟨due_true (by decide +kernel), by decide +kernel⟩

theorem wit_RunEnds_3 : let c := cmd 0x4C (prms [(0, 2, 1), (2, 2, 3), (8, 8, 2 ^ 64 - 64)])
    let s := asks (resulting image ring) c
    Due s key0 0x4C c ∧ c.started = false ∧ s.globalOf c.inst (c.p 0 2) = some 1025 ∧ c.p 8 8 + 64 = 2 ^ 64 ∧
    s.runOfTag 1025 (c.p 2 2) = none ∧ s.queuedRun 1025 (c.p 2 2) = none ∧
    ({ s with runs := [(key0 + 1, run0)] } : State).runOfTag 1025 (c.p 2 2) = some (key0 + 1, run0) :=
  ⟨due_true (by decide +kernel), by decide +kernel⟩

theorem wit_RunEnds_4 : ∀ t ∈ [4, 5], let r : Run := { run0 with deadline := 5 }
    let s := { running image r with tb := { now := t } }
    s.live = true ∧ s.crank.gap = false ∧ canFail s key0 r = true ∧ r.st ≠ 0 ∧ r.endWritten = false ∧ 0 < r.deadline ∧
    (t = 5 → r.deadline ≤ s.now) ∧ (t = 4 → s.now < r.deadline) := by decide +kernel

/-- A stage that emits (`FLAGS` bit 1): a COMMITTED task of it with one row of 8 bytes. -/
def emitting : List Byte := patch image 131 [2]
def delivered (q : Queue) (r : Run) : State :=
  { resulting emitting q with
    runs := [(key0, r)],
    ctxs := [(4, { st := .committed, inst := 5, gen := 7, pipe := 1, run := key0, emit := le 5 8 })] }

/-- A ring with room for the two slots of the entry, and one with room for one slot. -/
theorem wit_Results_1 : ∀ prod ∈ [14, 15], let r : Run := { run0 with deliver := [4] }
    let s := delivered { ring with prod := prod } r; let q := Tab.at s.queues 1026; let c := Tab.at s.ctxs 4
    s.serving = true ∧ Tab.get s.runs key0 = some r ∧ r.st = 1 ∧ r.failing = false ∧ q.st = .enabled ∧ r.cont = none ∧
    r.deliver.find? (s.mayDeliver key0) = some 4 ∧ (Tab.get s.ctxs 4).isSome = true ∧ r.rowLimit = 0 ∧
    0 < fitting r emitting (piecesOf (Img.rowLen emitting) c.emit) ∧
    (let e := entryBytes r (0xA0 + r.delivery) 0 (fitting r emitting (piecesOf (Img.rowLen emitting) c.emit)) c.taskNo 0
      (s.payload r emitting c.stage ((piecesOf (Img.rowLen emitting) c.emit).take
        (fitting r emitting (piecesOf (Img.rowLen emitting) c.emit))))
     (prod = 14 → e.length / 64 = q.room) ∧ (prod = 15 → q.room < e.length / 64)) := by decide +kernel

theorem wit_Results_2 : let r : Run := { run0 with cont := some (0, zeros 64) }; let s := running image r
    let q := Tab.at s.queues 1026
    s.serving = true ∧ r.st = 1 ∧ r.failing = false ∧ q.st = .enabled ∧ (zeros 64).length ≤ 64 * r.batch - 64 ∧
    (entryBytes r (0xA0 + r.delivery) 0 0 0 0 (zeros 64)).length / 64 ≤ q.room := by decide +kernel

theorem wit_Results_3 : let r : Run := { run0 with stages := [{ st := 2, total := 1, created := 1, committed := 1 }] }
    let s := { running image r with queues := [(1026, { ring with loc := 2, typ := 2, prod := 15 })] }
    s.serving = true ∧ r.st = 1 ∧ r.failing = false ∧ s.runOver key0 = true ∧ r.endIssued = false ∧
    (Tab.at s.queues 1026).st = .enabled ∧ (Tab.at s.queues 1026).room = 1 := by decide +kernel

/-- A run stalled for as long as its `STALL`, without and with `HOLD`. -/
theorem wit_Results_4 : ∀ hold ∈ [false, true], let r : Run := { run0 with stall := 1, stallSince := some 0, hold := hold }
    let s := { running image r with tb := { mono := 1000000 } }
    s.serving = true ∧ canFail s key0 r = true ∧ r.st = 1 ∧ s.stallOver r = true ∧ (∀ e ∈ s.ctxs, e.2.run ≠ key0) ∧
    s.runningRanges key0 = [] ∧ s.heldMem r.inst ≤ s.capOf r.inst 2 := by decide +kernel

/-- A suspended run whose ring has a quarter of its slots free, and one slot less. -/
theorem wit_Results_5 : ∀ prod ∈ [12, 13], let r : Run := { run0 with st := 2 }
    let s := { running image r with queues := [(1026, { ring with loc := 2, typ := 2, prod := prod })] }
    s.serving = true ∧ r.st = 2 ∧ r.failing = false ∧ r.saved = [] ∧
    (prod = 12 → (Tab.at s.queues r.resultG).n = 4 * (Tab.at s.queues r.resultG).room) ∧
    (prod = 13 → 4 * (Tab.at s.queues r.resultG).room < (Tab.at s.queues r.resultG).n) := by decide +kernel

/-- A task DISCARDED by a suspension. -/
theorem wit_Results_6 : let c : Ctx := { st := .discarded, run := key0 }
    let s : State := { running image { run0 with st := 2 } with ctxs := [(4, c)] }
    Tab.get s.ctxs 4 = some c ∧ c.run = key0 ∧ c.st = .discarded ∧ s.serving = true := by decide +kernel

/-! ### Tasks -/

/-- The run's stage owns no window. -/
def ownless : List Byte := patch image 193 [0]

/-- Tasks of stage 0 of the run, their contexts from 4 on; context 4 is listed on slot 0. -/
def tasks (img : List Byte) (cs : List Ctx) : State :=
  { running img { run0 with stages := [{ st := 1, total := cs.length, created := cs.length }] } with
    ctxs := cs.zipIdx.map fun c => (4 + c.2, { c.1 with inst := 5, gen := 7, pipe := 1, run := key0 }),
    ready := [(0, [4])] }

theorem wit_Dispatch_1 : let s := (tasks image [{ st := .ready }]).setFld R.DRL_CTL F.DRL_CTL_EN 1
    let c := Tab.at s.ctxs 4
    s.live = true ∧ s.bit R.DRL_CTL F.DRL_CTL_EN = true ∧ s.wickFree 0 = true ∧ (Tab.get s.ctxs 4).isSome = true ∧
    c.st = .ready ∧ s.slotOf (0 / 17) = some 0 ∧ s.mayChoose 0 4 = true ∧ (Tab.get s.runs c.run).isSome = true ∧
    Memory.wf s.mem = true ∧
    (Tab.at s.pipes 1).kernels.find? (fun k => k.1 == 0 && k.2.1 == Img.st image c.stage 4 2) = some (0, 2, 0) ∧
    (match s.ladderOf 4 0 with | some none => true | _ => false) = true := by decide +kernel

/-- A task of instance 5 is over its share; instance 6, below its own, has a task listed on the slot. -/
def unfair : State :=
  let s := ((tasks image [{ st := .running, prio := 1 }, { st := .ready }]).setFld R.DRL_CTL F.DRL_CTL_EN 1).setFld
    R.DRL_CTL F.DRL_CTL_PREEMPT_EN 1
  { s with
    cog := 2 ^ 20, ready := [(0, [5])],
    insts := [(5, { st := 1, cls := 1, gen := 7, lastShare := 1 }), (6, { st := 1, cls := 1, gen := 7, wicks := 1 })],
    ctxs := Tab.upd s.ctxs 5 fun c => { c with inst := 6 },
    wicks := [(0, { st := 1, ctx := 4, preempt := true, atPoint := true, waxSlots := 1 })] }

theorem wit_Dispatch_2 : unfair.live = true ∧ unfair.preemptDue 0 = true ∧ (unfair.wick 0).settled = true ∧
    Tab.get unfair.saves 1 = none ∧ (Tab.get unfair.ctxs (unfair.wick 0).ctx).isSome = true ∧
    Memory.wf unfair.mem = true := by decide +kernel

theorem wit_Dispatch_3 : let k : Wick := { ctx := 4, waxSlots := 4096 }
    let s := { (tasks image [{ st := .preempted, save := 1, saved := true }]).setFld R.DRL_CTL F.DRL_CTL_EN 1 with
               saves := [(1, k)] }
    s.live = true ∧ s.bit R.DRL_CTL F.DRL_CTL_EN = true ∧ s.wickFree 0 = true ∧ (Tab.get s.ctxs 4).isSome = true ∧
    (Tab.at s.ctxs 4).st = .preempted ∧ s.slotOf (0 / 17) = some 0 ∧ (Tab.at s.ctxs 4).slot = 0 ∧
    s.mayChoose 0 4 = true ∧ Tab.get s.saves (Tab.at s.ctxs 4).save = some k ∧ k.ctx = 4 ∧ k.waxSlots ≤ 4096 ∧
    Memory.wf s.mem = true := by decide +kernel

/-- An ENDED run of an old generation, a failed one, and one that passes; one whose chunk is not yet verified. -/
theorem wit_Commit_1 : let s := { tasks image [{ st := .ended }] with insts := [(5, { st := 1, gen := 8 })] }
    s.serving = true ∧ s.crank.gap = false ∧ (Tab.at s.ctxs 4).st = .ended ∧
    (Tab.at s.ctxs 4).gen ≠ s.genOf (Tab.at s.ctxs 4).inst := by decide +kernel

theorem wit_Commit_2 : let s := tasks image [{ st := .ended, failed := 0x0405 }]; let c := Tab.at s.ctxs 4
    s.serving = true ∧ s.crank.gap = false ∧ c.st = .ended ∧ c.gen = s.genOf c.inst ∧ 1 < c.failed ∧
    canFail s c.run (Tab.at s.runs c.run) = true := by decide +kernel

/-- A block that the run has filled. -/
def filled (st : Nat) : Block := { run := key0, task := 4, st := st, dev := 0 }

theorem wit_Commit_3 : let s := { tasks image [{ st := .ended, chunks := [1] }] with
      ledger := [(1, { run := key0, st := 1 })], blocks := [(0x1000, filled 1)] }
    let c := Tab.at s.ctxs 4
    s.serving = true ∧ s.crank.gap = false ∧ c.st = .ended ∧ c.gen = s.genOf c.inst ∧ c.failed = 0 ∧ s.wickOf 4 = none ∧
    s.recordsOut 4 c.epoch = false ∧ (Tab.at s.ledger 1).st = 1 ∧ s.gatePassed c = true ∧ c.peers = [] ∧
    (s.blocks.map (·.1)).Nodup ∧ (Tab.at s.blocks 0x1000).task = 4 ∧ (Tab.at s.blocks 0x1000).dev = s.ownDev ∧
    (Tab.at s.blocks 0x1000).epoch = c.epoch ∧ (Tab.at s.blocks 0x1000).st = 1 := by decide +kernel

theorem wit_Commit_4 : let s := { tasks image [{ st := .ended, chunks := [1] }] with ledger := [(1, { run := key0 })] }
    let c := Tab.at s.ctxs 4
    s.serving = true ∧ c.st = .ended ∧ c.gen = s.genOf c.inst ∧ c.failed = 0 ∧ s.wickOf 4 = none ∧
    s.recordsOut 4 c.epoch = false ∧ (Tab.at s.ledger 1).st = 0 := by decide +kernel

theorem wit_Commit_5 : let s := { tasks (patch ownless 131 [2]) [{ st := .passed, emit := le 5 8, folds := [{ body := zeros 64 }] }] with
      blocks := [(0x1000, filled 2)] }
    let c := Tab.at s.ctxs 4; let img := s.imgOf (Tab.at s.runs c.run)
    s.serving = true ∧ s.crank.gap = false ∧ c.st = .passed ∧ (Tab.get s.runs c.run).isSome = true ∧
    Img.owned img c.stage = [] ∧ s.outputDirty 4 = false ∧ Img.emitting img c.stage = true ∧ c.emit ≠ [] ∧
    (s.blocks.map (·.1)).Nodup ∧ (Tab.at s.blocks 0x1000).task = 4 ∧ (Tab.at s.blocks 0x1000).dev = s.ownDev ∧
    (Tab.at s.blocks 0x1000).epoch = c.epoch ∧ (Tab.at s.blocks 0x1000).st = 2 := by decide +kernel

theorem wit_Slots_1 : let s := tasks image [{ st := .passed }, { st := .passed, taskNo := 1 }]; let r := Tab.at s.runs key0
    s.serving = true ∧ s.crank.gap = false ∧ r.failing = false ∧ Img.owned (s.imgOf r) 0 ≠ [] ∧ 0 < r.stages.length ∧
    (r.stages.getD 0 {}).created = (r.stages.getD 0 {}).total ∧ s.openOn key0 0 0 ≠ [] ∧
    (∀ i ∈ s.openOn key0 0 0, (Tab.at s.ctxs i).st = .passed ∧ s.outputDirty i = false) := by decide +kernel

/-- A running task, and one that has ended, in epoch 254. -/
theorem wit_Slots_2 : let s := tasks image [{ st := .running, epoch := 254 }, { st := .ended, taskNo := 1, epoch := 254 }]
    let r := Tab.at s.runs key0
    s.live = true ∧ r.st = 1 ∧ r.failing = false ∧ Img.owned (s.imgOf r) 0 ≠ [] ∧ (s.ctxs.map (·.1)).Nodup ∧
    (Tab.at s.ctxs 4).run = key0 ∧ (Tab.at s.ctxs 4).stage = 0 ∧ (Tab.at s.ctxs 4).slot = 0 ∧
    (Tab.at s.ctxs 4).st = .running ∧ (∀ e ∈ s.ctxs, e.2.run = key0 → e.2.epoch < 255) ∧ (Tab.at s.ctxs 5).st = .ended := by
  decide +kernel

theorem wit_Slots_3 : ∀ st ∈ [TState.ready, .running, .passed], let s := tasks ownless [{ st := st, epoch := 254 }]
    let c := Tab.at s.ctxs 4
    s.live = true ∧ (Tab.get s.ctxs 4).isSome = true ∧ s.mayMove 4 0 = true ∧
    Img.owned (s.imgOf (Tab.at s.runs c.run)) c.stage = [] ∧ c.st = st ∧ c.epoch < 255 := by decide +kernel

theorem wit_Slots_4 : let s := { tasks ownless [{ st := .running }] with wicks := [(0, { st := 1, ctx := 4 })] }
    s.wickOf 4 = some 0 := by decide +kernel

/-- A stalled no-operation, with one cycle of its budget left after the stall. -/
def stalls (k : Wick) (w : Nat) : State :=
  let s := withTask (onWick [w, 0] { k with stalled := true })
  { s with wicks := [(0, { s.wick 0 with budget := 100 })] }

theorem wit_WickEvents_1 : let s := stalls { cycles := 50 } 0
    let u : State := { s with wicks := Tab.put s.wicks 0 { s.wick 0 with stalled := false } }
    (s.wick 0).stalled = true ∧ (s.wick 0).cycles + 49 < (s.wick 0).budget ∧ Follows (s.wick 0) ∧
    Issues u 0 [front u] ∧ (front u).op = 0x000 :=
  ⟨rfl, by decide, .inr ⟨.inl rfl, by show (0 : Nat) ≤ 8 ∧ 8 < 16; decide⟩, issues_true (by decide +kernel),
    by decide +kernel⟩

/-- A `MOV` from input port 0, which is empty while the Reservoir has more. -/
theorem wit_WickEvents_2 : let k : Wick := { ports := [{ num := 0, base := 8, len := 2 }], job := some {} }
    let s := stalls k (long 0x001 1 0 (5 * 2 ^ 14))
    let hs := match decodeWord (env s 0) (s.codeWord 0 (s.wick 0).pc) with | .ok l => l | .error _ => []
    s.live = true ∧ (s.wick 0).st = 1 ∧ (s.wick 0).stalled = true ∧ (s.wick 0).cycles + 5 < (s.wick 0).budget ∧ hs ≠ [] ∧
    (∃ x ∈ takesOf hs, ((s.wick 0).port x.1).filled ≤ x.2) ∧
    (∀ x ∈ takesOf hs, ((s.wick 0).port x.1).filled ≤ x.2 → (s.wick 0).partnerMore x.1 = true) := by decide +kernel

theorem wit_WickEvents_3 : let s := stalls { cycles := 50 } 0
    s.live = true ∧ (s.wick 0).st = 1 ∧ (s.wick 0).stalled = true ∧ (s.wick 0).budget = (s.wick 0).cycles + 50 ∧
    (s.wick 0).repKind ≠ 1 ∧ (Tab.get s.ctxs (s.wick 0).ctx).isSome = true := by decide +kernel

theorem wit_WickEvents_4 : ∀ sh ∈ [0, 1], let l : FarLoad := { ea := 64, addrs := [lstoreKey 0 0], shadow := sh, got := [none] }
    let s := onWick [0, 0] { loads := [l] }
    s.live = true ∧ (s.wick 0).loads = [l] ∧ l.arrived = false ∧ l.addrs = [lstoreKey 0 0] ∧ l.wid = 32 ∧ l.got = [none] ∧
    l.hbm = false ∧ Memory.wf s.mem = true ∧ (sh = 0 → l.shadow = 0) ∧ (sh = 1 → 0 < l.shadow) := by decide +kernel

/-! ### Time -/

/-- A time base in a state (`TB_STAT.STATE`), its time valid, its reference good, `CLEAN` at 3, slewing allowed. -/
def timed (st : Nat) (tb : TimeBase) : State :=
  let s : State := { tenant ring with tb := tb }
  ((((s.setFld R.TB_STAT F.TB_STAT_STATE st).setFld R.TB_STAT F.TB_STAT_TIME_VALID 1).setFld R.TB_STAT F.TB_STAT_REF_OK 1).setFld
    R.TB_STAT F.TB_STAT_CLEAN 3).setFld R.TB_CTL F.TB_CTL_SLEW_EN 1

theorem wit_Time_1 : let s := timed 1 {}
    s.pins.pwrgood = true ∧ s.ras.frozen = false ∧ s.boot.tripped = false ∧ s.bit R.TB_STAT F.TB_STAT_REF_SEL = false ∧
    (99 ≤ 101 ∧ 101 ≤ 101) ∧ ¬(99 ≤ 98) ∧ s.bit R.TB_STAT F.TB_STAT_REF_OK = true ∧
    (s.fld R.TB_STAT F.TB_STAT_STATE = 1 ∨ s.fld R.TB_STAT F.TB_STAT_STATE = 2) := by decide +kernel

theorem wit_Time_2 : let s := (timed 0 { refKnown := true, lostFor := 1500000000 }).setFld R.TB_STAT F.TB_STAT_REF_OK 0
    s.fld R.TB_STAT F.TB_STAT_STATE = 0 ∧ s.tb.refKnown = true ∧ s.bit R.TB_STAT F.TB_STAT_REF_OK = false ∧
    1500000000 ≤ s.tb.lostFor ∧ s.pins.pwrgood = true := by decide +kernel

theorem wit_Time_3 : let s := timed 2 { sinceEdge := 1500000000 }
    s.fld R.TB_STAT F.TB_STAT_STATE = 2 ∧ 1500000000 ≤ s.tb.sinceEdge ∧ s.pins.pwrgood = true := by decide +kernel

/-- Pulses of 12 and of 13 samples; edges one ns too early and just late enough after the last one. -/
theorem wit_Time_4 : let s := timed 1 { now := 3000000000, lastEdge := some 1000000000 }
    s.pins.pwrgood = true ∧ 0 < 12 ∧ 12 < 13 ∧ 1899999999 ≤ s.now ∧ s.tb.lastEdge = some 1000000000 ∧
    1899999999 < 1000000000 + 900000000 := by decide +kernel

/-- Residues at the ends of the slew ranges. -/
theorem wit_Time_5 : ∀ stamp ∈ [2100000000, 2100000001, 2899999999, 2900000000],
    let s := timed 1 { now := 3000000000, lastEdge := some 1000000000 }
    stamp ≤ s.now ∧ (∀ l ∈ s.tb.lastEdge, l + 900000000 ≤ stamp) ∧ s.tb.tset = none ∧
    s.bit R.TB_STAT F.TB_STAT_TIME_VALID = true ∧ s.fld R.TB_STAT F.TB_STAT_STATE ≠ 2 ∧
    s.bit R.TB_CTL F.TB_CTL_SLEW_EN = true := by decide +kernel

theorem wit_Time_6 : let s := (timed 0 { now := 499999999 }).setFld R.TB_STAT F.TB_STAT_TIME_VALID 0
    s.tb.lastEdge = none ∧ s.tb.tset = none ∧ s.bit R.TB_STAT F.TB_STAT_TIME_VALID = false ∧
    0 < 499999999 % 1000000000 ∧ 499999999 % 1000000000 < 500000000 ∧ 499999999 ≤ s.now ∧ s.now < 2 ^ 64 := by decide +kernel

theorem wit_Time_7 : ∀ stamp ∈ [1999000000, 2001000000],
    let s := timed 0 { now := 3000000000, lastEdge := some 1000000000 }
    s.tb.lastEdge = some 1000000000 ∧ 1000000000 + 999000000 ≤ stamp ∧ stamp ≤ 1000000000 + 1001000000 ∧
    s.tb.dirty = false ∧ s.tb.tset = none ∧ s.bit R.TB_STAT F.TB_STAT_REF_OK = true ∧
    3 ≤ s.fld R.TB_STAT F.TB_STAT_CLEAN ∧ s.fld R.TB_STAT F.TB_STAT_CLEAN ≤ 4 ∧
    s.bit R.TB_CTL F.TB_CTL_FORCE_HOLD = false := by decide +kernel

theorem wit_Time_8 : ∀ d ∈ [(1 : Int), -1], let s := timed 1 { slewCycles := 39999, slew := d }
    39999 ≤ s.tb.slewCycles ∧ s.fld R.TB_STAT F.TB_STAT_STATE ≠ 2 ∧ s.bit R.TB_CTL F.TB_CTL_SLEW_EN = true ∧
    s.bit R.TB_STAT F.TB_STAT_TIME_VALID = true ∧ (d = 1 → 0 < s.tb.slew) ∧ (d = -1 → s.tb.slew < 0) := by decide +kernel

theorem wit_Time_9 : let s := timed 1 { oscNs := 1000000000 }
    s.bit R.TB_STAT F.TB_STAT_REF_OK = true ∧ 1000000000 ≤ s.tb.oscNs ∧ (-524287 : Int) ≤ 524287 ∧
    (524287 : Int) < 524288 ∧ (-524288 : Int) < -524287 := by decide +kernel

/-- `TIME_SET` to the second 1, to a time that is no whole second, and behind another. -/
theorem wit_TimeSet_1 : ∀ e ∈ [(1000000000, false), (1000000000, true), (1000000001, false), (0, false)],
    let c := cmd 0x1E (prms [(0, 8, e.1)])
    let s : State := { asks (tenant ring) c with tb := { tset := if e.2 then some (0, 0, 0) else none } }
    due s key0 0x1E c = true ∧ c.started = false ∧
    (e = (1000000000, false) → c.p 0 8 % 1000000000 = 0 ∧ 1000000000 ≤ c.p 0 8 ∧ s.tb.tset = none) ∧
    (e = (1000000000, true) → c.p 0 8 % 1000000000 = 0 ∧ 1000000000 ≤ c.p 0 8 ∧ s.tb.tset.isSome = true) ∧
    (e = (1000000001, false) → c.p 0 8 % 1000000000 ≠ 0) ∧ (e = (0, false) → c.p 0 8 < 1000000000) := by decide +kernel

/-- A pending `TIME_SET`, 3 s old and one ns less; an edge one TB cycle after it came. -/
theorem wit_TimeSet_2 : ∀ mono ∈ [3000000000, 2999999999, 4], let c := { cmd 0x1E (prms [(0, 8, 1000000000)]) with started := true }
    let s : State := { asks (tenant ring) c with tb := { tset := some (1000000000, key0, 0), mono := mono } }
    s.pins.pwrgood = true ∧ s.ras.frozen = false ∧ s.boot.tripped = false ∧ s.tb.tset = some (1000000000, key0, 0) ∧
    Tab.get s.cmds key0 = some c ∧ (mono = 3000000000 → 0 + 3000000000 ≤ s.tb.mono) ∧
    (mono = 2999999999 → s.tb.mono < 0 + 3000000000) ∧
    (mono = 4 → s.now ≤ s.now ∧ s.tb.lastEdge = none ∧ 0 + 4 + (s.now - s.now) ≤ s.tb.mono) := by decide +kernel

/-- A cog is due (a DELAYED task with it), and one ns is missing; the load window ends. -/
theorem wit_Cog_1 : ∀ less ∈ [0, 1], let p := State.reset.fld R.DRL_COGCFG F.DRL_COGCFG_PERIOD
    let s : State := { tasks image [{ st := .delayed, due := 1 }] with
                       tb := { cogNs := p - less, winCogs := State.reset.fld R.DRL_COGCFG F.DRL_COGCFG_LOADWIN },
                       delay := [(0, [(1, 4)])] }
    s.live = true ∧ (less = 0 → s.fld R.DRL_COGCFG F.DRL_COGCFG_PERIOD ≤ s.tb.cogNs) ∧
    (less = 1 → s.tb.cogNs < s.fld R.DRL_COGCFG F.DRL_COGCFG_PERIOD) ∧ Tab.at s.delay 0 = [(1, 4)] ∧
    isDue ((s.cog + 1) % 2 ^ 32) 1 = true ∧ isDue ((s.cog + 1) % 2 ^ 32) 2 = false ∧ (Tab.get s.ctxs 4).isSome = true ∧
    s.fld R.DRL_COGCFG F.DRL_COGCFG_LOADWIN ≤ s.tb.winCogs := by decide +kernel

/-- Periods at and beyond their limits, no task delayed; then one delayed. -/
theorem wit_Cog_2 : let s := tenant ring; let v p := p + 2 ^ 20
    s.live = true ∧ (∀ e ∈ s.delay, e.2 = []) ∧
    (∀ p ∈ [100, 1000000], v p % 2 ^ 20 = p ∧ 100 ≤ p ∧ p ≤ 1000000) ∧ v 99 % 2 ^ 20 < 100 ∧
    1000000 < v 1000001 % 2 ^ 20 ∧ 1 ≤ v 100 / 2 ^ 20 % 2 ^ 16 ∧
    (∃ e ∈ ({ s with delay := [(0, [(1, 4)])] } : State).delay, e.2 ≠ []) := by decide +kernel

theorem wit_Cog_3 : let s : State := { tenant ring with tb := { now := 60000000000 } }
    let full : State := { s with tally := (List.range 64).map fun m => { minute := m } }
    s.pins.pwrgood = true ∧ s.ras.frozen = false ∧ s.boot.tripped = false ∧ s.tb.boundary + 60000000000 ≤ s.now ∧
    (Tab.at s.insts 5).st ≠ 0 ∧ s.heldMinutes < 64 ∧ full.tb.boundary + 60000000000 ≤ full.now ∧
    64 ≤ full.heldMinutes := by decide +kernel

/-! ### Reservoir and ledger -/

/-- A task of stage 0 runs on wick 0 of lantern 0 with a job. -/
def scans (j : Job) (k : Wick := {}) : State :=
  ({ tasks image [{ st := .running }] with wicks := [(0, { k with st := 1, ctx := 4, job := some j })] } : State).setFld
    (R.LAN_RSV_CTL 0) F.LAN_RSV_CTL_EN 1

/-- Recipe slot 2 holds the task's recipe. -/
def holds (s : State) : State :=
  { s.setFld (R.LAN_RSV_STAT 0) F.LAN_RSV_STAT_SLOT_VALID 4 with recSlots := [(slotKey 0 2, { ref := some (s.recipeRef 4) })] }

theorem wit_Recipes_1 : let s := holds (scans { ready := true })
    s.live = true ∧ (s.wick 0).st = 1 ∧ (s.wick 0).job = some { ready := true } ∧
    s.bit (R.LAN_RSV_CTL 0) F.LAN_RSV_CTL_EN = true ∧ (Tab.get s.ctxs (s.wick 0).ctx).isSome = true ∧
    ((List.range 16).find? fun i => s.holdsRecipe 0 (s.wick 0).ctx i) = some 2 := by decide +kernel

theorem wit_Recipes_2 : let s := scans { ready := true }
    s.live = true ∧ (s.wick 0).st = 1 ∧ (s.wick 0).job = some { ready := true } ∧
    s.bit (R.LAN_RSV_CTL 0) F.LAN_RSV_CTL_EN = true ∧ (Tab.get s.ctxs (s.wick 0).ctx).isSome = true ∧
    ((List.range 16).find? fun i => s.holdsRecipe 0 (s.wick 0).ctx i) = none ∧ s.idleSlot 0 = some 0 := by decide +kernel

/-- The slot's recipe has one `COLUMN` step; the morsel's scan list names no region. -/
theorem wit_Recipes_3 : let s := ((holds (scans {})).wr (R.LAN_RSV_WIN 0 768) (2 ^ 40)).wr (R.LAN_RSV_WIN 0 776) 1
    let c := Tab.at s.ctxs (s.wick 0).ctx
    let run := Tab.at s.runs c.run
    let region := Tab.at s.regions (run.scans.getD (Img.st (s.imgOf run) c.stage 32 2) (0, 0)).1
    let off := leNat (s.peek (fieldAt c.morsel 0 8 + 16 + 8 * Rcp.b (s.slotRecipe 0 2) 0) 8)
    s.live = true ∧ (s.wick 0).job = some {} ∧
    ((List.range 16).find? fun i => s.holdsRecipe 0 (s.wick 0).ctx i) = some 2 ∧
    Rcp.withOp (s.slotRecipe 0 2) 1 = [0] ∧ region.size < off + 64 ∧ s.poisoned (region.base + off) 64 = false := by
  decide +kernel

theorem wit_Recipes_4 : let s := scans { slot := some 2 }
    s.live = true ∧ reaches .lamplighter = true ∧ reaches .other = false ∧ s.slotBusy 0 2 = true ∧ s.slotBusy 0 3 = false ∧
    windowReserved (8 * 0) (2 * 2 ^ 48) = true ∧ windowReserved (8 * 383) 5 = false := by decide +kernel

theorem wit_Segments_1 : let j : Job := { slot := some 2, ready := true }; let s := scans j
    s.live = true ∧ (s.wick 0).st = 1 ∧ (s.wick 0).job = some j ∧ j.spent = false ∧ j.prep = [] ∧ j.pending = [] ∧
    j.done = j.count := by decide +kernel

/-- A slot waits for port 0x011, which has room, and which is full. -/
theorem wit_Segments_2 : ∀ n ∈ [1, 2], let j : Job := { slot := some 2, ready := true, pending := [(0x011, zeros 32)] }
    let s := scans j { ports := [{ num := 0x011, base := 8, len := 2, filled := n }] }; let p := (s.wick 0).port 0x011
    s.live = true ∧ (s.wick 0).st = 1 ∧ (s.wick 0).job = some j ∧ j.spent = false ∧ j.prep = [] ∧
    j.pending = [(0x011, zeros 32)] ∧ 0x011 < 0x030 ∧ 0x011 ∈ (s.wick 0).ports.map (·.num) ∧ (zeros 32).length = 32 ∧
    Memory.wf s.mem = true ∧ (n = 1 → p.filled < p.len) ∧ (n = 2 → p.len ≤ p.filled) := by decide +kernel

/-- A segment of one row of no column. -/
theorem wit_Segments_3 : let j : Job := { slot := some 2, ready := true, count := 1 }; let s := scans j
    s.live = true ∧ (s.wick 0).st = 1 ∧ (s.wick 0).job = some j ∧ j.spent = false ∧ j.prep = [] ∧ j.pending = [] ∧
    j.done < j.count ∧
    (match (s.decodeColumns 0 (s.slotRecipe 0 2) 0 1 j.cols []).2 with | .ok ds => ds.isEmpty | .error _ => false) = true ∧
    (∀ x ∈ (segmentSlots j (s.slotRecipe 0 2) [] 0 1).1.head?, ((s.wick 0).ports.any (·.num == x.1)) = false) := by
  decide +kernel

/-- A column whose chunk of no bytes carries the CRC 1. -/
theorem wit_Segments_4 : let j : Job := { slot := some 2, ready := true, count := 1, cols := [{ hdr := padTo (zeros 56 ++ le 1 4) 64 }] }
    let s := scans j
    s.live = true ∧ (s.wick 0).job = some j ∧ j.pending = [] ∧ j.done < j.count ∧
    (match (s.decodeColumns 0 (s.slotRecipe 0 2) 0 1 j.cols []).2 with
     | .error (.corrupt off check) => off == 0 && check == 11 | _ => false) = true ∧
    (Tab.get s.ctxs (s.wick 0).ctx).isSome = true := by decide +kernel

/-- A bitmap step whose column names no dictionary, and one whose dictionary holds no entry. -/
theorem wit_Segments_5 : let j : Job := { slot := some 2, ready := true, prep := [0], cols := [{ dict := some (0, zeros 64) }] }
    let s := scans j; let bare := scans { j with cols := [] }
    s.live = true ∧ (s.wick 0).st = 1 ∧ (s.wick 0).job = some j ∧ j.prep = [0] ∧ j.ready = true ∧ j.slot = some 2 ∧
    (j.col (Rcp.a (s.slotRecipe 0 2) 0)).dict = some (0, zeros 64) ∧
    (match (s.dictionary 0 0 (zeros 64)).2 with | .ok es => es.isEmpty | .error _ => false) = true ∧
    total ((s.bitmaps.filter (·.lantern == 0)).map (·.size)) + (Hd.of (zeros 64)).rows ≤ 262144 ∧ s.bitmaps = [] ∧
    bare.live = true ∧ (Job.col { j with cols := [] } (Rcp.a (bare.slotRecipe 0 2) 0)).dict = none := by decide +kernel

/-- A chunk header of `len` payload bytes and a CRC. -/
def chunkHead (len crc : Nat) : List Byte := padTo (zeros 16 ++ le len 4 ++ zeros 36 ++ le crc 4) 64

/-- The first report of the one block of a chunk (its CRC the chunk's, and another), of one of two blocks, and a task's
last report. -/
def reporting (e : Ledger) (r : Report) : State :=
  { tasks image [{ st := .ended, chunks := [1] }] with ledger := [(1, { e with run := key0 })], reports := [{ r with entry := 1 }] }

theorem wit_Ledger_1 : ∀ crc ∈ [9, 8], let e : Ledger := { hdr := chunkHead 1 9 }
    let s := reporting e { crc := crc }; let e' := { Tab.at s.ledger 1 with blocks := [(0, crc, 0)] }
    s.live = true ∧ (s.reports.map (·.last)) = [false] ∧ (Tab.at s.ledger 1).st = 0 ∧ (Tab.at s.ledger 1).blocks = [] ∧
    e'.blocks.length = (Tab.at s.ledger 1).blockCount ∧ (Tab.at s.ledger 1).hdr ≠ [] ∧ (Hd.of e.hdr).kind ≠ 1 ∧
    (crc = 9 → e'.crc = (Hd.of e.hdr).crc) ∧ (crc = 8 → e'.crc ≠ (Hd.of e.hdr).crc) ∧
    (Tab.at s.ctxs 4).run = (Tab.at s.ledger 1).run ∧ 1 ∈ (Tab.at s.ctxs 4).chunks ∧ (Tab.at s.ctxs 4).st = .ended ∧
    (Tab.at s.ctxs 4).failed = 0 ∧ s.wickOf 4 = none := by decide +kernel

theorem wit_Ledger_2 : let s := reporting { hdr := chunkHead 4097 9 } {}
    s.live = true ∧ (Tab.at s.ledger 1).st = 0 ∧ (Tab.at s.ledger 1).blocks = [] ∧ 1 ≠ (Tab.at s.ledger 1).blockCount := by
  decide +kernel

theorem wit_Ledger_3 : let s := reporting { hdr := chunkHead 4097 9, blocks := [(0, 9, 0)] } { last := true, task := 7 }
    s.live = true ∧ (s.reports.map (·.last)) = [true] ∧ (Tab.at s.ledger 1).st = 0 ∧ 7 ∉ (Tab.at s.ledger 1).who ∧
    (Tab.at s.ledger 1).blocks ≠ [] ∧ (Tab.at s.ledger 1).blocks.length ≠ (Tab.at s.ledger 1).blockCount := by decide +kernel

/-- Every planned task has reported; the second block is missing, and reads well, or is poisoned. -/
theorem wit_Ledger_4 : ∀ ps ∈ [[], [65600 + 4096]],
    let s : State := { reporting { region := 9, hdr := chunkHead 4097 9, blocks := [(0, 9, 0)], planned := [7], who := [7] } {} with
                       regions := [(9, { inst := 5, base := 65536, size := 65536 })], poison := ps }
    let e := Tab.at s.ledger 1; let base := (Tab.at s.regions e.region).base + e.off + 64
    s.live = true ∧ e.st = 0 ∧ e.blocks ≠ [] ∧ (∀ t ∈ e.planned, t ∈ e.who) ∧ e.blocks.length < e.blockCount ∧
    (ps = [] → ∀ p ∈ s.poison, p + 32 ≤ base ∨ base + e.len ≤ p) ∧
    (ps ≠ [] → 1 ∈ (List.range e.blockCount).filter (fun b => !e.blocks.any (·.1 == b)) ∧
      s.poisoned (base + 4096 * 1) (min 4096 (e.len - 4096 * 1)) = true ∧ canFail s e.run (Tab.at s.runs e.run) = true) := by
  decide +kernel

/-! ### Exchanges -/

/-- The pipeline with exchange 3, whose records of `lx` bytes port 0x020 of stage 0 takes; one landing block per lantern. -/
def exchanging (lx : Nat) : List Byte :=
  patch (patch image 112 (le 4 2 ++ le 0 2 ++ le 896 4 ++ le 160 4)) 320 [0] ++
    prms [(0, 2, 3), (2, 2, lx), (8, 4, 0x10000), (12, 2, 1)] 160

/-- The task's port 0x020 holds `n` bytes of a record of 200, and `c` flits are on their way between the two lanterns. -/
def sending (n c : Nat) : State :=
  ({ tasks (exchanging 200) [{ st := .running }] with
     wicks := [(0, { st := 1, ctx := 4, ports := [{ num := 0x020, len := 2, carry := zeros n }] })],
     credits := [(creditKey 0 0, c)] } : State).setFld (R.LAN_XCH_CTL 0) F.LAN_XCH_CTL_EN 1

theorem wit_Exchanges_1 : ∀ n ∈ [199, 200, 201], ∀ c ∈ [0, 6, 7], let s := sending n c
    let img := s.imgOf (Tab.at s.runs (Tab.at s.ctxs 4).run)
    let lx := Img.xch img (Img.st img 0 192 1) 2 2
    let port := drawRecord s 0 lx ((s.wick 0).port 0x020) 1024
    s.live = true ∧ (s.wick 0).st = 1 ∧ 0x020 ∈ (s.wick 0).ports.map (·.num) ∧
    s.bit (R.LAN_XCH_CTL (0 / 17)) F.LAN_XCH_CTL_EN = true ∧ (Tab.get s.ctxs (s.wick 0).ctx).isSome = true ∧ lx = 200 ∧
    port.carry.length = n ∧ (flitPieces (port.carry.take lx)).length = 2 ∧
    (match s.recordRoute img 0 (fieldAt (port.carry.take lx) 0 8) 5 with | .lantern 0 0 => true | _ => false) = true ∧
    (s.creditsLeft 0 0 < 2 ↔ c = 7) := by decide +kernel

/-- The slot that the record's hash names is another device's, without a route. -/
theorem wit_Exchanges_2 : let s := { sending 200 0 with pipes := [(1, { inst := 5, gen := 7, img := patch (exchanging 200) (896 + 96) [3], kernels := [(0, 2, 0)] })] }
    let img := s.imgOf (Tab.at s.runs (Tab.at s.ctxs 4).run)
    (match s.recordRoute img 0 (fieldAt (zeros 200) 0 8) 5 with | .nowhere => true | _ => false) = true := by decide +kernel

/-- A flit with a record of 8 bytes has come to lantern 0. -/
def arriving (lx n : Nat) (r : Run) : State :=
  ({ tasks (exchanging lx) [{ st := .running }] with
     runs := [(key0, { r with inst := 5, gen := 7, pipe := 1, stages := [{ st := 1 }] })],
     flits := [{ run := key0, task := 4, inst := 5, gen := 7, bytes := zeros n }] } : State).setFld (R.LAN_XCH_CTL 0) F.LAN_XCH_CTL_EN 1

theorem wit_Exchanges_3 : ∀ st ∈ [1, 3], ∀ lx ∈ [8, 9], let s := arriving lx 8 { st := st }
    let f : XFlit := { run := key0, task := 4, inst := 5, gen := 7, bytes := zeros 8 }; let r := Tab.at s.runs f.run
    s.live = true ∧ s.flits[0]? = some f ∧ f.dest < 68 ∧ s.bit (R.LAN_XCH_CTL f.dest) F.LAN_XCH_CTL_EN = true ∧
    s.flits.take 0 = [] ∧ Img.xch (s.imgOf r) f.desc 2 2 = lx ∧ r.active = (st == 1) ∧
    s.xparts.any (sameFlow f) = false ∧ f.dev = s.ownDev ∧ f.gen = s.genOf f.inst ∧ Memory.wf s.mem = true ∧ s.blocks = [] ∧
    s.probeSpills f.run f.desc 0 = false ∧ s.freeHere f.run f.desc f.dest = some (lstoreKey 0 0x10000) := by decide +kernel

/-- The landing block is taken, and there is no spill area. -/
theorem wit_Exchanges_4 : let s := { arriving 8 8 { st := 1 } with blocks := [(lstoreKey 0 0x10000, { run := 1, task := 9 })] }
    let f : XFlit := { run := key0, task := 4, inst := 5, gen := 7, bytes := zeros 8 }
    s.live = true ∧ s.flits[0]? = some f ∧ (∀ e ∈ s.blocks, e.2.run ≠ f.run) ∧
    s.freeLanding f.run f.desc f.dest 0 = none ∧ canFail s f.run (Tab.at s.runs f.run) = true := by decide +kernel

theorem wit_Exchanges_5 : let s := { arriving 8 8 { st := 1 } with insts := [(5, { st := 1, gen := 8 })] }
    7 ≠ s.genOf 5 ∧ s.live = true ∧ (Tab.at s.runs key0).active = true := by decide +kernel

/-- Port 1 is ACTIVE between two devices. -/
def peering (s : State) : State :=
  (s.setFld (R.MLK_STAT 1) F.MLK_STAT_STATE 5).setFld (R.MLK_CFG 1) F.MLK_CFG_MODE 1

theorem wit_Exchanges_6 : let s := peering (arriving 8 8 { st := 1 })
    s.peerDue 1 = true ∧ 0 = s.ownDev ∧ s.lanternOf 0 = some 0 ∧ s.runFor 5 3 = some (key0, 0) ∧
    0 < s.creditsLeft 0 (68 + 1) ∧ s.peerIns = [] ∧ s.routeOf 2 = none ∧ 2 ≠ s.ownDev ∧ (s.blocks.map (·.1)).Nodup ∧
    (Tab.get s.ctxs 4).isSome = true := by decide +kernel

/-- Blocks of device 2's task: one of the epoch that its marker names, one of the epoch before. -/
theorem wit_Exchanges_7 : let b : Block := { run := key0, dev := 2, task := 9, epoch := 1, st := 2 }
    let s := { peering (arriving 8 8 { st := 1 }) with blocks := [(0x1000, b), (0x2000, { b with epoch := 0 })] }
    s.peerDue 1 = true ∧ 0 = s.ownDev ∧ s.routeOf 2 = none ∧ (s.blocks.map (·.1)).Nodup ∧
    Tab.get s.blocks 0x1000 = some b ∧ Tab.get s.blocks 0x2000 = some { b with epoch := 0 } := by decide +kernel

theorem wit_Exchanges_8 : let s := peering (tasks image [{ st := .running, peers := [(2, 1, false, true)] }])
    let c := Tab.at s.ctxs 4
    s.peerDue 1 = true ∧ 0 = s.ownDev ∧ c.st ≠ .free ∧ c.st ≠ .committed ∧ 2 ∈ c.peers.map (·.1) ∧
    canFail s c.run (Tab.at s.runs c.run) = true := by decide +kernel

/-- A route to device 2 through port 1, and none to device 3. -/
theorem wit_Exchanges_9 : let s := ((peering up).setFld (R.MLK0_ROUTE 2) F.MLK0_ROUTE_VALID 1).setFld (R.MLK0_ROUTE 2) F.MLK0_ROUTE_PORT 1
    s.peerDue 1 = true ∧ 2 ≠ s.ownDev ∧ 3 ≠ s.ownDev ∧ s.routeOf 2 = some 1 ∧ s.peerUp 1 = true ∧ s.routeOf 3 = none := by
  decide +kernel

/-! ### Chandeliers -/

/-- Registers of Chandelier 0: table 3 is of the task's instance and pipeline, and `VALID` as given; bank 6 of `units`
code `w` is leased to it or to no table. -/
def tabled (s : State) (valid leased w : Nat) : State :=
  [(R.CHD_CTL 0, F.CHD_CTL_EN, 1), (R.CHD_CTL 0, F.CHD_CTL_SCRUB_EN, 1), (R.CHD_TABLE 0 3, F.CHD_TABLE_VALID, valid),
   (R.CHD_TABLE 0 3, F.CHD_TABLE_INSTANCE, 5), (R.CHD_TABLE 0 3, F.CHD_TABLE_GENERATION, 7),
   (R.CHD_TABLE 0 3, F.CHD_TABLE_PIPELINE, 1), (R.CHD_BANK 0 6, F.CHD_BANK_LEASED, leased),
   (R.CHD_BANK 0 6, F.CHD_BANK_TABLE, 3), (R.CHD_BANK 0 6, F.CHD_BANK_WIDTH, w)].foldl
    (fun s x => s.setFld x.1 x.2.1 x.2.2) s

/-- Entries `es` of bank 6 are valid with the key 0. -/
def entries (es : List Nat) : Chd :=
  { side := es.map fun e => (2048 * 6 + e, { valid := true }),
    handles := [(8191, { seq := 9, task := 4, table := 3, bank := 6, last := 5 })] }

/-- Wick 0 has a request of two slots for operation `op`, with hash 0, key 0 and the handle `h`, in its port 0x040. -/
def asking (op h valid leased w : Nat) (es : List Nat) : State :=
  let s : State := { tasks image [{ st := .running }] with
    wicks := [(0, { st := 1, ctx := 4, chds := [3],
                    ports := [{ num := 0x040, base := 0, len := 2, filled := 2 }, { num := 0x041, base := 2, len := 1 }] })],
    chds := [(0, entries es)] }
  (tabled s valid leased w).poke (waxKey 0 0) (le h 8 ++ zeros 2 ++ le op 1)

theorem wit_Chandelier_1 : ∀ v ∈ [0, 1], ∀ l ∈ [0, 1], let s := asking 1 0 v l 2 []
    Memory.wf s.mem = true ∧ (s.frontRequest 0 1).map (fun x => (x.1, x.2.1)) = some (0, 3) ∧
    0x041 ∈ (s.wick 0).ports.map (·.num) ∧ s.leaseHolds 0 0 3 = (v == 1) ∧
    s.hashBank 0 3 0 = if l = 0 then none else some 6 := by decide +kernel

/-- No entry matches, one (the last), two. -/
theorem wit_Chandelier_2 : ∀ x ∈ [(0, []), (0, [2047]), (2, [511]), (2, [0, 511])], let s := asking 1 0 1 1 x.1 x.2
    let h := (s.upsetRows 0 6 []).chd 0; let n := s.bankUnits 0 6
    s.leaseHolds 0 0 3 = true ∧ s.hashBank 0 3 0 = some 6 ∧
    (s.frontRequest 0 1).map (fun x => (leNat x.2.2.2, fieldAt x.2.2.1 0 8)) = some (0, 0) ∧
    (List.range (2048 / n)).filter (h.matches 6 n 0 0) = x.2 ∧ (∀ e ∈ x.2, h.verifies 6 n e = true) ∧
    (Tab.get s.ctxs (s.wick 0).ctx).isSome = true := by decide +kernel

/-- The handle of slot 8191 with sequence 9, and with another. -/
theorem wit_Chandelier_3 : ∀ q ∈ [9, 8], let s := asking 2 (handleWord 0 8191 q) 1 1 2 []
    Memory.wf s.mem = true ∧ (s.frontRequest 0 2).map (fun x => (x.1, x.2.1)) = some (0, 3) ∧
    0x041 ∈ (s.wick 0).ports.map (·.num) ∧ s.leaseHolds 0 0 3 = true ∧
    ((s.frontRequest 0 2).bind fun x => s.goodHandle 0 0 3 (fieldAt x.2.2.1 0 8)).isSome = (q == 9) := by decide +kernel

theorem wit_Chandelier_4 : ∀ es ∈ [[5], [5, 511], [5, 6, 511]], let s := asking 2 (handleWord 0 8191 9) 1 1 2 es
    let h := (s.upsetRows 0 6 []).chd 0; let n := s.bankUnits 0 6
    (Tab.at (s.chd 0).handles 8191).last = 5 ∧ (s.frontRequest 0 2).isSome = true ∧
    (List.range (2048 / n)).filter (h.matches 6 n 0 0) = es ∧ (∀ e ∈ es, h.verifies 6 n e = true) := by decide +kernel

/-- `LOAD` of 0, 1, 65,536 and 65,537 records, and `CLEAR`. -/
theorem wit_Chandelier_5 : ∀ n ∈ [0, 1, 65536, 65537], let val := n + 3 * 2 ^ 17 + 2 ^ 22
    (asking 1 0 0 1 2 []).live = true ∧ bitAt val 22 = true ∧ bitAt val 23 = false ∧ bitsOf val 0 17 = n ∧ bitsOf val 17 5 = 3 ∧
    ((asking 1 0 0 1 2 []).chd 0).load = none ∧ bitAt (2 ^ 23 + 3 * 2 ^ 17) 23 = true ∧ bitAt (2 ^ 23 + 3 * 2 ^ 17) 22 = false ∧
    (asking 1 0 0 1 2 []).tableBanks 0 3 = [6] := by decide +kernel

/-- A load of two records stands at its first, whose kind is as given, or which is poisoned. -/
def loading (kind : Nat) (ps : List Nat) (leased : Nat) (es : List Nat) : State :=
  { (asking 1 0 0 leased 2 es).poke 65536 (zeros 12 ++ le kind 1) with
    poison := ps, chds := [(0, { entries es with load := some (3, 65536, 2, 0, key0) })] }

theorem wit_Chandelier_6 : ∀ es ∈ [[], [0, 1], List.range 512], let s := loading 1 [] 1 es
    let rec_ := s.hbmRead 65536 64
    s.live = true ∧ (s.chd 0).load = some (3, 65536, 2, 0, key0) ∧ s.poisoned 65536 64 = false ∧ fieldAt rec_ 12 1 = 1 ∧
    s.hashBank 0 3 (fieldAt rec_ 0 8) = some 6 ∧ Memory.wf s.mem = true ∧ (s.chd 0).remap = [] ∧
    ((List.range (2048 / s.bankUnits 0 6)).find? fun e => !((s.chd 0).sideOf 6 e).valid) =
      (if es.length < 512 then some es.length else none) ∧ canFail s key0 (Tab.at s.runs key0) = true := by decide +kernel

theorem wit_Chandelier_7 : let s := loading 1 [] 0 []
    s.hashBank 0 3 (fieldAt (s.hbmRead 65536 64) 0 8) = none ∧ s.poisoned 65536 64 = false := by decide +kernel

theorem wit_Chandelier_8 : ∀ es ∈ [[], [0, 511]], let s := loading 2 [] 1 es
    let u := s.bankUnits 0 6; let rec_ := s.hbmRead 65536 64
    fieldAt rec_ 12 1 = 2 ∧ s.hashBank 0 3 (fieldAt rec_ 0 8) = some 6 ∧ s.poisoned 65536 64 = false ∧
    ((List.range (2048 / u)).filter fun e => (s.chd 0).matches 6 u 0 (leNat (slice rec_ 32 (8 * u))) e &&
      ((s.chd 0).sideOf 6 e).value == fieldAt rec_ 8 4) = es := by decide +kernel

theorem wit_Chandelier_9 : ∀ x ∈ [(0, []), (3, []), (1, [65536 + 32])], let s := loading x.1 x.2 1 []
    s.live = true ∧ (s.chd 0).load = some (3, 65536, 2, 0, key0) ∧ s.poisoned 65536 64 = !x.2.isEmpty ∧
    fieldAt (s.hbmRead 65536 64) 12 1 = x.1 ∧ canFail s key0 (Tab.at s.runs key0) = true := by decide +kernel

/-- Bank 6 of a valid table, and of one that is not; the value names the table, or table 4, which is not valid. -/
theorem wit_Chandelier_10 : ∀ v ∈ [0, 1], ∀ tb ∈ [3, 4], let s := asking 1 0 v 1 2 []; let val := tb * 8
    s.live = true ∧ s.bit (R.CHD_TABLE 0 (bitsOf (s.rd (R.CHD_BANK 0 6)) 3 5)) F.CHD_TABLE_VALID = (v == 1) ∧
    s.bit (R.CHD_TABLE 0 (bitsOf val 3 5)) F.CHD_TABLE_VALID = (v == 1 && tb == 3) ∧ bitsOf val 1 2 ≠ 3 := by decide +kernel

/-- Chandelier 0's scrubber stands at row `r` of bank 6, of which spare row 63 or none is left, and of whose shadow unit 0
is `unit`; a task runs in epoch 254. -/
def scrubbing (r unit used : Nat) (h : Chd) (ps : List Nat) : State :=
  let s : State := { tasks image [{ st := .running, epoch := 254 }] with chds := [(0, h)] }
  let s := [(R.CHD_STAT 0, F.CHD_STAT_SCRUB_BANK, 6), (R.CHD_STAT 0, F.CHD_STAT_SCRUB_ROW, r),
    (R.CHD_BSPARE 0 6, F.CHD_BSPARE_USED, used)].foldl (fun s x => s.setFld x.1 x.2.1 x.2.2) (tabled s 1 1 2)
  { s.poke (s.shadowAt 0 6 r) (le unit 8) with poison := ps }

theorem wit_Scrub_1 : ∀ r ∈ [0, 2047], let s := scrubbing r 0 0 {} []; let u := s.upsetRows 0 6 []
    s.live = true ∧ s.bit (R.CHD_CTL 0) F.CHD_CTL_SCRUB_EN = true ∧ s.fld (R.CHD_STAT 0) F.CHD_STAT_SCRUB_BANK = 6 ∧
    s.fld (R.CHD_STAT 0) F.CHD_STAT_SCRUB_ROW = r ∧ (s.chd 0).visiting = false ∧ s.poisoned (s.shadowAt 0 6 r) 16 = false ∧
    u.rowAgrees 0 6 r = true := by decide +kernel

theorem wit_Scrub_2 : ∀ x ∈ [0, 1], ∀ used ∈ [63, 64], ∀ h ∈ [({ visiting := true } : Chd), { visiting := true, suspect := [2048 * 6 + 2047] }],
    let s := scrubbing 2047 x used h []; let u := s.upsetRows 0 6 []
    s.live = true ∧ (s.chd 0).visiting = true ∧ s.poisoned (s.shadowAt 0 6 2047) 16 = false ∧
    u.rowAgrees 0 6 2047 = (x == 0) ∧ s.fld (R.CHD_BSPARE 0 6) F.CHD_BSPARE_USED = used ∧ (s.chd 0) = h ∧
    (∀ e ∈ s.ctxs, e.2.epoch < 255) := by decide +kernel

theorem wit_Scrub_3 : ∀ b ∈ [6, 31], let s := (scrubbing 0 0 0 { visiting := true } []).setFld (R.CHD_STAT 0) F.CHD_STAT_SCRUB_BANK b
    s.live = true ∧ s.bit (R.CHD_CTL 0) F.CHD_CTL_SCRUB_EN = true ∧ (s.chd 0).visiting = true ∧
    s.fld (R.CHD_STAT 0) F.CHD_STAT_SCRUB_ROW = 0 ∧ s.fld (R.CHD_STAT 0) F.CHD_STAT_SCRUB_BANK = b := by decide +kernel

/-! ### Fold units -/

/-- Fold table 5 of instance 5 under generation 7 has one cell of code `op` (R363) and one entry in each of its shares;
`m` is the request at fold channel 0. -/
def folding (mode valid fin op : Nat) (m : FoldMsg) : State :=
  let s : State := { tasks image [{ st := .running, foldOut := 1 }] with foldMsgs := [{ m with table := 5, ctx := 4, run := key0 }] }
  ([(R.FOLD_CTL, F.FOLD_CTL_EN, 1), (R.FOLD_TBL_CFG 5, F.FOLD_TBL_CFG_VALID, valid),
    (R.FOLD_TBL_CFG 5, F.FOLD_TBL_CFG_FINISHED, fin), (R.FOLD_TBL_CFG 5, F.FOLD_TBL_CFG_MODE, mode),
    (R.FOLD_TBL_CFG 5, F.FOLD_TBL_CFG_KEY_LEN, 1), (R.FOLD_TBL_CFG 5, F.FOLD_TBL_CFG_CELLS, 1),
    (R.FOLD_TBL_CFG 5, F.FOLD_TBL_CFG_INSTANCE, 5), (R.FOLD_TBL_CFG 5, F.FOLD_TBL_CFG_GENERATION, 7)].foldl
      (fun s x => s.setFld x.1 x.2.1 x.2.2) s).wr (R.FOLD_TBL_CELLS 5) op

/-- A request of the value words `vs` for cell 0, with hash 0 and the key `k`. -/
def folded (k : Nat) (vs : List Nat) (inst : Nat := 5) (gen : Nat := 7) : FoldMsg :=
  { inst := inst, gen := gen, body := padTo (zeros 9 ++ le 1 1 ++ le 0 1 ++ le vs.length 1 ++ zeros 4 ++ le k 16 ++ vs.flatMap (le · 8)) 64 }

/-- The message at the head of the channel may be served. -/
def foldReady (s : State) : Bool :=
  s.live && s.bit R.FOLD_CTL F.FOLD_CTL_EN && s.unitOf 0 == some 0 &&
  (s.foldMsgs[0]?).any (fun m => let x := s.foldTab m.table
    (foldPlace x m).1 == 0 && !s.foldBefore 0 m && decide ((Tab.at s.foldQ 0).length + x.entry / 64 ≤ 64)) &&
  !s.unitFailing 0 && !(Tab.at s.runs key0).failing

theorem wit_Folds_1 : ∀ v ∈ [0, 1], ∀ fin ∈ [0, 1], ∀ i ∈ [5, 6], ∀ g ∈ [7, 6], let s := folding 0 v fin 4 (folded 0 [1] i g)
    let m := s.foldMsgs.headD {}; let x := s.foldTab m.table
    foldReady s = true ∧ x.valid = (v == 1) ∧ x.finished = (fin == 1) ∧ m.inst = i ∧ x.inst = 5 ∧ m.gen = g ∧ x.gen = 7 := by
  decide +kernel

/-- 63 lines wait, and one more fits; 64 wait for an entry of one line. -/
theorem wit_Folds_2 : ∀ n ∈ [63, 64], let s := { folding 0 1 0 4 (folded 0 [1]) with foldQ := [(0, (List.range n).map fun i => (2 ^ 20 + i, []))] }
    foldReady s = (n == 63) := by decide +kernel

/-- A direct table and a keyed one: the values `1`, and `2^64 − 1` and `1`, added to a `COUNT` cell. -/
theorem wit_Folds_3 : ∀ mode ∈ [0, 1], ∀ vs ∈ [[1], [2 ^ 64 - 1, 1]], let s := folding mode 1 0 4 (folded 0 vs)
    let m := s.foldMsgs.headD {}; let x := s.foldTab m.table; let hk := le 0 8 ++ foldKey x m
    foldReady s = true ∧ x.valid = true ∧ x.finished = false ∧ m.inst = x.inst ∧ m.gen = x.gen ∧ s.foldQ = [] ∧ x.base % 64 = 0 ∧
    (if x.keyed then s.foldProbe x 0 hk (foldPlace x m).2 (2 ^ x.share) else some ((foldPlace x m).2, 1)) = some (0, 1) ∧
    (∀ j ∈ List.range (x.entry / 64), s.poisoned (chanAddr 0 (x.local_ 0 + 64 * j)) 64 = false) ∧
    (let old := s.chanRead 0 (x.local_ 0) (x.entry / 64)
     (applyAll x (foldInputs x m) (if x.keyed then patch (patch old 0 hk) 40 [1] else old)).2.isSome = (vs.length == 2)) ∧
    (Tab.at s.runs m.run).st ≠ 3 ∧ (Tab.get s.runs m.run).isSome = true := by decide +kernel

/-- The one entry of the share holds another key. -/
theorem wit_Folds_4 : let s := (folding 1 1 0 4 (folded 9 [1])).poke 40 [1]
    let m := s.foldMsgs.headD {}; let x := s.foldTab m.table
    foldReady s = true ∧ x.keyed = true ∧ x.valid = true ∧ x.finished = false ∧ m.inst = x.inst ∧ m.gen = x.gen ∧
    s.foldProbe x 0 (le (fieldAt m.body 0 8) 8 ++ foldKey x m) (foldPlace x m).2 (2 ^ x.share) = none := by decide +kernel

theorem wit_Folds_5 : let s := { up with foldQ := [(0, [(64, zeros 64), (128, zeros 64)])] }
    s.live = true ∧ Tab.at s.foldQ 0 = (64, zeros 64) :: [(128, zeros 64)] ∧ Memory.wf s.mem = true := by decide +kernel

/-- Stage 0 folds into plan 0, and its task has committed; entry 0 of the table holds the sum `2^63 − 1`, or `2^63`. -/
theorem wit_Folds_6 : ∀ d ∈ [1, 0], let s0 := folding 0 1 0 1 {}
    let s := { s0.poke 0 (le (2 ^ 63 - d) 16 ++ le 1 8) with
      foldMsgs := [], pipes := [(1, { inst := 5, gen := 7, img := patch image 336 [0], foldTabs := [(0, 5)] })],
      ctxs := [(4, { run := key0, pipe := 1, inst := 5, gen := 7, st := .committed })],
      runs := [(key0, { run0 with stages := [{ st := 1, total := 1, created := 1, committed := 1 }] })] }
    let x := s.foldTab 5
    s.live = true ∧ (Tab.at s.runs key0).active = true ∧ x.valid = true ∧ x.finished = false ∧ s.finishDue key0 0 = true ∧
    (Tab.at s.pipes 1).foldTabs.find? (·.1 == 0) = some (0, 5) ∧ s.poison = [] ∧ s.foldQ = [] ∧ x.base % 64 = 0 ∧
    Memory.wf s.mem = true ∧ x.keyed = false ∧
    (∀ e ∈ x.results.head?, (finishEntry x (e.2.map fun q => s.chanRead q.1 (x.local_ q.2) (x.entry / 64))
      (s.chanRead e.1.1 (x.local_ e.1.2) (x.entry / 64))).2.isSome = (d == 0)) := by decide +kernel

theorem wit_Folds_7 : ∀ v ∈ [0, 1], let s := folding 0 v 0 4 {}
    s.live = true ∧ s.bit (R.FOLD_TBL_CFG 5) F.FOLD_TBL_CFG_VALID = (v == 1) ∧
    (∀ k ∈ [1, 2, 3], 5 &&& (if k = 1 then 2 ^ 36 - 1 else if k = 2 then 0x7F7F7F7F7F7F7F7F else 2 ^ 48 - 1) ≠
      s.rd (R.FOLD_TBL_CFG 5 + 8 * k)) ∧ (∀ j ∈ List.range 8, cellReserved (bitsOf 4 (8 * j) 8) = false) := by decide +kernel

/-! ### The sort ladder -/

/-- Wick 3 has a ladder and a sealed run of two records; the task's run area is 192 bytes. -/
def laddered (l : Ladder) (k : Wick) : State :=
  ({ tasks image [{ st := .running }] with wicks := [(3, { k with ctx := 4, ladder := some { l with area := 65536, areaSize := 192 } })] } : State).setFld
    (R.LAN_SL_CTL 0) F.LAN_SL_CTL_EN 1

/-- A sealed run of two records. -/
def sealed2 : List Sealed := [{ no := 8, recs := [5, 3] }]

theorem wit_Sorting_1 : ∀ m ∈ [1, 2, 3], ∀ b ∈ [0, 1],
    let s := laddered { mode := m, runRecords := 3, topn := 2 } { st := 1, sealed := sealed2, bufRecs := b + 1, heap := [4, 4] }
    s.live = true ∧ s.oldestSeal 0 = some (3, 8) ∧ (s.wick 3).lad.mode = m ∧ (s.wick 3).bufRoom = (b == 0) ∧ Memory.wf s.mem = true ∧
    (s.wick 3).heap.Pairwise (· ≤ ·) ∧ (s.wick 3).heap.length ≤ (s.wick 3).lad.topn ∧ (Tab.get s.ctxs (s.wick 3).ctx).isSome = true := by
  decide +kernel

/-- A heap of two records fills the run area; one of three does not fit. -/
theorem wit_Sorting_2 : ∀ h ∈ [[1, 2], [1, 2, 3]], let s := (laddered { mode := 3, topn := 3 } { st := 3, heap := h }).setFld (R.LAN_SCN_CTL 0) F.LAN_SCN_CTL_EN 0
    let c := Tab.at s.ctxs 4; let l := (s.wick 3).lad
    s.live = true ∧ s.closeDue 3 = some h ∧ (Tab.get s.ctxs (s.wick 3).ctx).isSome = true ∧
    s.runRoom c.run l h.length = (h.length == 2) ∧ (h.length = 2 → s.runFits c.run l h.length 65536 = true) ∧
    s.bit (R.LAN_SCN_CTL (3 / 17)) F.LAN_SCN_CTL_EN = false ∧ Tab.get s.sconces (3 / 17) = none ∧ Memory.wf s.mem = true := by
  decide +kernel

/-- A merge of no run, of a run that is committed, of one that is not. -/
theorem wit_Sorting_3 : ∀ x ∈ [([], 3), ([65536], 3), ([65536], 2)],
    let s := { laddered { mode := 4, output := 1, runList := x.1 } { st := 1 } with
               sruns := [(65536, { inst := 5, gen := 7, records := 1, st := x.2 })] }
    s.live = true ∧ (s.wick 3).st = 1 ∧ (s.wick 3).lad.mode = 4 ∧ (s.wick 3).merged = false ∧ s.mergeBusy 3 = false ∧
    s.bit (R.LAN_SL_CTL (3 / 17)) F.LAN_SL_CTL_EN = true ∧ (Tab.get s.ctxs (s.wick 3).ctx).isSome = true ∧
    s.badRun 3 = (if x.2 = 3 then none else some 0) ∧ (s.wick 3).lad.output = 1 ∧
    (s.mergeRecs 3).length = (if x.2 = 3 then x.1.length else 1) := by decide +kernel

theorem wit_Sorting_4 : let s := laddered { mode := 2, fmt := 7 } { st := 1 }
    s.live = true ∧ reaches .lamplighter = true ∧ s.fmtInUse 0 (63 / 8) = true ∧ s.fmtInUse 0 (55 / 8) = false ∧
    fmtReserved 0x12 = true ∧ fmtReserved 0x10 = true ∧ fmtReserved 0x1000010 = false := by decide +kernel

/-! ### Molmi Link -/

/-- A block whose port 1 stands in a state of R615, with `m` behind it and `regs` set, at `mono` ns. -/
def linked (st : Nat) (m : MPort := {}) (regs : List (Nat × (Nat × Nat) × Nat) := []) (mono : Nat := 0) : State :=
  regs.foldl (fun s x => s.setFld x.1 x.2.1 x.2.2)
    (({ up with ports := [(1, m)], tb := { mono := mono } } : State).setFld (R.MLK_STAT 1) F.MLK_STAT_STATE st)

theorem wit_Link_1 : (∀ st ∈ List.range 8, (linked st).live = true ∧ (linked st).portState 1 = st) ∧
    (linked 5).portActive 1 = true := by decide +kernel

theorem wit_Link_2 : ∀ st ∈ [1, 2, 3, 4, 6], ∀ t ∈ [0, 50000000, 250000000], let s := linked st { } [] t
    s.live = true ∧ s.portState 1 = st ∧ s.tb.mono = t ∧ (s.port 1).entered = 0 := by decide +kernel

theorem wit_Link_3 : let lanes : List (Bool × Nat × Nat) := List.replicate 8 (false, 8, 255) ++ [(true, 15, 0)]
    lanes.length = 9 ∧ ∀ x ∈ lanes, (x.2.1 ≤ 8 ∨ x.2.1 = 15) ∧ x.2.2 ≤ 255 := by decide +kernel

/-- `CONFIG` with `n` good lanes seen by each side: of this mode and of the other, of a partner of another and of the
device's own number. -/
theorem wit_Link_4 : ∀ own ∈ [0, 1], ∀ n ∈ [3, 4, 8, 9],
    let s := linked 4 {} [(R.MLK_CFG 1, F.MLK_CFG_MODE, own), (R.MLK_STAT 1, F.MLK_STAT_LANE_GOOD, 2 ^ n - 1),
      (R.MLK_CTL 1, F.MLK_CTL_X4_EN, 1)]
    let lanes (n : Nat) := ((List.range 9).filter fun l => bitAt n l).length
    s.live = true ∧ s.portState 1 = 4 ∧ s.fld (R.MLK_CFG 1) F.MLK_CFG_MODE = own ∧ s.ownDev = 0 ∧ (15 : Nat) ≠ s.ownDev ∧
    s.layoutFor 1 (lanes ((2 ^ n - 1) % 512)) = s.layoutFor 1 (lanes (s.fld (R.MLK_STAT 1) F.MLK_STAT_LANE_GOOD)) ∧
    s.layoutFor 1 (lanes ((2 ^ n - 1) % 512)) = (if n = 3 then none else if n = 4 then some 2 else if n = 8 then some 1 else some 0) ∧
    s.held = [] := by decide +kernel

theorem wit_Link_5 : ∀ st ∈ [4, 5], let s := linked st {} [(R.MLK_CTL 1, F.MLK_CTL_EN, 1)]
    s.live = true ∧ s.bit (R.MLK_CTL 1) F.MLK_CTL_EN = true ∧ s.portState 1 = st := by decide +kernel

/-- Lane `l` carries logical lane `l`; at a threshold of 10, lane 3 counts `n` errors. -/
theorem wit_Link_6 : ∀ n ∈ [10, 11], ∀ u ∈ [0, 2 ^ 8], ∀ y ∈ [0, 1],
    let s := linked 5 {} ([(R.MLK_CFG 1, F.MLK_CFG_LANE_TH, 10), (R.MLK_CTL 1, F.MLK_CTL_SWAP_EN, 1),
      (R.MLK_STAT 1, F.MLK_STAT_RX_LAYOUT, y)] ++ (List.range 9).map fun l => (R.MLK_LANE_STAT 1 l, F.MLK_LANE_STAT_LOGICAL, l)) 1000000
    let logical (l : Nat) := s.fld (R.MLK_LANE_STAT 1 l) F.MLK_LANE_STAT_LOGICAL
    s.live = true ∧ s.portActive 1 = true ∧ (s.port 1).laneAt + 1000000 ≤ s.tb.mono ∧
    ((List.range 9).filter fun l => logical l != 15 &&
      (bitAt u l || decide (s.fld (R.MLK_CFG 1) F.MLK_CFG_LANE_TH < [0, 0, 0, n].getD l 0))) =
      ((if n = 11 then [3] else []) ++ if u = 0 then [] else [8]) ∧ logical 3 < 8 ∧ logical 8 = 8 ∧
    s.fld (R.MLK_STAT 1) F.MLK_STAT_RX_LAYOUT = y ∧ s.bit (R.MLK_CTL 1) F.MLK_CTL_SWAP_EN = true ∧
    (s.port 1).swapRx = none := by decide +kernel

theorem wit_Link_7 : let s := linked 5 { swapTx := some 7, swapRx := some 7, waiting := [(0, 3, 0)] } [] 10000
    s.live = true ∧ s.portActive 1 = true ∧ s.fld (R.MLK_STAT 1) F.MLK_STAT_TX_LAYOUT = 0 ∧ (s.port 1).swapTx = some 7 ∧
    (s.port 1).swapRx = some 7 ∧ (s.port 1).waiting[0]? = some (0, 3, 0) ∧ 0 + 10000 ≤ s.tb.mono := by decide +kernel

/-- CRC-64 with the register evaluated at each byte. -/
def crc64Forced (r : Nat) : List Byte → Nat
  | [] => r
  | b :: t => bif Nat.beq r r then crc64Forced ((List.range 8).foldl (fun r _ => crc64Bit r) (r ^^^ (b.toNat <<< 56))) t else 0

theorem crc64_forced : crc64 = fun bs => crc64Forced 0xFFFFFFFFFFFFFFFF bs ^^^ 0xFFFFFFFFFFFFFFFF := by
  have h (bs : List Byte) (r : Nat) : crc64Forced r bs =
      bs.foldl (fun r b => (List.range 8).foldl (fun r _ => crc64Bit r) (r ^^^ (b.toNat <<< 56))) r := by
    induction bs generalizing r with
    | nil => rfl
    | cons b t ih => simp [crc64Forced, ih]
  funext bs
  rw [crc64, h]

/-- A DATA flit without payload. -/
def flit (seq : Nat) : List Byte := prms [(0, 1, 1), (2, 2, seq)] 248

theorem wit_Flits_1 : ∀ seq ∈ [0, 1, 2047, 2048, 4095], let b := flit seq ++ le (crc64 (flit seq)) 8
    b.length = 256 ∧ flitBad b = none ∧ bitAt (fieldAt b 4 2) 12 = false ∧ fieldAt b 0 1 = 1 ∧ fieldAt b 2 2 = seq := by
  unfold flitBad
  rw [crc64_forced]
  decide +kernel

/-- Every flit's kind is damaged with its CRC. -/
theorem wit_Flits_2 : (zeros 256).length = 256 ∧ flitBad (zeros 256) = some true := by
  unfold flitBad
  rw [crc64_forced]
  decide +kernel

theorem wit_Flits_3 : ∀ n ∈ [true, false], let s := linked 5 { nak := n }
    s.live = true ∧ s.portActive 1 = true ∧ (s.port 1).nak = n ∧ s.fld (R.MLK_STAT 1) F.MLK_STAT_RX_EXPECT = 0 ∧
    (2048 + 2048) % 4096 = 0 ∧ (4095 + 1) % 4096 = 0 ∧ 2047 = (0 + 2047) % 4096 := by decide +kernel

/-- An unacknowledged flit, the seventh and eighth replay; a report that is due. -/
theorem wit_Flits_4 : ∀ n ∈ [6, 7], let s := linked 5 { unacked := [{ seq := 4095 }], replays := n, fresh := 1 } [(R.MLK_CFG 1, F.MLK_CFG_REPLAY_TO, 10)] 1000
    s.live = true ∧ s.portActive 1 = true ∧ (s.port 1).unacked = [{ seq := 4095 }] ∧
    (s.port 1).ackAt + 100 * s.fld (R.MLK_CFG 1) F.MLK_CFG_REPLAY_TO ≤ s.tb.mono ∧ (s.port 1).replays = n ∧
    0 < (s.port 1).fresh ∧ (s.port 1).reportAt + 1000 ≤ s.tb.mono := by decide +kernel

/-- A held write of instance 5 at host address 4096, with its read-back, or waiting. -/
def heldWrite (what : HeldFor) (tag : Option Nat) : Held :=
  { port := 1, addr := 4096, bytes := zeros 64, what := what, inst := 5, gen := 7, tag := tag, failedAt := some 0 }

/-- It is held on port 1, ACTIVE for a host, when instance 5's generation is `gen`. -/
def withheld (h : Held) (gen : Nat) (m : MPort := {}) (mono : Nat := 1000000) : State :=
  { linked 5 m [] mono with insts := [(5, { st := 1, gen := gen })], held := [h],
                            mrds := [{ port := 1, tag := 3, age := 50000000 }], cmds := [(key0, cmd 0x5F [])] }

theorem wit_Reads_1 : ∀ w ∈ [HeldFor.mirror 1025, .status key0], let h := heldWrite w (some 3); let s := withheld h 7
    s.live = true ∧ s.hostUp 1 = true ∧ (s.mrds.find? fun m => m.port == 1 && m.tag == 3) = s.mrds.head? ∧
    (∀ m ∈ s.mrds, m.readBack = true ∧ m.chan = none) ∧ s.heldBy 1 3 = some h ∧ s.held = [h] ∧
    s.fresh h.inst h.gen = true ∧ (Tab.get s.cmds key0).isSome = true ∧
    (s.mrds.find? fun m => m.port == 1 && m.tag == 4) = none := by decide +kernel

theorem wit_Reads_2 : ∀ n ∈ [6, 7], let h := heldWrite (.status key0) (some 3)
    let s := withheld h 7 { timeouts := List.replicate n 1 }
    s.live = true ∧ s.portActive 1 = true ∧ (∀ m ∈ s.mrds, m.chan = none ∧ 50000000 ≤ m.age) ∧ s.heldBy 1 3 = some h ∧
    h.what = .status key0 ∧ ((s.port 1).timeouts.filter fun x => s.tb.mono < x + 1000000000).length = n := by decide +kernel

theorem wit_Reads_3 : ∀ g ∈ [7, 8], ∀ t ∈ [999999, 1000000], let h := heldWrite (.status key0) none; let s := withheld h g {} t
    s.live = true ∧ s.hostUp 1 = true ∧ s.held = [h] ∧ h.port = 1 ∧ h.tag = none ∧ s.reissueDue h = (t == 1000000) ∧
    s.fresh h.inst h.gen = (g == 7) ∧ s.freeTag 1 = some 0 ∧ Memory.wf s.hostMem = true := by decide +kernel

/-- A command waits for the data of a region write on the port that has gone. -/
theorem wit_Reads_4 : ∀ t ∈ [1999999999, 2000000000], let c := cmd 0x33 []
    let s := { withheld (heldWrite (.status key0) none) 7 { lostAt := some 0 } t with
               queues := [(1025, { ring with port := 1 })], writes := [(key0, { reqs := [{}] })], cmds := [(key0, c)] }
    s.live = true ∧ (s.port 1).lostAt = some 0 ∧ s.tb.mono = t ∧ (∀ h ∈ s.held, h.what.publication = true) ∧
    Tab.get s.runs key0 = none ∧ ((Tab.get s.writes key0).any fun w => w.reqs != []) = true ∧ Tab.get s.cmds key0 = some c ∧
    c.mgmt = false ∧ (Tab.at s.queues c.g).port = 1 := by decide +kernel

/-! ### HBM -/

/-- Stack 7 in a state of R663 (2 READY). -/
def stacked (st : Nat) (h : Hbm := {}) (mono : Nat := 0) (regs : List (Nat × (Nat × Nat) × Nat) := []) : State :=
  regs.foldl (fun s x => s.setFld x.1 x.2.1 x.2.2)
    (({ up with hbm := [(7, h)], tb := { mono := mono } } : State).setFld (R.HBM_STAT 7) F.HBM_STAT_STATE st)

theorem wit_Stacks_1 : let s := stacked 2 { refreshed := [(15, 0)], readAt := some 0 } (2 ^ 20)
    s.live = true ∧ s.hbmReady 7 = true ∧ s.refreshDue 7 15 ≤ s.tb.mono ∧ s.refreshDue 7 0 ≤ s.tb.mono ∧
    (∀ at_ ∈ (s.stack 7).readAt, at_ + 128000 ≤ s.tb.mono) ∧ (0 < s.fld R.TOP_THERM F.TOP_THERM_HBM_ALERT) ∧
    s.fld R.TOP_THERM F.TOP_THERM_HBM_ALERT ≤ 255 := by decide +kernel

/-- The patrol stands at the first beat of the stack, and at the last. -/
theorem wit_Stacks_2 : ∀ b ∈ [0, 16 * chanBeats - 1], let s := stacked 2 { patrol := b } 0 [(R.HBM_CTL 7, F.HBM_CTL_PATROL_EN, 1)]
    s.live = true ∧ s.hbmReady 7 = true ∧ s.bit (R.HBM_CTL 7) F.HBM_CTL_PATROL_EN = true ∧ (s.stack 7).patrol = b ∧
    s.refreshing 7 (b / chanBeats) = false ∧ b < 16 * chanBeats ∧
    s.poisoned (chanAddr (16 * 7 + b / chanBeats) (b % chanBeats * 32)) 32 = false := by decide +kernel

theorem wit_Stacks_3 : let s := stacked 2 { delays := [(64 * 31 + 35, (127, 0, 5))] } 0 [(R.HBM_CTL 7, F.HBM_CTL_RETRAIN_EN, 1)]
    s.live = true ∧ s.hbmReady 7 = true ∧ s.bit (R.HBM_CTL 7) F.HBM_CTL_RETRAIN_EN = true ∧
    s.retrainDue 7 (2 * 15 + 1) = true ∧ (Tab.at (s.stack 7).delays (64 * 31 + 35)).1 = 127 := by decide +kernel

/-- A frame of channel 127 that pool frame 5 stands for is to be retired; the pool frames `ks` have been taken. -/
def retiring (ks : List Nat) : State :=
  { stacked 2 with ras := { ({} : State).ras with repairing := [(5, 127, 9, none)] },
                   retired := ks.map fun k => (4096 * 127 + k, if k = 5 then { frame := 9, valid := true } else { frame := 1000000 + k }) }

theorem wit_Stacks_4 : ∀ ks ∈ [[5], List.range 4096], let s := retiring ks
    s.live = true ∧ s.hbmReady (127 / 16) = true ∧ (5, 127, 9, none) ∈ s.ras.repairing ∧
    (s.retired.filter fun e => e.1 / 4096 == 127).length = ks.length ∧
    s.poolOf 127 (s.frameHome 127 9) = some 5 ∧ (Tab.get s.retired (4096 * 127 + 4095)).isNone = (ks.length == 1) := by decide +kernel

theorem wit_Stacks_5 : ∀ st ∈ [1, 2], let s := stacked st
    s.live = true ∧ reaches .lamplighter = true ∧ bitAt (2 ^ 10) 10 = true ∧ s.fld (R.HBM_STAT 7) F.HBM_STAT_STATE = st := by
  decide +kernel

/-! ### Sconces -/

/-- Wick 3 has asked for 32 bytes of HBM at 65,568; the Sconce of lantern 0 holds `c`. -/
def asksFar (en : Nat) (c : Sconce) : State :=
  let l : FarLoad := { addrs := [65568], hbm := true, got := [none] }
  ({ tasks image [{ st := .running }] with wicks := [(3, { st := 1, ctx := 4, loads := [l] })], sconces := [(0, c)] } : State).setFld
    (R.LAN_SCN_CTL 0) F.LAN_SCN_CTL_EN en

/-- Way 31 of a Sconce is `v`. -/
def wayed (v : Way) : Sconce := { ways := List.replicate 31 {} ++ [v] }

theorem wit_Sconces_1 : ∀ v ∈ [({} : Way), { line := 512, valid := true, data := zeros 128 }], ∀ en ∈ [0, 1], let s := asksFar en (wayed v)
    let l : FarLoad := { addrs := [65568], hbm := true, got := [none] }; let c := Tab.at s.sconces 0
    s.live = true ∧ (s.wick 3).st ≠ 0 ∧ (s.wick 3).loads[0]? = some l ∧ 65568 % 128 + l.wid ≤ 128 ∧ 0 < l.wid ∧
    c.find (65568 / 128) = (if v.valid then some 31 else none) ∧ c.evict = [] ∧ (∀ v ∈ c.ways, v.filling = false) ∧
    c.ways.length = 32 ∧ s.bit (R.LAN_SCN_CTL 0) F.LAN_SCN_CTL_EN = (en == 1) ∧ (s.way 0 (s.victim 0 512)).dirty = false := by
  decide +kernel

theorem wit_Sconces_2 : ∀ ps ∈ [[], [65568]], let s := { asksFar 0 {} with poison := ps }
    s.poisoned 65568 32 = !ps.isEmpty ∧ (∀ v ∈ (Tab.at s.sconces 0).ways, v.valid = false) ∧
    (Tab.get s.ctxs (s.wick 3).ctx).isSome = true := by decide +kernel

theorem wit_Sconces_3 : ∀ ps ∈ [[], [65536]], let s := { asksFar 1 (wayed { line := 512, filling := true }) with poison := ps }
    s.live = true ∧ (s.way 0 31).filling = true ∧ (s.way 0 31).valid = false ∧
    s.poisoned (128 * (s.way 0 31).line) 128 = !ps.isEmpty := by decide +kernel

/-- A dirty line in the eviction buffer; way 31 valid, dirty or clean. -/
theorem wit_Sconces_4 : ∀ d ∈ [true, false], let e : Way := { line := 512, valid := true, dirty := true, data := zeros 128 }
    let s := asksFar 1 { wayed { e with line := 513, dirty := d } with evict := [e] }
    s.live = true ∧ (Tab.at s.sconces 0).evict.find? (·.dirty) = some e ∧ Memory.wf s.mem = true ∧
    (∀ op ∈ [1, 2, 3], let val := op + 2 ^ 2 + 31 * 2 ^ 4
      bitAt val 2 = true ∧ bitAt val 3 = false ∧ bitsOf val 4 5 = 31 ∧ bitsOf val 0 2 = op) ∧
    (s.way 0 31).valid = true ∧ (s.way 0 31).dirty = d ∧ (s.way 0 31).filling = false := by decide +kernel

/-- A range from line 512 on of 1 line: the lantern quiet, and not. -/
theorem wit_Sconces_5 : ∀ q ∈ [0, 1],
    let s := (((asksFar 1 (wayed { line := 513, valid := true, data := zeros 128 })).setFld (R.LAN_SCN_ADDR 0) F.LAN_SCN_ADDR_LINE 512).setFld
      (R.LAN_SCN_RANGE 0) F.LAN_SCN_RANGE_LENGTH 1).setFld (R.LAN_MON_STAT 0) F.LAN_MON_STAT_RUNNING q
    s.live = true ∧ (∀ v ∈ (Tab.at s.sconces 0).ways, v.filling = false) ∧ bitAt 12 3 = true ∧ bitAt 12 2 = true ∧
    bitAt 10 3 = true ∧ bitAt 10 2 = false ∧ bitsOf 10 0 2 ≠ 0 ∧ bitAt 10 1 = true ∧ s.lanternQuiet 0 = (q == 0) ∧
    s.lockOf 0 31 = none ∧ 512 + 1 ≤ (s.way 0 31).line ∧ (∀ w ∈ [0, 7], (s.way 0 w).filling = false) ∧
    bitAt 1 0 = true ∧ bitAt 2 0 = false := by decide +kernel

/-! ### The Chain -/

/-- Channel 63 in a state of R679, armed or not; both register sets describe 64 bytes from 65,536 to 131,072, of
generation 7 of instance 5. -/
def chained (st armed : Nat) (k : ChainRun := {}) (gen : Nat := 7) : State :=
  let s : State := { up with insts := [(5, { st := 1, gen := gen })], chains := [(63, k)] }
  let s := [R.CHN_D 63, R.CHN_A 63].foldl (fun s r => [(0, 65536), (1, 131072), (6, 64 * 2 ^ 32), (7, 5 * 2 ^ 8 + 7 * 2 ^ 32 + 2 ^ 7)].foldl
    (fun s x => s.wr (r x.1) x.2) s) s
  (s.setFld (R.CHN_CSTAT 63) F.CHN_CSTAT_STATE st).setFld (R.CHN_CSTAT 63) F.CHN_CSTAT_ARMED armed

theorem wit_Chains_1 : ∀ st ∈ [0, 1, 2, 3], ∀ a ∈ [0, 1], let s := (chained st a).setFld R.CHN_CTL F.CHN_CTL_EN 0
    s.live = true ∧ reaches .lamplighter = true ∧ s.chnState 63 = st ∧ s.bit (R.CHN_CSTAT 63) F.CHN_CSTAT_ARMED = (a == 1) ∧
    s.bit R.CHN_CTL F.CHN_CTL_EN = false ∧
    s.fresh (bitsOf (s.rd (R.CHN_D 63 7)) 8 11) (bitsOf (s.rd (R.CHN_D 63 7)) 32 16) = true ∧
    bitsOf (s.rd (R.CHN_D 63 6)) 32 13 ≠ 0 := by decide +kernel

theorem wit_Chains_2 : let s := (chained 1 0).setFld R.CHN_CTL F.CHN_CTL_EN 1; let k := Tab.at s.chains 63
    let p : RawPiece := { src := 65536, dst := 131072, len := 64 }
    s.live = true ∧ s.chnState 63 = 1 ∧ k.pos + p.len = s.chnTotal 63 ∧ k.want = [] ∧ (Tab.get s.chains 63).isSome = true ∧
    s.bit R.CHN_CTL F.CHN_CTL_EN = true ∧ s.fresh (s.chnInst 63) (s.chnGen 63) = true ∧ s.chnHost 63 false = false ∧
    s.chnHost 63 true = false ∧ s.chnBurst 63 k.pos = [p] ∧ s.poisoned p.src.toNat p.len = false ∧ Memory.wf s.mem = true ∧
    s.chnA 63 7 7 1 = 1 := by decide +kernel

theorem wit_Chains_3 : ∀ g ∈ [7, 8], let s := chained 2 0 {} g; let r := chained 1 0 {} g
    s.live = true ∧ s.chnState 63 = 2 ∧ s.chnHost 63 true = false ∧ r.chnState 63 = 1 ∧
    r.fresh (r.chnInst 63) (r.chnGen 63) = (g == 7) := by decide +kernel

/-! ### The Crankset -/

/-- Crank A is captain and crank B stoker; `k` changes the rest. -/
def seated (k : Crank → Crank := id) (regs : List (Nat × (Nat × Nat) × Nat) := []) : State :=
  regs.foldl (fun s x => s.setFld x.1 x.2.1 x.2.2) { up with crank := k { up.crank with roleB := .stoker } }

theorem wit_Seats_1 : ∀ d ∈ [0, 1], ∀ b ∈ [true, false], let s := seated (fun k => { k with detached := b, copied := 2, acked := 1, released := 0 }) [(R.CRK_CFG, F.CRK_CFG_DETECT, d)]
    s.live = true ∧ s.captain = some 0 ∧ s.crank.gap = false ∧ s.crank.halted = false ∧ s.attached 0 = !b ∧
    s.crank.acked < s.crank.copied ∧ s.crank.released < s.crank.acked ∧ s.bit R.CRK_CFG F.CRK_CFG_DETECT = (d == 1) ∧
    s.outbox = [] := by decide +kernel

/-- An item of the stroke that is released, of the claim in force and of one before. -/
theorem wit_Seats_2 : ∀ c ∈ [1, 2], let o : OutItem := { stroke := 0, claim := c, inst := 0, gen := 0, act := .status 0 }
    let s := { seated (fun k => { k with acked := 1 }) [(R.CRK_AUTH, F.CRK_AUTH_AUTH, 2)] with outbox := [o] }
    s.live = true ∧ s.crank.released < s.crank.acked ∧ s.outbox.filter (fun o => decide (o.stroke ≤ s.crank.released)) = [o] ∧
    s.fld R.CRK_AUTH F.CRK_AUTH_AUTH = 2 := by decide +kernel

theorem wit_Seats_3 : ∀ a ∈ [1, 2, 3], let s := seated id [(R.CRK_AUTH, F.CRK_AUTH_AUTH, 2), (R.CRK_CLAIM, F.CRK_CLAIM_CLAIM_B, a)]
    s.live = true ∧ s.fld R.CRK_AUTH F.CRK_AUTH_AUTH = 2 ∧ s.claimOf 1 = a := by decide +kernel

/-- Each seat after six and seven silent windows, by `DETECT`, with a synchronised stoker and without. -/
theorem wit_Seats_4 : ∀ n ∈ [6, 7], ∀ d ∈ [0, 1], ∀ y ∈ [true, false], ∀ x ∈ [0xFFFFFFFE, 0xFFFFFFFF],
    let w : Watch := { silent := n, copyLost := n, wireLost := n, copyOk := n }
    let s := seated (fun k => { k with watchA := w, watchB := w, synced := y, detached := !y })
      [(R.CRK_CFG, F.CRK_CFG_DETECT, d), (R.CRK_CLAIM, F.CRK_CLAIM_CLAIM_A, x)]
    s.live = true ∧ s.role 0 = .captain ∧ s.role 1 = .stoker ∧ s.crank.gap = false ∧ s.crank.halted = false ∧
    s.crank.taking = none ∧ s.bit R.CRK_CFG F.CRK_CFG_DETECT = (d == 1) ∧ s.crank.synced = y ∧ s.crank.detached = !y ∧
    s.claimOf (other 1) = x ∧ s.stoker = some 1 := by decide +kernel

theorem wit_Seats_5 : ∀ d ∈ [0, 1], let s := seated id [(R.CRK_CFG, F.CRK_CFG_DETECT, d)]
    s.live = true ∧ s.captain = some 0 ∧ s.stoker = some 1 ∧ s.bit R.CRK_CFG F.CRK_CFG_ARB_SRC = false ∧ s.crank.taking = none ∧
    s.crank.gap = false ∧ s.crank.synced = true ∧ s.crank.detached = false ∧ s.claimOf (other 1) < 0xFFFFFFFF ∧
    s.bit R.CRK_CFG F.CRK_CFG_DETECT = (d == 1) := by decide +kernel

theorem wit_Seats_6 : let s := seated (fun k => { k with taking := some 1 }) [(R.CRK_CLAIM, F.CRK_CLAIM_CLAIM_A, 0xFFFFFFFE)]
    let t := { s with crank := { s.crank with gap := true } }
    s.live = true ∧ s.crank.taking = some 1 ∧ s.role 1 = .stoker ∧ s.crank.gap = false ∧ s.crank.halted = false ∧
    s.crank.act = none ∧ s.claimOf (other 1) < 0xFFFFFFFF ∧ t.live = true ∧ t.crank.gap = true ∧ t.crank.halted = false := by
  decide +kernel

/-- A stoker that synchronises again, and a seat that boots with the captain's image. -/
theorem wit_Seats_7 : ∀ r ∈ [Role.stoker, .booting], let s := { up with crank := { up.crank with roleB := r, rejoin := [1] } }
    s.live = true ∧ s.captain = some 0 ∧ 1 = other 0 ∧ s.crank.gap = false ∧ s.crank.halted = false ∧ 1 ∈ s.crank.rejoin ∧
    s.role 1 = r ∧ (r = .booting → (s.rejoinImage 1).isSome = true) := by decide +kernel

/-- A FAILED seat for which neither flash image begins with the image's magic number. -/
theorem wit_Seats_8 : let s := { up with crank := { up.crank with roleB := .failed, rejoin := [1] } }
    s.live = true ∧ s.captain = some 0 ∧ 1 ∈ s.crank.rejoin ∧ s.role 1 ≠ .stoker ∧ s.rejoinImage 1 = none := by decide +kernel

theorem wit_Seats_9 : ∀ d ∈ [0, 1], let s := { (up.setFld R.TOP_BOOT F.TOP_BOOT_STAGE 3).setFld R.CRK_CFG F.CRK_CFG_DETECT d with
      crank := { verified := [1], bootStart := some 0 }, tb := { mono := 4000000000 } }
    s.live = true ∧ s.stage = 3 ∧ s.crank.verified = [1] ∧ s.crank.bootStart = some 0 ∧ 4000000000 ≤ s.tb.mono ∧
    s.bit R.CRK_CFG F.CRK_CFG_DETECT = (d == 1) ∧ s.grant 1 = false := by decide +kernel

theorem wit_Seats_10 : ∀ a ∈ [Role.failed, .captain], ∀ b ∈ [Role.failed, .stoker], let s := { up with crank := { roleA := a, roleB := b } }
    s.live = true ∧ reaches .lamplighter = true ∧ s.crank.roleA = a ∧ s.crank.roleB = b ∧ bitAt (1 + 2 ^ 63) 0 = true ∧
    bitAt (1 + 2 ^ 63) 63 = true := by decide +kernel

/-! ### Firmware -/

/-- A block of two seats that has accepted a command. -/
def commanding (c : Cmd) (k : Crank → Crank := id) : State :=
  let s := asks (tenant ring) c
  { s with crank := k { s.crank with roleB := .stoker } }

/-- `FW_STAGE` of 0 bytes at `a`, last piece or not; of one byte too many. -/
theorem wit_Firmware_1 : ∀ x ∈ [(2 ^ 64 - 64, 64, 0), (2 ^ 64 - 64, 65, 0), (0, 16777216, 0), (0, 16777217, 0), (0, 64, 1)],
    let c := cmd 0x18 (prms [(0, 8, x.1), (8, 4, x.2.1), (12, 1, x.2.2)])
    due (commanding c) key0 0x18 c = true ∧ c.p 0 8 = x.1 ∧ c.p 8 4 = x.2.1 ∧ bitAt (c.p 12 1) 0 = (x.2.2 == 1) ∧
    (commanding c).crank.fw = [] ∧ (commanding c).verifyFw (zeros 64) = false := by decide +kernel

/-- `FW_ACTIVATE`: nothing staged; staged, with a stoker and without; another major version with queue 1,026 at work. -/
theorem wit_Firmware_2 : ∀ f ∈ [true, false], ∀ y ∈ [true, false], let c := cmd 0x19 (zeros 40)
    let s := commanding c fun k => { k with fwStaged := f, synced := y }
    due s key0 0x19 c = true ∧ c.started = false ∧ s.crank.fwStaged = f ∧ s.stoker = some 1 ∧ s.crank.synced = y ∧
    s.crank.detached = false ∧ s.crank.act = none ∧ fieldAt s.crank.fw 5 1 = fieldAt s.firmware 5 1 := by decide +kernel

theorem wit_Firmware_3 : let c := cmd 0x19 (zeros 40)
    let s := { commanding c (fun k => { k with fwStaged := true, fw := zeros 5 ++ le 2 1 }) with
      queues := [(1025, ring), (1026, { ring with loc := 2 })], cmds := [(key0, c), (1026 * 65536, { cmd 0x5F (zeros 40) with g := 1026 })] }
    due s key0 0x19 c = true ∧ s.stoker = some 1 ∧ s.crank.synced = true ∧ fieldAt s.crank.fw 5 1 ≠ fieldAt s.firmware 5 1 ∧
    bitAt (c.p 0 1) 0 = false ∧ (Tab.at s.queues 1026).st ≠ .absent ∧ s.queueIdle 1026 = false := by decide +kernel

theorem wit_Firmware_4 : ∀ ph ∈ [1, 2], let c := { cmd 0x19 (zeros 40) with started := true }
    let s := commanding c fun k => { k with act := some (key0, 0, ph) }
    due s key0 0x19 c = true ∧ c.started = true ∧ s.crank.act = some (key0, 0, ph) ∧ s.stoker = some 1 ∧ s.crank.gap = false ∧
    s.crank.taking = none := by decide +kernel

theorem wit_Firmware_5 : let c := { cmd 0x19 (zeros 40) with started := true }
    let s := { commanding c (fun k => { k with act := some (key0, 0, 0) }) with tb := { mono := 2000000000 } }
    s.serving = true ∧ s.captain = some 0 ∧ s.crank.act = some (key0, 0, 0) ∧ 2000000000 ≤ s.tb.mono ∧
    Tab.get s.cmds key0 = some c := by decide +kernel

/-! ### Sealwax -/

/-- `KEY_LOAD` of slot 31 with `len` bytes, where a load seed is burned or not and Sealwax is in service or not. -/
def keyed (len pol : Nat) (dead : Bool) : State :=
  let s := asks (tenant ring) (cmd 0x1A (prms [(0, 1, 31), (16, 4, len)]))
  { s with ras := { s.ras with policy := pol, loadSeed := zeros 32 }, swx := { s.swx with dead := dead } }

theorem wit_Digests_1 : ∀ len ∈ [0, 255, 256], ∀ pol ∈ [0, 4], ∀ d ∈ [true, false], let s := keyed len pol d
    let c := cmd 0x1A (prms [(0, 1, 31), (16, 4, len)])
    due s key0 0x1A c = true ∧ c.p 0 1 = 31 ∧ c.p 16 4 = len ∧ s.loadSeedSet = (pol == 4) ∧ s.swx.dead = d ∧
    s.openKeyBlob 31 (zeros 256) = none := by decide +kernel

/-- The plaintext and the header of a blob that brings a key of 32 bytes for every instance to slot 31. -/
def keyPlain : List Byte := padTo (le 32 1 ++ zeros 1 ++ le 0x7FF 2 ++ le 5 32) 192
def keyHead : List Byte := le 0x42574B50 4 ++ le 1 1 ++ le 2 1 ++ zeros 6 ++ le 31 1 ++ zeros 11

theorem wit_Digests_2 : ∃ b, (keyed 256 4 false).openKeyBlob 31 b = some (le 5 32, 0x7FF) := by
  have f (key : List Byte) (lo n : Nat) (h : lo + n ≤ 24) :
      fieldAt (sealedBlob key keyHead (zeros 12) keyPlain) lo n = fieldAt keyHead lo n := sealedBlob_field _ _ _ _ lo n h
  have v : some (slice keyPlain 4 (fieldAt keyPlain 0 1), fieldAt keyPlain 2 2 % 2048) = some (le 5 32, 0x7FF) := by
    decide +kernel
  have u (key : List Byte) (l : key.length = 32) : unwrapBlob key (sealedBlob key keyHead (zeros 12) keyPlain) = some keyPlain :=
    unwrapBlob_sealed key keyHead (zeros 12) keyPlain l (by decide +kernel) (by decide +kernel) (by decide +kernel)
      (by decide +kernel) (by decide +kernel) (by decide +kernel) (by decide +kernel) (by decide +kernel)
  have o (s : State) (l : (s.loadKey 31).length = 32) :=
    openKeyBlob_of s 31 (sealedBlob (s.loadKey 31) keyHead (zeros 12) keyPlain) keyPlain (u _ l)
      ((f _ 5 1 (by decide)).trans (by decide +kernel)) ((f _ 8 4 (by decide)).trans (by decide +kernel))
      ((f _ 12 1 (by decide)).trans (by decide +kernel)) ((f _ 13 1 (by decide)).trans (by decide +kernel))
      ((f _ 16 4 (by decide)).trans (by decide +kernel)) (by decide +kernel) (by decide +kernel) (by decide +kernel)
      (by decide +kernel)
  rw [v] at o
  exact ⟨_, o _ (kdf_length _ _ _ _)⟩

/-- A `DIGEST` of `len` bytes with flags `f` and `TOTAL` `tot` for message 3, beside what Sealwax holds. -/
def digesting (f len tot : Nat) (msgs : Tab SwxMsg := []) (dead : Bool := false) : State :=
  let s := asks (tenant ring) (cmd 0x50 (prms [(1, 1, f), (2, 2, 3), (16, 4, len), (24, 8, tot), (32, 8, 64)] 48))
  { s with swx := { s.swx with msgs := msgs, dead := dead } }

theorem wit_Digests_3 : ∀ f ∈ [0, 1, 2, 8], ∀ d ∈ [true, false], let s := digesting f 64 0 [] d
    let c := cmd 0x50 (prms [(1, 1, f), (2, 2, 3), (16, 4, 64), (24, 8, 0), (32, 8, 64)] 48)
    due s key0 0x50 c = true ∧ c.started = false ∧ c.p 16 4 = 64 ∧ s.swx.dead = d ∧
    (digestField c (Tab.get s.swx.msgs (65536 * c.inst + c.p 2 2))).isSome = (f == 8) ∧
    (f = 2 → bitAt (c.p 1 1) 1 = true ∧ s.slotServes (c.p 0 1) c.inst = false) := by decide +kernel

/-- 63 and 64 messages of the instance stand beside it. -/
theorem wit_Digests_4 : ∀ n ∈ [63, 64], let s := digesting 0 64 0 ((List.range n).map fun i => (65536 * 5 + 4 + i, {}))
    Tab.get s.swx.msgs (65536 * 5 + 3) = none ∧ (s.swx.msgs.filter fun e => e.1 / 65536 == 5).length = n ∧
    s.swx.msgs.length < 4096 := by decide +kernel

theorem wit_Digests_5 : ∀ f ∈ [0, 1], ∀ len ∈ [63, 64], ∀ tot ∈ [0, 63, 64], let s := digesting f len tot
    let c := cmd 0x50 (prms [(1, 1, f), (2, 2, 3), (16, 4, len), (24, 8, tot), (32, 8, 64)] 48)
    due s key0 0x50 c = true ∧ c.p 1 1 = f ∧ c.p 24 8 = tot ∧ (zeros len).length = c.p 16 4 ∧
    digestField c none = none ∧ s.swx.msgs = [] ∧ (s.swxCtx 7).st = 0 ∧ s.ctxFor (65536 * 5 + 3) = none := by decide +kernel

/-- Message 3 of instance 5 has a block ready in context 7. -/
def absorbing (m : SwxMsg) (active : Nat := 0) : State :=
  let s := ((asks (tenant ring) (cmd 0x50 (prms [(1, 1, 1), (2, 2, 3)] 48))).setFld R.SWX_CTL F.SWX_CTL_EN 1).setFld R.SWX_STAT F.SWX_STAT_ACTIVE active
  { s with swx := { s.swx with msgs := [(65536 * 5 + 3, { m with taken := true, words := shaInit, gen := 7 })],
                               ctxs := [(7, { st := 1, msg := 65536 * 5 + 3 })] } }

theorem wit_Digests_6 : ∀ x ∈ [(0, 128), (63, 65), (0, 64)], ∀ a ∈ [0, 1],
    let s := absorbing { buf := zeros x.1, more := zeros x.2, padded := true, cmd := some key0 } a
    let m := s.swxMsg (65536 * 5 + 3)
    s.live = true ∧ s.bit R.SWX_CTL F.SWX_CTL_EN = true ∧ s.swx.dead = false ∧ s.swxNext = some 7 ∧ (s.swxCtx 7).msg = 65536 * 5 + 3 ∧
    (m.more.drop (64 - m.buf.length)).length = (if x.2 = 64 then 0 else 64) ∧ s.bit R.SWX_STAT F.SWX_STAT_ACTIVE = (a == 1) ∧
    m.slot < 32 ∧ m.padded = true ∧ m.keyed = false ∧ m.words.length = 8 ∧ m.cmd = some key0 ∧
    bitAt ((Tab.at s.cmds key0).p 1 1) 2 = false ∧ (Tab.get s.cmds key0).isSome = true := by decide +kernel

/-- Every context is LOADED with a message that has a save area, and a ninth message waits. -/
def crowded : State :=
  { tenant ring with swx := { ({} : State).swx with
      msgs := (8, { waitSince := some 0 }) :: (List.range 8).map fun i => (i, { save := 64 }),
      ctxs := (List.range 8).map fun i => (i, { st := 1, msg := i }) } }

theorem wit_Digests_7 : crowded.live = true ∧ (∃ e ∈ crowded.swx.msgs, e.2.waitSince.isSome = true) ∧
    (∀ i ∈ List.range 8, (crowded.swxCtx i).st ≠ 0 ∧ (crowded.swxCtx i).st ≠ 2) ∧ crowded.exportChoice.isSome = true := by
  decide +kernel

/-- Context 7 imports message 3 of instance 5, whose slot has since been loaded again or not. -/
def importing (m : SwxMsg) (loads : Nat := 0) : State :=
  let s := asks (tenant ring) (cmd 0x50 (zeros 48))
  { s with swx := { s.swx with msgs := [(65536 * 5 + 3, { m with gen := 7 })], ctxs := [(7, { st := 3, msg := 65536 * 5 + 3 })],
                               slots := [(31, { key := some (zeros 32), loads := loads })] } }

theorem wit_Digests_8 : let s := importing { cmd := some key0 }
    s.live = true ∧ (s.swxCtx 7).st = 3 ∧ (Tab.get s.swx.msgs (s.swxCtx 7).msg).isSome = true ∧
    (Tab.get s.cmds key0).isSome = true ∧ s.openStateBlob (65536 * 5 + 3) (zeros 256) = none := by decide +kernel

/-- The header of its blob, and the plaintext of a message under slot 31, or under none. -/
def stateHead : List Byte := le 0x42574B50 4 ++ le 1 1 ++ le 1 1 ++ zeros 2 ++ le 5 2 ++ le 7 2 ++ le 3 2 ++ zeros 2 ++ zeros 8
def statePlain (k : Nat) : List Byte := SwxMsg.plain { keyed := k == 1, slot := 31, words := shaInit }

theorem wit_Digests_9 : ∀ k ∈ [0, 1], ∀ loads ∈ [0, 1], ∃ b x, let s := importing { taken := false } loads
    (s.swxCtx 7).st = 3 ∧ s.openStateBlob (65536 * 5 + 3) b = some x ∧ x.keyed = (k == 1) ∧ x.slot = (if k = 1 then 31 else 0) ∧
    (s.swxSlot 31).loads = loads ∧ x.loads = 0 ∧ x.taken = false ∧ x.cmd = none := by
  intro k hk loads hl
  have f (key : List Byte) (lo n : Nat) (h : lo + n ≤ 24) :
      fieldAt (sealedBlob key stateHead (zeros 12) (statePlain k)) lo n = fieldAt stateHead lo n :=
    sealedBlob_field _ _ _ _ lo n h
  have e : (importing { taken := false } loads).fld R.SWX_ATT F.SWX_ATT_EPOCH = 0 :=
    (by decide +kernel : ∀ l ∈ [0, 1], (importing { taken := false } l).fld R.SWX_ATT F.SWX_ATT_EPOCH = 0) loads hl
  have m : (importing { taken := false } loads).swxMsg (65536 * 5 + 3) = { taken := false, gen := 7 } :=
    (by decide +kernel : ∀ l ∈ [0, 1], (importing { taken := false } l).swxMsg (65536 * 5 + 3) = { taken := false, gen := 7 })
      loads hl
  have n : ∀ l ∈ [0, 1], ((importing { taken := false } l).swxCtx 7).st = 3 ∧
      ((importing { taken := false } l).swxSlot 31).loads = l := by decide +kernel
  have p : ∀ k ∈ [0, 1], (statePlain k).length = 192 ∧ fieldAt (statePlain k) 96 1 ≤ 63 ∧ fieldAt (statePlain k) 97 1 < 4 ∧
      fieldAt (statePlain k) 99 1 = 0 ∧ fieldAt (statePlain k) 120 72 = 0 ∧
      bitAt (fieldAt (statePlain k) 97 1) 0 = (k == 1) ∧ fieldAt (statePlain k) 98 1 = (if k = 1 then 31 else 0) ∧
      fieldAt (statePlain k) 100 4 = 0 := by decide +kernel
  obtain ⟨p0, p1, p2, p3, p4, p5, p6, p7⟩ := p k hk
  have u := unwrapBlob_sealed (wrapKey 0) stateHead (zeros 12) (statePlain k) (sha256_length _) (by decide +kernel)
    (by decide +kernel) p0 (by decide +kernel) (by decide +kernel) (by decide +kernel) (by decide +kernel) (by decide +kernel)
  have o (s : State) (e : s.fld R.SWX_ATT F.SWX_ATT_EPOCH = 0) (m : s.swxMsg (65536 * 5 + 3) = { taken := false, gen := 7 }) :
      ∃ b x, s.openStateBlob (65536 * 5 + 3) b = some x ∧ x.keyed = (k == 1) ∧ x.slot = (if k = 1 then 31 else 0) ∧
        x.loads = 0 ∧ x.taken = false ∧ x.cmd = none :=
    ⟨_, _, openStateBlob_of s (65536 * 5 + 3) (sealedBlob (wrapKey 0) stateHead (zeros 12) (statePlain k)) (statePlain k) (by rw [e]; exact u)
      ((f _ 5 1 (by decide)).trans (by decide +kernel)) ((f _ 8 2 (by decide)).trans (by decide +kernel))
      ((f _ 10 2 (by decide)).trans (by rw [m]; decide +kernel))
      ((f _ 12 2 (by decide)).trans (by decide +kernel))
      ((f _ 16 4 (by decide)).trans (Eq.trans (by decide +kernel : fieldAt stateHead 16 4 = 0) e.symm))
      ((sealedBlob_iv _ _ _ _ 32 4 (by decide +kernel) (by decide) (by decide)).trans (by decide +kernel)) p1 p2 p3 p4, by simp only [p5],
      by simp only [p6], by simp only [p7], by rw [m], by rw [m]⟩
  have ⟨b, x, h⟩ := o (importing { taken := false } loads) e m
  exact ⟨b, x, (n loads hl).1, h.1, h.2.1, h.2.2.1, (n loads hl).2, h.2.2.2⟩

theorem wit_Digests_10 : ∀ sv ∈ [true, false], let s := { asks (tenant ring) (cmd 0x50 (zeros 48)) with
      tb := { mono := 2000000000 }, swx := { ({} : State).swx with msgs := [(65536 * 5 + 3, { waitSince := some 0, saved := sv, cmd := some key0 })] } }
    s.live = true ∧ (s.swxMsg (65536 * 5 + 3)).waitSince = some 0 ∧ 2000000000 ≤ s.tb.mono ∧ (s.swxMsg (65536 * 5 + 3)).saved = sv ∧
    (Tab.get s.cmds key0).isSome = true := by decide +kernel

/-! ### Wear and repair -/

/-- A block that serves, with registers set. -/
def set (regs : List (Nat × (Nat × Nat) × Nat)) (s : State := up) : State := regs.foldl (fun s x => s.setFld x.1 x.2.1 x.2.2) s

theorem wit_Repairs_1 : let s := { set [(R.RAS_SOOT 1385, F.RAS_SOOT_BASELINE, 100), (R.RAS_SOOT_CFG, F.RAS_SOOT_CFG_PERIOD, 1),
      (R.RAS_TH, F.RAS_TH_SOOT, 1)] (up.wr (R.RAS_SOOT 1385) 0) with tb := { now := 1000000000 } }
    s.live = true ∧ s.ras.sootAt + 1000000000 * s.fld R.RAS_SOOT_CFG F.RAS_SOOT_CFG_PERIOD ≤ s.now ∧
    s.fld (R.RAS_SOOT 1385) F.RAS_SOOT_DEGRADE < s.fld R.RAS_TH F.RAS_TH_SOOT ∧
    s.fld R.RAS_TH F.RAS_TH_SOOT ≤ min 2047 ((s.sootBase 1385 - 0) * 10000 / s.sootBase 1385) := by decide +kernel

/-- Units of every class stand in service, each soot-worn; every correction counts; wick 3 runs a task, or none. -/
def worn (auto : Nat) (run : Bool) (regs : List (Nat × (Nat × Nat) × Nat) := []) : State :=
  set ([(R.RAS_CTL, F.RAS_CTL_AUTO_EN, auto), (R.RAS_TH, F.RAS_TH_SOOT, 0), (R.RAS_TH, F.RAS_TH_CORE_CE, 0),
      (R.RAS_TH, F.RAS_TH_FOLD_CE, 0), (R.RAS_TH, F.RAS_TH_FRAME_CE, 0), (R.FOLD_U_STAT 0, F.FOLD_U_STAT_IN_SERVICE, 1),
      (R.LAN_REP_STAT 0, F.LAN_REP_STAT_FILLS, 1), (R.LAN_REP_STAT 0, F.LAN_REP_STAT_SPARE_FOR, 31)] ++ regs)
    (if run then { tasks image [{ st := .running }] with wicks := [(3, { st := 1, ctx := 4 })] } else tenant ring)

theorem wit_Repairs_2 : ∀ r ∈ [true, false], ∀ a ∈ [0, 1], let s := worn a r
    s.serving = true ∧ s.bit R.RAS_CTL F.RAS_CTL_AUTO_EN = (a == 1) ∧
    (∀ x ∈ [(1, 3, 2048), (2, 0, 0), (4, 0, 0), (5, 127, 0), (10, 0, 32767)], s.unitServes x.1 x.2.1 x.2.2 = true) ∧
    s.onWick 3 = (if r then [(s.wick 3).ctx] else []) ∧ (r = true → (Tab.get s.ctxs (s.wick 3).ctx).isSome = true) ∧
    s.sooty 3 = true ∧ s.sooty 1156 = true ∧ s.sooty 1224 = true ∧ s.fld R.RAS_TH F.RAS_TH_FRAME_CE = 0 ∧
    s.spareWick 0 = true ∧ s.slotOf 0 = some 0 ∧ s.spareLantern 0 = true ∧ Memory.wf s.mem = true ∧
    (r = false → s.ctxs = []) ∧ (∀ v ∈ (Tab.at s.sconces 0).ways, v.dirty = false) ∧ (Tab.at s.sconces 0).evict = [] := by
  decide +kernel

theorem wit_Repairs_3 : let s := { worn 1 false with ras := { ({} : State).ras with ce := [(10, 0, 7, 0), (10, 0, 7, 0)] } }
    s.unitServes 10 0 7 = true ∧ 2 ≤ s.ceCount (24 * hourNs) (fun x => (x.1 == 10 && x.2.1 == 0) && x.2.2 == 7) := by decide +kernel

/-- `REPAIR` of each kind, on a unit that is in service and has a spare. -/
def repairing (kind unit detail : Nat) (regs : List (Nat × (Nat × Nat) × Nat) := []) : State :=
  let s := worn 1 false ([(R.CHD_BANK 3 31, F.CHD_BANK_OUT_OF_SERVICE, 0), (R.CHD_BSPARE 3 31, F.CHD_BSPARE_USED, 63),
    (R.MLK_STAT 1, F.MLK_STAT_STATE, 5), (R.MLK_CTL 1, F.MLK_CTL_SWAP_EN, 1), (R.MLK_STAT 1, F.MLK_STAT_LANE_GOOD, 511)] ++
    ((List.range 9).map fun l => (R.MLK_LANE_STAT 1 l, F.MLK_LANE_STAT_LOGICAL, l)) ++ regs)
  let s := asks s (cmd 0x1C (prms [(0, 1, kind), (2, 2, unit), (4, 4, detail)]))
  { s with crank := { s.crank with roleB := if detail = 0 then .failed else .stoker } }

theorem wit_Repairs_4 : ∀ x ∈ [(1, 3, 0), (2, 0, 0), (3, 127, 2047), (4, 0, 0), (5, 127, 0), (6, 127, 24575), (7, 1, 7), (8, 1, 0),
      (8, 0, 1), (9, 0, 0), (10, 0, 32767)], let s := repairing x.1 x.2.1 x.2.2; let c := cmd 0x1C (prms [(0, 1, x.1), (2, 2, x.2.1), (4, 4, x.2.2)])
    due s key0 0x1C c = true ∧ c.started = false ∧ c.p 0 1 = x.1 ∧ c.p 2 2 = x.2.1 ∧ c.p 4 4 = x.2.2 ∧
    s.repairField x.1 x.2.1 x.2.2 = none ∧ s.repairBusy x.1 x.2.1 x.2.2 = false ∧ s.repairSpent x.1 x.2.1 true x.2.2 = false ∧
    s.onWick 3 = [] ∧ s.slotOf 0 = some 0 ∧ s.ctxs = [] := by decide +kernel

/-- A kind that is none; a row whose bank has no spare row left; a frame that is being retired. -/
theorem wit_Repairs_5 : (repairing 11 0 0).repairField 11 0 0 ≠ none ∧
    (let s := repairing 3 127 0 [(R.CHD_BSPARE 3 31, F.CHD_BSPARE_USED, 64)]
     s.repairField 3 127 0 = none ∧ s.repairBusy 3 127 0 = false ∧ s.repairSpent 3 127 true 0 = true) ∧
    (let s := repairing 5 127 0; let t := { s with ras := { s.ras with repairing := [(5, 127, 0, none)] } }
     t.repairField 5 127 0 = none ∧ t.repairBusy 5 127 0 = true) := by decide +kernel

/-- A block that serves, its offset registers zero, whose page has `n` repairs. -/
def paged (n : Nat) : State :=
  { up with csr := up.csr ++ userRegs.map fun r => (r.1, 0), ras := { up.ras with page := List.replicate n (1, 3, 0) } }

theorem get_zero (l : Tab (BitVec 64)) (k : Nat) (z : ∀ e ∈ l, e.1 = k → e.2 = 0) (m : ∃ e ∈ l, e.1 = k) :
    Tab.get l k = some 0 := by
  induction l with
  | nil => exact absurd m (by simp)
  | cons x l ih =>
    unfold Tab.get
    by_cases h : x.1 = k
    · simp [h, z x (by simp) h]
    · obtain ⟨e, me, he⟩ := m
      have me' : e ∈ l := (List.mem_cons.mp me).resolve_left fun q => h (q ▸ he)
      simp only [h, if_false]
      exact ih (fun e m => z e (by simp [m])) ⟨e, me', he⟩

theorem paged_entries (n : Nat) : ((paged n).buildPage 1).2 = n := by
  have k : ∀ e ∈ up.csr, ∀ r ∈ userRegs, e.1 ≠ r.1 := by decide +kernel
  have f : userRegs.filter (fun r => bitsOf ((paged n).rd r.1) r.2.1 r.2.2 != 0) = [] := by
    refine List.filter_eq_nil_iff.mpr fun r m => ?_
    have g : Tab.get (paged n).csr r.1 = some 0 := by
      refine get_zero _ _ (fun e me he => ?_) ⟨(r.1, 0), List.mem_append_right _ (List.mem_map.mpr ⟨r, m, rfl⟩), rfl⟩
      rcases List.mem_append.mp me with me | me
      · exact absurd he (k e me r m)
      · obtain ⟨q, _, rfl⟩ := List.mem_map.mp me
        rfl
    unfold State.rd
    rw [g]
    simp [bitsOf]
  unfold State.buildPage
  dsimp only
  rw [f]
  simp [paged]

/-- A page of no entries, of 250 and of 251. -/
theorem wit_Repairs_6 : ∀ n ∈ [0, 250, 251], (paged n).serving = true ∧ ((paged n).buildPage 1).2 = n ∧ (paged n).ras.saveAgain = false :=
  fun n h => ⟨(by decide +kernel : ∀ n ∈ [0, 250, 251], (paged n).serving = true) n h, paged_entries n, rfl⟩

theorem wit_Repairs_7 : ∀ t ∈ [true, false], let s := { up with ras := { up.ras with burned := if t then [(1, [])] else [] } }
    s.live = true ∧ reaches .lamplighter = true ∧ bitAt 5 2 = true ∧ bitsOf 5 0 2 = 1 ∧ s.otpTaken 1 = t := by decide +kernel

theorem wit_Repairs_8 : ∀ f ∈ [0, 2], let s := { set [(R.FOLD_SPARE 7, F.FOLD_SPARE_FAILED, f)] with ras := { up.ras with repairing := [(4, 134, 0, none)] } }
    s.live = true ∧ s.unitFailing (16 * 7 + 15) = true ∧ s.fld (R.FOLD_SPARE 7) F.FOLD_SPARE_FAILED = f ∧
    s.bit (R.FOLD_SPARE 7) F.FOLD_SPARE_ACTIVE = false ∧ s.runs = [] ∧ (∀ e ∈ s.ras.repairing, e.2.2.1 = 0) := by decide +kernel

/-! ### The Snuffer, power and reset -/

theorem wit_Snuffer_1 : ∀ p ∈ [0, 1], ∀ z ∈ [true, false], ∀ r ∈ [true, false], let s := set [(R.DBG_CTL, F.DBG_CTL_PIN_EN, p)]
    let s := { s with ras := { s.ras with frozen := z }, boot := { s.boot with inReset := r } }
    s.bit R.DBG_CTL F.DBG_CTL_PIN_EN = (p == 1) ∧ s.ras.frozen = z ∧ s.boot.inReset = r ∧ s.pins.pwrgood = true := by decide +kernel

theorem wit_Snuffer_2 : ∀ n ∈ [true, false], let s := { up with ras := { up.ras with frozen := true }, pins := { up.pins with snuffN := n } }
    s.ras.frozen = true ∧ s.pins.snuffN = n := by decide +kernel

/-- Wick 16 of lantern 67 is held at a `BREAK`, the last word of its kernel, or the word before. -/
def atBreak (pc : Nat) : State :=
  set [(R.DBG_WICKSEL, F.DBG_WICKSEL_LANTERN, 67), (R.DBG_WICKSEL, F.DBG_WICKSEL_WICK, 16)]
    { tasks image [{ st := .running }] with wicks := [(1155, { st := 2, ctx := 4, codeBase := 1024, codeLen := 16, pc := pc })] }

theorem wit_Snuffer_3 : ∀ pc ∈ [1024, 1032], let s := atBreak pc; let k := s.wick s.debugWick
    s.live = true ∧ s.debugHeld = true ∧ k.repKind = 0 ∧ k.codeBase ≤ k.pc + 8 ∧
    (k.codeBase + k.codeLen ≤ k.pc + 8 ↔ pc = 1032) ∧ (Tab.get s.ctxs k.ctx).isSome = true ∧ up.debugHeld = false := by decide +kernel

/-- Recipe slot 2 of lantern 0 is in use, slot 3 is not; a write that names lantern 0, or 68. -/
theorem wit_Snuffer_4 : let s := scans { slot := some 2 }; let val := 2 ^ 23 + 3 * 2 ^ 9
    s.live = true ∧ bitAt val 23 = true ∧ bitsOf val 0 7 = 0 ∧ bitAt val (7 + 2) = true ∧ bitAt val (7 + 3) = true ∧
    bitAt val (7 + 15) = false ∧ s.slotBusy 0 2 = true ∧ s.slotBusy 0 3 = false ∧ bitsOf (val + 68) 0 7 = 68 := by decide +kernel

theorem wit_Resets_1 : ∀ t ∈ [11499, 11500], let s := set [(R.CAL_TS 63, F.CAL_TS_TEMP, t)] ((List.range 64).foldl (fun s n => s.wr (R.CAL_TS n) 0) up)
    s.pins.pwrgood = true ∧ s.ras.frozen = false ∧ s.overTrip = (t == 11500) := by decide +kernel

/-- VID stands 3 and 5 codes from `TOP_VID.CODE`, on either side, and at it. -/
theorem wit_Resets_2 : ∀ v ∈ [35, 37, 40, 43, 45], let s := { up.wr R.TOP_VID 40 with pins := { up.pins with vid := v } }
    s.pins.pwrgood = true ∧ s.ras.frozen = false ∧ s.fld R.TOP_VID F.TOP_VID_CODE = 40 ∧ s.boot.vidSince = 0 ∧ s.pins.vid = v := by
  decide +kernel

theorem wit_Resets_3 : ∀ p ∈ [true, false], ∀ n ∈ [true, false], ∀ z ∈ [true, false], let s := { set [(R.HBM_STAT 7, F.HBM_STAT_STATE, 3)] with
      pins := { up.pins with pwrgood := p, resetN := n }, ras := { up.ras with frozen := z }, boot := { up.boot with warm := z } }
    s.pins.pwrgood = p ∧ s.pins.resetN = n ∧ s.ras.frozen = z ∧ s.boot.warm = z ∧ s.fld (R.HBM_STAT 7) F.HBM_STAT_STATE = 3 := by
  decide +kernel

/-! ### Boot -/

/-- A block at a stage of its boot, with a boot mode. -/
def booting (stage mode : Nat) (s : State := up) : State :=
  set [(R.TOP_BOOT, F.TOP_BOOT_STAGE, stage), (R.TOP_STRAP, F.TOP_STRAP_BOOT_MODE, mode)] s

theorem wit_Boot_1 : ∀ f ∈ [1, 2, 3], let s := { booting 0 0 with ras := { up.ras with burned := [(f, zeros 32)] } }
    s.live = true ∧ s.stage = 0 ∧ s.ras.burned = [(f, zeros 32)] := by decide +kernel

theorem wit_Boot_2 : ∀ m ∈ [3, 4, 5], let s := booting 1 m
    s.live = true ∧ s.stage = 1 ∧ s.fld R.TOP_STRAP F.TOP_STRAP_BOOT_MODE = m ∧ (∀ b ∈ [0, 127], b < 128) := by decide +kernel

theorem wit_Boot_3 : ∀ m ∈ [0, 2, 3, 4], let s := { booting 2 m with tb := { mono := 2000000000 } }
    s.live = true ∧ s.stage = 2 ∧ s.fld R.TOP_STRAP F.TOP_STRAP_BOOT_MODE = m ∧
    s.nextSlot = (if m = 0 then some 0 else if m = 2 then some 1 else none) ∧ Memory.wf s.flash = true ∧ Memory.wf s.mem = true ∧
    s.boot.fetchB = false ∧ s.boot.fetchStart + 2000000000 ≤ s.tb.mono := by decide +kernel

/-- An image that fails, with another to try and without. -/
theorem wit_Boot_4 : ∀ m ∈ [0, 1], let s := booting 3 m
    s.live = true ∧ s.stage = 3 ∧ 1 ∉ s.crank.verified ∧ s.verifyFw s.bufferImage = false ∧
    s.bootSlots[s.boot.tried + 1]?.isSome = (m == 0) := by decide +kernel

theorem wit_Boot_5 : ∀ r ∈ [Role.failed, .booting], ∀ p ∈ [true, false], let s := { booting 4 0 with
      crank := { roleB := r, verified := if r = Role.failed then [0] else [0, 1] }, boot := { up.boot with paged := p } }
    s.live = true ∧ s.stage = 4 ∧ s.bootCaptain = some 0 ∧ s.bestPage = none ∧ s.epochLeft = true ∧ s.role (other 0) = r ∧
    s.boot.paged = p := by decide +kernel

/-- Every stack trains at its first rate, one at the next, one at none. -/
theorem wit_Boot_6 : ∀ rates ∈ [List.replicate 8 2, List.replicate 7 2 ++ [3]], let s := booting 5 0 ((List.range 8).foldl (fun s st => s.wr (R.HBM_CFG st) 0) up)
    s.live = true ∧ s.stage = 5 ∧ rates.length = 8 ∧
    (∀ st ∈ List.range 8, s.fld (R.HBM_CFG st) F.HBM_CFG_RATE ≤ rates.getD st 0 ∧ rates.getD st 0 ≤ 3) ∧
    s.fld (R.HBM_STAT 7) F.HBM_STAT_STATE ≠ 3 ∧ s.fld (R.HBM_CFG 7) F.HBM_CFG_RATE < rates.getD 7 0 := by decide +kernel

theorem wit_Boot_7 : ∀ w ∈ [true, false], let s := { booting 6 0 with boot := { up.boot with warm := w } }
    let bases := [0x4680000000, 0x4680100000, 0x4680200000, 0x477FF00000]
    s.live = true ∧ s.stage = 6 ∧ bases.length = 4 ∧ bases.Nodup ∧
    (∀ b ∈ bases, b % 0x100000 = 0 ∧ 0x4680000000 ≤ b ∧ b < 0x4780000000) ∧ s.boot.warm = w := by decide +kernel

theorem wit_Boot_8 : ∀ v ∈ [0, 1], let s := set [(R.TOP_MGRQ_CFG, F.TOP_MGRQ_CFG_VALID, v)] (booting 7 0)
    s.live = true ∧ s.stage = 7 ∧ s.bit R.TOP_MGRQ_CFG F.TOP_MGRQ_CFG_VALID = (v == 1) := by decide +kernel

/-! ### Management -/

theorem wit_Mgmt_1 : up.busServes .mgmt = true ∧ State.busServes { up with boot := { up.boot with inReset := true } } .mgmt = false := by
  decide +kernel

theorem wit_Mgmt_2 : (R.TOP_BOOT < 2 ^ 32 ∧ R.TOP_BOOT % 8 = 0 ∧ occupied R.TOP_BOOT = true ∧ R.TOP_BOOT < R.DRL_HIST 0) ∧
    2 ^ 32 - 1 < 2 ^ 32 ∧ (2 ^ 32 - 1) % 8 ≠ 0 := by decide +kernel

/-- An entry of 64 bytes: an opcode, its flags, its units. -/
def entryOf (op flags units : Nat) : List Byte := le op 1 ++ le flags 1 ++ le units 1 ++ zeros 61

/-- Every end of a management command: two units, not whole, an opcode that is not of the manager's, reserved flags, a
reserved parameter, and one that is accepted. -/
theorem wit_Mgmt_3 : ∀ x ∈ [(0x19, 3, 2), (0x19, 1, 1), (0x5F, 3, 1), (0x19, 0x83, 1), (0x10, 3, 1), (0x19, 3, 1)],
    let b := entryOf x.1 x.2.1 x.2.2; let e := readEntry b
    up.busServes .mgmt = true ∧ up.boot.mgmtCmd = none ∧ b.length = 64 ∧ e.units = x.2.2 ∧ e.opcode = x.1 ∧
    (x.1 = 0x5F ↔ e.opcode ∉ mgmtOpcodes) ∧ (x.2.1 = 1 ↔ ¬(bitAt e.flags 0 = true ∧ bitAt e.flags 1 = true)) ∧
    (headerOffence e 0).isSome = (x.2.1 == 0x83) ∧ (paramOffence e.opcode (slice b 8 40)).isSome = (x.1 == 0x10) ∧
    paramMissing e.opcode (slice b 8 40) = false := by decide +kernel

theorem wit_Mgmt_4 : ∀ v ∈ [0, 1], let s := set [(R.DBG_CTL, F.DBG_CTL_SMB_EN, v)]
    s.busServes .mgmt = true ∧ s.bit R.DBG_CTL F.DBG_CTL_SMB_EN = (v == 1) := by decide +kernel

/-- The last 8 bytes of HBM, frozen or not, poisoned or not; an address of no place. -/
theorem wit_Mgmt_5 : ∀ z ∈ [true, false], ∀ ps ∈ [[], [0x4780000000 - 32]], let s := { up with ras := { up.ras with frozen := z }, poison := ps }
    let a := 0x4780000000 - 8
    s.busServes .jtag = true ∧ a < 2 ^ 40 ∧ a + 8 ≤ 0x4780000000 ∧ Memory.wf s.mem = true ∧ s.ras.frozen = z ∧
    s.poisoned a 8 = !ps.isEmpty ∧ 2 ^ 40 - 1 < 2 ^ 40 ∧ s.place 0x4800000000 = .unassigned := by decide +kernel

theorem wit_Mgmt_6 : (0x3FFF8 < 0x40000 ∧ 67 < 68 ∧ 0x3FFF8 + 8 ≤ 0x40000) ∧ (1155 < 1156 ∧ 0x1FFF8 + 8 ≤ 0x20000) ∧
    (127 < 128 ∧ 16376 % 8 = 0 ∧ 16376 / 8 < 2048) ∧ 0xFF ∉ [0x00, 0x01, 0x02, 0x10, 0x11, 0x20, 0x21] := by decide +kernel

/-- A sensor and a monitor whose registers are zero: readings beside the limits. -/
theorem wit_Mgmt_7 : let s := set [(R.TOP_THERM, F.TOP_THERM_DIE_ALERT, 95)] ((up.wr (R.CAL_TS 63) 0).wr (R.CAL_VM 15) 0)
    s.live = true ∧ sgn 16 (s.fld (R.CAL_TS 63) F.CAL_TS_FACTORY) + sgn 16 (s.fld (R.CAL_TS 63) F.CAL_TS_USER) = 0 ∧
    100 * (s.fld R.TOP_THERM F.TOP_THERM_DIE_ALERT : Int) ≤ 9500 ∧ (9499 : Int) < 100 * (s.fld R.TOP_THERM F.TOP_THERM_DIE_ALERT : Int) ∧
    (let rail := s.railOf 15; rail.1 * rail.2 < 1000 * ((7688 : Int) - rail.1).natAbs ∧
      1000 * ((7687 : Int) - rail.1).natAbs ≤ rail.1 * rail.2) := by decide +kernel

/-! ### The block as a whole -/

theorem wit_StepFront : State.reset.pending = [] := by decide +kernel

theorem wit_MemoriesKept : MemOk State.reset := by unfold MemOk; decide +kernel

theorem wit_OneCaptain : ¬(up.crank.roleA = .captain ∧ up.crank.roleB = .captain) := by decide +kernel

theorem wit_FrozenHolds : let s := { up with ras := { up.ras with frozen := true }, pending := [.retrain 0] }
    s.ras.frozen = true ∧ (∀ c ∈ s.pending.head?, reachesFrozen c = false) := by decide +kernel
/-! ## Ill-formed commands: one for each check of `Instr.wf`, at the edge of what it admits -/

/-- The word rows: a wick the device lacks, and a fetch outcome R219 lacks. -/
theorem test_wf_words :
    ∀ c ∈ ([
      Instr.wordNop, Instr.mov, Instr.add, Instr.sub, Instr.mul, Instr.mulh, Instr.mulhu, Instr.div, Instr.divu,
      Instr.rem, Instr.remu, Instr.min, Instr.max, Instr.minu, Instr.maxu, Instr.neg, Instr.abs, Instr.and, Instr.or,
      Instr.xor, Instr.andn, Instr.not, Instr.shl, Instr.shr, Instr.sar, Instr.addo, Instr.subo, Instr.mulo,
      Instr.addou, Instr.subou, Instr.swiden, Instr.uwiden, Instr.narrow, Instr.addq, Instr.subq, Instr.addqo,
      Instr.subqo, Instr.dscl, Instr.dsclo, Instr.ddivr, Instr.cmpeq, Instr.cmpne, Instr.cmplt, Instr.cmple,
      Instr.cmpgt, Instr.cmpge, Instr.cmpltu, Instr.cmpleu, Instr.cmpgtu, Instr.cmpgeu, Instr.blend, Instr.compress,
      Instr.expand, Instr.mcount, Instr.mexp, Instr.mpack, Instr.mtail, Instr.fadd, Instr.fsub, Instr.fmul,
      Instr.fdiv, Instr.fsqrt, Instr.fmin, Instr.fmax, Instr.fneg, Instr.fabs, Instr.fceq, Instr.fclt, Instr.fcle,
      Instr.fcanon, Instr.fcvtf, Instr.fcvti, Instr.fwiden, Instr.fnarrow, Instr.hash, Instr.hashf, Instr.crcb,
      Instr.pfxcmp, Instr.bclass, Instr.ldx, Instr.gather, Instr.stx, Instr.sfold, Instr.emit, Instr.eflush,
      Instr.search, Instr.step, Instr.slpush, Instr.slseal, Instr.slpop, Instr.lda, Instr.adda, Instr.sta,
      Instr.rdff, Instr.clrff, Instr.rdrep, Instr.br, Instr.bany, Instr.ball, Instr.bnone, Instr.bnall, Instr.loop,
      Instr.baz, Instr.banz, Instr.call, Instr.ret, Instr.yield, Instr.halt, Instr.haltf, Instr.break, Instr.rep,
      Instr.repi] : List (Nat → Nat → Instr)),
    (c 1156 0).wf = false ∧ (c 0 3).wf = false ∧ (c 1155 2).wf = true := by
  decide +kernel

/-- Commands with one operand just outside what the block has (1). -/
theorem test_wf_refused_1 : ∀ i ∈ ([
      .csrWrite .mgmt (2 ^ 28) 1 0, .csrWrite .mgmt 0 0 0, .csrWrite .mgmt 0 (8 + 1) 0, .csrWrite .mgmt 0 1 (2 ^ 64),
      .csrReadClear .mgmt (2 ^ 28), .unassignedAccess .mgmt (2 ^ 16) true 0, .unassignedAccess .mgmt 0 true (2 ^ 40),
      .tailDoorbell (1024 + 1) 0 0, .tailDoorbell 0 512 0, .tailDoorbell 0 0 (2 ^ 32), .dbell 6 0 0 0 0,
      .dbell 0 2048 0 0 0, .dbell 0 0 (2 ^ 16) 0 0, .dbell 0 0 0 (2 ^ 16) 0, .dbell 0 0 0 0 (2 ^ 32),
      .cmdp 6 0 0 0 0 0, .cmdp 0 2048 0 0 0 0, .cmdp 0 0 (2 ^ 16) 0 0 0, .cmdp 0 0 0 (2 ^ 16) 0 0,
      .cmdp 0 0 0 0 (2 ^ 32) 0, .cmdp 0 0 0 0 0 256, .entryFetch 16384 [], .entryFetch 0 (List.replicate 4097 0),
      .headPublish 16384, .ntfy 16384, .eventWrite (1024 + 1), .overflowEvent 16384,
      .mailboxDoorbell (1024 + 1) true 0, .mailboxDoorbell 0 true (2 ^ 64), .identify (mgmtKey + 1),
      .queueCreate (mgmtKey + 1) 0, .queueCreate 0 16384, .queueDelete (mgmtKey + 1), .queueDrain (mgmtKey + 1),
      .queueFlush (mgmtKey + 1) [], .getState (mgmtKey + 1), .setFeature (mgmtKey + 1), .getLog (mgmtKey + 1) true,
      .instanceCreate (mgmtKey + 1), .instanceResize (mgmtKey + 1)] : List Instr),
    i.wf = false := by
  decide +kernel

/-- Commands with one operand just outside what the block has (2). -/
theorem test_wf_refused_2 : ∀ i ∈ ([
      .resizeRelease (1024 + 1), .instanceReset (mgmtKey + 1), .instanceDestroy (mgmtKey + 1),
      .generationRetireEnd (1024 + 1) 0, .generationRetireEnd 0 (2 ^ 16), .poolSetup (mgmtKey + 1),
      .fwStage (mgmtKey + 1) none, .fwActivate (mgmtKey + 1) true, .keyLoad (mgmtKey + 1) none,
      .repair (mgmtKey + 1) true true, .timeSet (mgmtKey + 1), .tableWrite (mgmtKey + 1), .xferRdy (mgmtKey + 1) 0,
      .xferRdy 0 256, .dataPacket 6 0 0 0 0 0 0 true [0], .dataPacket 0 2048 0 0 0 0 0 true [0],
      .dataPacket 0 0 (2 ^ 16) 0 0 0 0 true [0], .dataPacket 0 0 0 (2 ^ 16) 0 0 0 true [0],
      .dataPacket 0 0 0 0 (2 ^ 32) 0 0 true [0], .dataPacket 0 0 0 0 0 256 0 true [0],
      .dataPacket 0 0 0 0 0 0 (2 ^ 32) true [0], .dataPacket 0 0 0 0 0 0 0 true [],
      .dataPacket 0 0 0 0 0 0 0 true (List.replicate 4097 0), .xferTimeout (mgmtKey + 1) 0, .xferTimeout 0 256,
      .tableRead (mgmtKey + 1), .tableCopy (mgmtKey + 1), .regionAlloc (mgmtKey + 1) 0 0, .regionAlloc 0 (2 ^ 16) 0,
      .regionAlloc 0 0 (2 ^ 40), .regionFree (mgmtKey + 1), .pipelineLoad (mgmtKey + 1) 0 [] [] [],
      .pipelineLoad 0 (2 ^ 16) [] [] [], .pipelineUnload (mgmtKey + 1), .queryRun (mgmtKey + 1),
      .runStart (mgmtKey + 1) [] [] [], .queryAbort (mgmtKey + 1), .queryStatus (mgmtKey + 1),
      .digest (mgmtKey + 1) none 0, .barrier (mgmtKey + 1)] : List Instr),
    i.wf = false := by
  decide +kernel

/-- Commands with one operand just outside what the block has (3). -/
theorem test_wf_refused_3 : ∀ i ∈ ([
      .nop (mgmtKey + 1), .qmQresetGo .mgmt 16384, .queueEnable .mgmt 16384 true, .stageStart (mgmtKey + 1) 0 [],
      .stageStart 0 64 [], .stageBarrier (mgmtKey + 1) 0 0 0, .stageBarrier 0 64 0 0, .dispatch 1156 0 0,
      .dispatch 0 (2 ^ 20) 0, .dispatch 0 0 (2 + 1), .preempt 1156 0, .preempt 0 (2 ^ 16), .resumeTask 1156 0,
      .resumeTask 0 (2 ^ 20), .watchdog 1156 0, .stalledWordIssue 1156 0, .farLoadData 1156 0, .commitPass (2 ^ 20),
      .publish (2 ^ 20), .slotCommit (mgmtKey + 1) 0 0, .slotCommit 0 64 0, .slotCommit 0 0 64,
      .slotRestart (mgmtKey + 1) 0 0, .slotRestart 0 64 0, .slotRestart 0 0 64, .migration (2 ^ 20) 0,
      .migration 0 64, .resultEntryWrite (mgmtKey + 1), .endEntryWrite (mgmtKey + 1), .resultStall (mgmtKey + 1),
      .runResume (mgmtKey + 1), .deadlineMissed (mgmtKey + 1), .recipeSlotFill 1156 true,
      .segmentDeliver 1156 [] true, .idBitmapBuild 1156, .rcpinv .mgmt 68 0, .rcpinv .mgmt 0 (2 ^ 64),
      .recipeWindowWrite .mgmt 68 0 0 0, .recipeWindowWrite .mgmt 0 16 0 0, .recipeWindowWrite .mgmt 0 0 384 0] : List Instr),
    i.wf = false := by
  decide +kernel

/-- Commands with one operand just outside what the block has (4). -/
theorem test_wf_refused_4 : ∀ i ∈ ([
      .recipeWindowWrite .mgmt 0 0 0 (2 ^ 64), .exchangeSend 1156 0 0, .exchangeSend 0 0x030 0,
      .recordsPacket 6 0 0 0 0 0 0 0 0 0 [], .recordsPacket 0 16 0 0 0 0 0 0 0 0 [],
      .recordsPacket 0 0 16 0 0 0 0 0 0 0 [], .recordsPacket 0 0 0 4 0 0 0 0 0 0 [],
      .recordsPacket 0 0 0 0 (2 ^ 16) 0 0 0 0 0 [], .recordsPacket 0 0 0 0 0 (2 ^ 16) 0 0 0 0 [],
      .recordsPacket 0 0 0 0 0 0 256 0 0 0 [], .recordsPacket 0 0 0 0 0 0 0 (2 ^ 32) 0 0 [],
      .recordsPacket 0 0 0 0 0 0 0 0 (2 ^ 16) 0 [], .recordsPacket 0 0 0 0 0 0 0 0 0 256 [],
      .recordsPacket 0 0 0 0 0 0 0 0 0 0 (List.replicate 113 0), .markPacket 6 0 0 0 0 0 0,
      .markPacket 0 16 0 0 0 0 0, .markPacket 0 0 16 0 0 0 0, .markPacket 0 0 0 4 0 0 0,
      .markPacket 0 0 0 0 (2 ^ 32) 0 0, .markPacket 0 0 0 0 0 256 0, .markPacket 0 0 0 0 0 0 (2 ^ 32),
      .markAck 6 0 0 0 0 0, .markAck 0 16 0 0 0 0, .markAck 0 0 16 0 0 0, .markAck 0 0 0 4 0 0,
      .markAck 0 0 0 0 (2 ^ 32) 0, .markAck 0 0 0 0 0 256, .unreachable 6 0 0 0 0, .unreachable 0 16 0 0 0,
      .unreachable 0 0 16 0 0, .unreachable 0 0 0 4 0, .unreachable 0 0 0 0 256, .chdSearchServe 1156 [],
      .chdStepServe 1156 [], .chdGo .mgmt 4 0, .chdGo .mgmt 0 (2 ^ 64), .chdClear .mgmt 4 0,
      .chdClear .mgmt 0 (2 ^ 64), .chdInsert 4, .chdDelete 4] : List Instr),
    i.wf = false := by
  decide +kernel

/-- Commands with one operand just outside what the block has (5). -/
theorem test_wf_refused_5 : ∀ i ∈ ([
      .scrubRow 4 [], .bankWrite .mgmt 4 0 0, .bankWrite .mgmt 0 32 0, .bankWrite .mgmt 0 0 (2 ^ 64),
      .foldRequestApply 0 (2 + 1), .foldLineDrain 128, .foldFinish (mgmtKey + 1) 0, .foldFinish 0 128,
      .foldSpareSwap 8 0, .foldSpareSwap 0 16, .foldTblCfgWrite .mgmt 64 0 0, .foldTblCfgWrite .mgmt 0 4 0,
      .foldTblCfgWrite .mgmt 0 0 (2 ^ 64), .ladderSort 68 true, .runClose 1156 0, .runClose 0 (2 ^ 40),
      .sortMerge 1156 0, .sortMerge 0 (2 ^ 40), .fmtctlSet .mgmt 68 0, .fmtctlSet .mgmt 0 (2 ^ 64),
      .fmtctlClear .mgmt 68 0, .fmtctlClear .mgmt 0 (2 ^ 64), .formatWindowWrite .mgmt 68 0 0,
      .formatWindowWrite .mgmt 0 64 0, .formatWindowWrite .mgmt 0 0 (2 ^ 64), .cogcfgWrite .mgmt (2 ^ 64),
      .flitReceive 6 (List.replicate 256 0) 0, .flitReceive 0 [] 0, .replayTimeout 6, .controlResend 6 0,
      .swapReq 6 0 0, .swapReq 0 8 0, .swapReq 0 0 (2 ^ 32), .swapAt 6 true, .laneErrorWindow 6 [] 0,
      .laneErrorWindow 0 (List.replicate 10 0) 0, .portEnable .mgmt 6 true, .retrain 6, .trainingFrames 6 0,
      .trainingFrames 0 (9 + 1)] : List Instr),
    i.wf = false := by
  decide +kernel

/-- Commands with one operand just outside what the block has (6). -/
theorem test_wf_refused_6 : ∀ i ∈ ([
      .equaliseDone 6 0 true, .equaliseDone 0 512 true, .alignDone 6 (List.replicate 9 (false, 0, 0)),
      .alignDone 0 [], .configAgreement 0 0 0 0 [] true 0, .configAgreement 6 0 0 0 (List.replicate 4 0) true 0,
      .configAgreement 0 2 0 0 (List.replicate 4 0) true 0, .configAgreement 0 0 16 0 (List.replicate 4 0) true 0,
      .configAgreement 0 0 0 512 (List.replicate 4 0) true 0,
      .configAgreement 0 0 0 0 (List.replicate 4 0) true 4096, .trainTimeout 6, .refclkLoss 6, .linkLost 6,
      .cpl 6 0 0 [], .cpl 0 1024 0 [], .cpl 0 0 4 [], .cpl 0 0 0 (List.replicate 4097 0), .cplTimeout 6 0,
      .cplTimeout 0 1024, .publicationReissue 6, .hello 6 0 0, .hello 0 2 0, .hello 0 0 16, .echo 6 [],
      .echo 0 (List.replicate 65 0), .echoReply 6 [], .echoReply 0 (List.replicate 65 0), .refresh 8 0,
      .refresh 0 16, .tempReadout 8 0, .tempReadout 0 256, .patrolRead 8 0 0, .patrolRead 0 3 0, .patrolRead 0 0 36,
      .hbmRetrain 8 0 0 [], .hbmRetrain 0 16 0 [], .hbmRetrain 0 0 2 [], .frameRetire 128 0 0 [],
      .frameRetire 0 (2 ^ 20) 0 [], .frameRetire 0 0 (2 ^ 12) []] : List Instr),
    i.wf = false := by
  decide +kernel

/-- Commands with one operand just outside what the block has (7). -/
theorem test_wf_refused_7 : ∀ i ∈ ([
      .trnGo .mgmt 8 0 0 0, .trnGo .mgmt 0 (2 ^ 64) 0 0, .trnGo .mgmt 0 0 (2 ^ 36) 0, .trnGo .mgmt 0 0 0 (2 ^ 64),
      .chainGo .mgmt 64 0 [], .chainGo .mgmt 0 (2 ^ 64) [], .chainAbort .mgmt 64 0, .chainAbort .mgmt 0 (2 ^ 64),
      .chainClear .mgmt 64 0, .chainClear .mgmt 0 (2 ^ 64), .chainComplete 64 [], .sconceRequest 1156 0 0 0,
      .sconceRequest 0 0 0 (2 + 1), .sconceFill 68 0 [], .sconceFill 0 32 [], .sconceWriteBack 68,
      .scnClean .mgmt 68 0, .scnClean .mgmt 0 (2 ^ 64), .scnInvalidate .mgmt 68 0, .scnInvalidate .mgmt 0 (2 ^ 64),
      .scnCleanInvalidate .mgmt 68 0, .scnCleanInvalidate .mgmt 0 (2 ^ 64), .scnRange .mgmt 68 0,
      .scnRange .mgmt 0 (2 ^ 64), .scnLock .mgmt 68 0 0, .scnLock .mgmt 0 8 0, .scnLock .mgmt 0 0 (2 ^ 64),
      .heartbeatWindow 2 true true, .claimInstruction 2, .rejoin 2, .swxBlock (2 + 1), .swxImport 8 none,
      .swxWaitTimeout (1024 + 1) 0, .swxWaitTimeout 0 (2 ^ 16), .autoRepair 16 0 0 0 true true true,
      .autoRepair 0 (2 ^ 16) 0 0 true true true, .autoRepair 0 0 (2 ^ 32) 0 true true true,
      .otpProgGo .mgmt (2 ^ 64) true, .rcpvalidGo .mgmt (2 ^ 64), .crkRejoinWrite .mgmt (2 ^ 64)] : List Instr),
    i.wf = false := by
  decide +kernel

/-- Commands with one operand just outside what the block has (8). -/
theorem test_wf_refused_8 : ∀ i ∈ ([
      .pwrgoodHigh (2 ^ 7), .verifyStage 2, .lamplighterStage (epochPositions + 1), .hbmStage [] [] [] [],
      .servicesStage [], .smbCsrRead (2 ^ 32) true, .smbCsrWrite (2 ^ 32) 0 true, .smbCsrWrite 0 (2 ^ 64) true,
      .smbFreeze 256 true, .memAcc true (2 ^ 40) 0, .memAcc true 0 (2 ^ 64), .testAcc true (2 ^ 40) 0,
      .testAcc true 0 (2 ^ 64), .bypass 256, .scrubVisitEnd 4, .dieSensorConversion 64 0,
      .voltageMonitorReading 16 0, .voltageMonitorReading 0 (2 ^ 16), .ackReport 6, .sramTestStage [128]] : List Instr),
    i.wf = false := by
  decide +kernel

/-- The same commands with every operand inside (1): the terms above are refused for the one operand. -/
theorem test_wf_admitted_1 : ∀ i ∈ ([
      .csrWrite .mgmt 0 1 0, .csrReadClear .mgmt 0, .unassignedAccess .mgmt 0 true 0, .tailDoorbell 0 0 0,
      .dbell 0 0 0 0 0, .cmdp 0 0 0 0 0 0, .entryFetch 0 [], .headPublish 0, .ntfy 0, .eventWrite 0,
      .overflowEvent 0, .mailboxDoorbell 0 true 0, .identify 0, .queueCreate 0 0, .queueDelete 0, .queueDrain 0,
      .queueFlush 0 [], .getState 0, .setFeature 0, .getLog 0 true, .instanceCreate 0, .instanceResize 0,
      .resizeRelease 0, .instanceReset 0, .instanceDestroy 0, .generationRetireEnd 0 0, .poolSetup 0,
      .fwStage 0 none, .fwActivate 0 true, .keyLoad 0 none, .repair 0 true true, .timeSet 0, .tableWrite 0,
      .xferRdy 0 0, .dataPacket 0 0 0 0 0 0 0 true [0], .xferTimeout 0 0, .tableRead 0, .tableCopy 0,
      .regionAlloc 0 0 0, .regionFree 0, .pipelineLoad 0 0 [] [] [], .pipelineUnload 0, .queryRun 0,
      .runStart 0 [] [] [], .queryAbort 0, .queryStatus 0, .digest 0 none 0, .barrier 0, .nop 0, .qmQresetGo .mgmt 0,
      .queueEnable .mgmt 0 true, .stageStart 0 0 [], .stageBarrier 0 0 0 0, .dispatch 0 0 0, .preempt 0 0,
      .resumeTask 0 0, .watchdog 0 0, .stalledWordIssue 0 0, .farLoadData 0 0, .commitPass 0] : List Instr),
    i.wf = true := by
  decide +kernel

/-- The same commands with every operand inside (2): the terms above are refused for the one operand. -/
theorem test_wf_admitted_2 : ∀ i ∈ ([
      .publish 0, .slotCommit 0 0 0, .slotRestart 0 0 0, .migration 0 0, .resultEntryWrite 0, .endEntryWrite 0,
      .resultStall 0, .runResume 0, .deadlineMissed 0, .recipeSlotFill 0 true, .segmentDeliver 0 [] true,
      .idBitmapBuild 0, .rcpinv .mgmt 0 0, .recipeWindowWrite .mgmt 0 0 0 0, .exchangeSend 0 0 0,
      .recordsPacket 0 0 0 0 0 0 0 0 0 0 [], .markPacket 0 0 0 0 0 0 0, .markAck 0 0 0 0 0 0, .unreachable 0 0 0 0 0,
      .chdSearchServe 0 [], .chdStepServe 0 [], .chdGo .mgmt 0 0, .chdClear .mgmt 0 0, .chdInsert 0, .chdDelete 0,
      .scrubRow 0 [], .bankWrite .mgmt 0 0 0, .foldRequestApply 0 0, .foldLineDrain 0, .foldFinish 0 0,
      .foldSpareSwap 0 0, .foldTblCfgWrite .mgmt 0 0 0, .ladderSort 0 true, .runClose 0 0, .sortMerge 0 0,
      .fmtctlSet .mgmt 0 0, .fmtctlClear .mgmt 0 0, .formatWindowWrite .mgmt 0 0 0, .cogcfgWrite .mgmt 0,
      .flitReceive 0 (List.replicate 256 0) 0, .replayTimeout 0, .controlResend 0 0, .swapReq 0 0 0, .swapAt 0 true,
      .laneErrorWindow 0 [] 0, .portEnable .mgmt 0 true, .retrain 0, .trainingFrames 0 0, .equaliseDone 0 0 true,
      .alignDone 0 (List.replicate 9 (false, 0, 0)), .configAgreement 0 0 0 0 (List.replicate 4 0) true 0,
      .trainTimeout 0, .refclkLoss 0, .linkLost 0, .cpl 0 0 0 [], .cplTimeout 0 0, .publicationReissue 0,
      .hello 0 0 0, .echo 0 [], .echoReply 0 []] : List Instr),
    i.wf = true := by
  decide +kernel

/-- The same commands with every operand inside (3): the terms above are refused for the one operand. -/
theorem test_wf_admitted_3 : ∀ i ∈ ([
      .refresh 0 0, .tempReadout 0 0, .patrolRead 0 0 0, .hbmRetrain 0 0 0 [], .frameRetire 0 0 0 [],
      .trnGo .mgmt 0 0 0 0, .chainGo .mgmt 0 0 [], .chainAbort .mgmt 0 0, .chainClear .mgmt 0 0, .chainComplete 0 [],
      .sconceRequest 0 0 0 0, .sconceFill 0 0 [], .sconceWriteBack 0, .scnClean .mgmt 0 0, .scnInvalidate .mgmt 0 0,
      .scnCleanInvalidate .mgmt 0 0, .scnRange .mgmt 0 0, .scnLock .mgmt 0 0 0, .heartbeatWindow 0 true true,
      .claimInstruction 0, .rejoin 0, .swxBlock 0, .swxImport 0 none, .swxWaitTimeout 0 0,
      .autoRepair 0 0 0 0 true true true, .otpProgGo .mgmt 0 true, .rcpvalidGo .mgmt 0, .crkRejoinWrite .mgmt 0,
      .pwrgoodHigh 0, .verifyStage 0, .lamplighterStage 0, .hbmStage (List.replicate 8 0) [] [] [],
      .servicesStage (List.replicate 4 0), .smbCsrRead 0 true, .smbCsrWrite 0 0 true, .smbFreeze 0 true,
      .memAcc true 0 0, .testAcc true 0 0, .bypass 0, .scrubVisitEnd 0, .dieSensorConversion 0 0,
      .voltageMonitorReading 0 0, .ackReport 0] : List Instr),
    i.wf = true := by
  decide +kernel
/-! ## Small tests against published values and the manual's worked examples (R3: they illustrate and do not bind) -/

/-- FIPS 180-4, appendix B.1: the digest of "abc". -/
theorem test_sha256_abc : sha256 [0x61, 0x62, 0x63] =
    be 0xba7816bf8f01cfea414140de5dae2223b00361a396177a9cb410ff61f20015ad 32 := by decide +kernel

/-- FIPS 197, appendix C.3: AES-256. -/
theorem test_aes256_block : aesBlock (aesKeys (be 0x000102030405060708090a0b0c0d0e0f101112131415161718191a1b1c1d1e1f 32))
    (be 0x00112233445566778899aabbccddeeff 16) = be 0x8ea2b7ca516745bfeafc49904b496089 16 := by decide +kernel

/-- RFC 4231, test case 2. -/
theorem test_hmac_jefe : hmac (be 0x4a656665 4) (be 0x7768617420646f2079612077616e7420666f72206e6f7468696e673f 28) =
    be 0x5bdcc146bf60754e6a042426089575c75a003f089d2739839dec58b964ec3843 32 := by decide +kernel

/-- The check value of CRC-32C: the digits 1 to 9. -/
theorem test_crc32c_digits : crc32c (be 0x313233343536373839 9) = 0xE3069283 := by decide +kernel

/-- The three words of the Taper reference's worked example. -/
def env0 : Env := { a := [0, 0, 0, 0, 0, 0, 0, 0, 0, 0, 0, 0, 0, 0, 0, 0], slots := 64, bound := [] }

theorem test_decode_cmpgt : (decodeWord env0 0x0A98002000139388).toOption.map (·.map fun h => (h.op, h.wc, h.d.loc, h.s1.loc, h.s2.loc)) =
    some [(0x054, 3, .wax 256, .wax 288, .imm 5000)] := by decide +kernel

theorem test_decode_pair : (decodeWord env0 0x908028060300600A).toOption.map (·.map fun h => (h.op, h.wc, h.d.loc, h.s2.loc)) =
    some [(0x010, 2, .wax 160, .wax 192), (0x001, 2, .wax 192, .wax 160)] := by decide +kernel

theorem test_decode_loop : (decodeWord env0 0x1CA0000C0001FFFD).toOption.map (·.map fun h => (h.op, h.d.loc)) =
    some [(0x0E5, .reg 3)] := by decide +kernel

/-- The same word with `SRC1` 1 traps ILLEGAL. -/
theorem test_decode_loop_illegal : (match decodeWord env0 (0x1CA0000C0001FFFD + 2 ^ 17) with
    | .error t => t.kind == 0 | .ok _ => false) = true := by decide +kernel

/-- The format of the sort chapter's worked example. -/
def sortFmt : List Byte :=
  [0x07, 0, 0, 0, 0, 0, 0, 0, 0x0D, 8, 7, 0, 0, 128, 0, 0, 0x11, 18, 4, 6, 24, 129, 0, 0, 0x09, 32, 0, 0, 0, 0, 0, 0] ++ zeros 32

/-- A raw record of that example: region, amount, validity byte, name prefix, its length, ordinal. -/
def rawRec (region amount valid : Nat) (name : List Byte) (len ord : Nat) : List Byte :=
  le region 2 ++ zeros 6 ++ le amount 8 ++ le valid 1 ++ zeros 1 ++ padTo name 6 ++ le len 2 ++ zeros 6 ++ le ord 8 ++ zeros 24

theorem test_sort_keys : (List.map (fun r => (sortRecord sortFmt r).take 27)
    [rawRec 3 0x4028000000000000 3 (be 0x6b656c70 4) 4 100, rawRec 3 0xC004000000000000 1 [] 0 101,
      rawRec 3 0x4028000000000000 3 (be 0x6b656c706965 6) 10 102, rawRec 3 0 2 (be 0x617368 3) 3 103,
      rawRec 1 0x7FF8000000000001 3 (be 0x7a6564 3) 3 104]) =
    [be 0x0003013FD7FFFFFFFFFFFF016B656C70000004 19 ++ be 100 8, be 0x000301C0040000000000000000000000000000 19 ++ be 101 8,
      be 0x0003013FD7FFFFFFFFFFFF016B656C70696507 19 ++ be 102 8, be 0x00030200000000000000000161736800000003 19 ++ be 103 8,
      be 0x0001010007FFFFFFFFFFFF017A656400000003 19 ++ be 104 8] := by decide +kernel

/-- The fold chapter's float sum: two replicas of two values each, merged, then rounded as a SUM and as an AVG. -/
theorem test_fold_float_sum :
    let c := fun v x y => ((applyInput 8 v (zeros 320) [x]).bind fun c => applyInput 8 v c [y]).getD []
    let fin := fun v => ((mergeCells 8 v (c v 0x4340000000000000 0x3FF0000000000000)
      (c v 0x3FF0000000000000 0xC340000000000000)).map fun m => fieldAt (finishAddx v m) 288 8)
    fin 0 = some 0x4000000000000000 ∧ fin 1 = some 0x3FE0000000000000 := by decide +kernel

/-- The payload of the chunk chapter's worked example. -/
def forBytes : List Byte := le 1000 8 ++ be 0x23829FEC783C00 7

/-- Its header, as far as decoding reads it, and its payload. -/
def forChunk : Chunk where
  h := { Hd.of (zeros 64) with kind := 0, ty := 4, enc := 2, width := 5, flags := 0, rows := 10, len := 15 }
  off := 0
  read := fun o n => slice forBytes o n

/-- The chunk chapter's FOR chunk: ten rows of five-bit deltas on 1000. -/
theorem test_for_chunk :
    (forChunk.decode 0 10 (List.replicate 10 true) none).1 =
        [1003, 1017, 1000, 1031, 1009, 1022, 1003, 1015, 1028, 1001].map (fun i => some (Val.num i)) ∧
      (forChunk.decode 0 10 (List.replicate 10 true) none).2.2 = 0 := by decide +kernel

/-- A command at the front of the queue runs, and only it: PWRGOOD rises with its straps, the next one waits. -/
theorem test_step_front : (match Machine.step { State.reset with pending := [.pwrgoodHigh 5, .idcode] } with
    | .next s => s.pins.pwrgood && s.pending == [.idcode] | _ => false) = true := by decide +kernel

/-- The empty queue: one cycle of the time base. -/
theorem test_step_idle : (match Machine.step State.reset with | .next s => s.pending == [] | _ => false) = true := by
  decide +kernel

end Sys2Proof.Tests
end

section
/-! SUPPORT. Numbers of 256 bits and their lanes: what a vector made of lanes holds, and that it stays below 2^256. -/
namespace Sys2Proof.Machine

open Sys2Proof.Safety

/-! ### Bytes -/

theorem leNat_lt (bs : List Byte) : leNat bs < 2 ^ (8 * bs.length) := by
  induction bs with
  | nil => simp [leNat]
  | cons b r ih =>
    have hb := b.isLt
    simp only [leNat, List.length_cons, Nat.mul_add, Nat.mul_one, Nat.pow_add]
    omega

/-! ### Lanes -/

theorem lane_toNat (w n i : Nat) : (lane w n i).toNat = bitsOf n (i * w) w := rfl

theorem lanesOf_eq (w n : Nat) : lanesOf w n = (List.range (256 / w)).map fun i => (lane w n i).toNat := rfl

theorem ofLanes_lt (w : Nat) (ls : List Nat) : ofLanes w ls < 2 ^ (w * ls.length) := by
  induction ls with
  | nil => simp [ofLanes]
  | cons l r ih =>
    have hl : l % 2 ^ w < 2 ^ w := Nat.mod_lt _ (Nat.two_pow_pos w)
    have hr : 2 ^ w * (ofLanes w r + 1) ≤ 2 ^ w * 2 ^ (w * r.length) := Nat.mul_le_mul_left _ ih
    simp only [ofLanes, List.length_cons, Nat.mul_add, Nat.mul_one, Nat.pow_add] at hr ⊢
    rw [Nat.mul_comm (2 ^ (w * r.length))]
    omega

/-- R183: lane `i` of a vector is what stands at place `i` of its lanes. -/
theorem lane_ofLanes (w : Nat) (ls : List Nat) (i : Nat) : lane w (ofLanes w ls) i = BitVec.ofNat w (ls.getD i 0) := by
  induction ls generalizing i with
  | nil => simp [lane, ofLanes]
  | cons l r ih =>
    cases i with
    | zero =>
      apply BitVec.eq_of_toNat_eq
      simp [lane, ofLanes, Nat.add_mul_mod_self_left]
    | succ i =>
      have hl : l % 2 ^ w < 2 ^ w := Nat.mod_lt _ (Nat.two_pow_pos w)
      have shift : ofLanes w (l :: r) >>> ((i + 1) * w) = ofLanes w r >>> (i * w) := by
        rw [Nat.add_mul, Nat.one_mul, Nat.add_comm, Nat.shiftRight_add, ofLanes, Nat.shiftRight_eq_div_pow _ w,
          Nat.add_mul_div_left _ _ (Nat.two_pow_pos w), Nat.div_eq_of_lt hl, Nat.zero_add]
      rw [List.getD_cons_succ, ← ih, lane, lane, shift]

/-- A vector with a full set of lanes is a number of 256 bits. -/
theorem ofLanes_lt_256 {w : Nat} (hw : w ∣ 256) (ls : List Nat) (h : ls.length = 256 / w) : ofLanes w ls < 2 ^ 256 := by
  have := ofLanes_lt w ls
  rwa [h, Nat.mul_div_cancel' hw] at this

/-! ### Lane-wise operations -/

theorem map2_lt {w : Nat} (hw : w ∣ 256) (f : Nat → Nat → Nat) (a b : Nat) : map2 w f a b < 2 ^ 256 :=
  ofLanes_lt_256 hw _ (by simp [lanesOf])

theorem map1_lt {w : Nat} (hw : w ∣ 256) (f : Nat → Nat) (b : Nat) : map1 w f b < 2 ^ 256 :=
  ofLanes_lt_256 hw _ (by simp [lanesOf])

theorem lane_map2 {w i : Nat} (hi : i < 256 / w) (f : Nat → Nat → Nat) (a b : Nat) :
    lane w (map2 w f a b) i = BitVec.ofNat w (f (lane w a i).toNat (lane w b i).toNat) := by
  simp [map2, lane_ofLanes, lanesOf_eq, List.getD_eq_getElem?_getD, hi]

theorem lane_map1 {w i : Nat} (hi : i < 256 / w) (f : Nat → Nat) (b : Nat) :
    lane w (map1 w f b) i = BitVec.ofNat w (f (lane w b i).toNat) := by
  simp [map1, lane_ofLanes, lanesOf_eq, List.getD_eq_getElem?_getD, hi]

theorem lane_and (w a b i : Nat) : lane w (a &&& b) i = lane w a i &&& lane w b i := by
  simp [lane, Nat.shiftRight_and_distrib, BitVec.ofNat_and]

theorem lane_or (w a b i : Nat) : lane w (a ||| b) i = lane w a i ||| lane w b i := by
  simp [lane, Nat.shiftRight_or_distrib, BitVec.ofNat_or]

theorem lane_xor (w a b i : Nat) : lane w (a ^^^ b) i = lane w a i ^^^ lane w b i := by
  simp [lane, Nat.shiftRight_xor_distrib, BitVec.ofNat_xor]

theorem lane_opNot {w i : Nat} (hi : i < 256 / w) (b : Nat) : lane w (opNot b) i = ~~~lane w b i := by
  have hw : i * w + w ≤ 256 := by
    have := Nat.le_trans (Nat.mul_le_mul_right w hi) (Nat.div_mul_le_self 256 w)
    rwa [Nat.succ_mul] at this
  have ones : lane w (2 ^ 256 - 1) i = BitVec.allOnes w := by
    apply BitVec.eq_of_getLsbD_eq
    intro j hj
    have : i * w + j < 256 := by omega
    simp only [lane, BitVec.getLsbD_ofNat, Nat.testBit_shiftRight, Nat.testBit_two_pow_sub_one, BitVec.getLsbD_allOnes,
      this, decide_true, Bool.and_true]
  rw [opNot, lane_xor, ones, BitVec.allOnes_xor]

theorem opNot_lt {b : Nat} (h : b < 2 ^ 256) : opNot b < 2 ^ 256 := Nat.xor_lt_two_pow (by decide) h

/-! ### One lane: numbers and two's complement -/

section
variable {w : Nat}

theorem two_pow_cast_pos (n : Nat) : (0 : Int) < (2 ^ n : Nat) := Int.natCast_pos.2 (Nat.two_pow_pos n)

theorem sgn_toNat (hw : 0 < w) (x : BitVec w) : sgn w x.toNat = x.toInt := by
  obtain ⟨n, rfl⟩ := Nat.exists_eq_add_of_le' hw
  rw [sgn, Nat.mod_eq_of_lt x.isLt, BitVec.toInt_eq_toNat_cond, Nat.add_sub_cancel, Nat.pow_succ']
  simp only [Nat.mul_lt_mul_left Nat.two_pos]
  push_cast
  rw [Int.pow_succ, Int.mul_comm]

theorem ofNat_ofSgn (i : Int) : BitVec.ofNat w (ofSgn w i) = BitVec.ofInt w i := by
  apply BitVec.eq_of_toNat_eq
  rw [BitVec.toNat_ofNat, BitVec.toNat_ofInt, ofSgn, Nat.mod_eq_of_lt]
  have lt := Int.emod_lt_of_pos i (two_pow_cast_pos w)
  have nonneg := Int.emod_nonneg i (Int.ne_of_gt (two_pow_cast_pos w))
  omega

theorem ofNat_truth (c : Bool) : BitVec.ofNat w (truth w c) = mask w c := by
  cases c with
  | false => rfl
  | true => exact BitVec.eq_of_toNat_eq (by simp [truth, mask])

theorem toNat_beq (x y : BitVec w) : (x.toNat == y.toNat) = (x == y) := by
  simp only [Bool.beq_eq_decide_eq, BitVec.toNat_inj]

theorem toNat_bne (x y : BitVec w) : (x.toNat != y.toNat) = (x != y) := congrArg (!·) (toNat_beq x y)

theorem outside_eq_overflows (i : Int) : outside w i = overflows w i := rfl

theorem ofInt_eq_of_toInt {i : Int} {z : BitVec w} (h : z.toInt = i.bmod (2 ^ w)) : BitVec.ofInt w i = z := by
  rw [← BitVec.toInt_inj, BitVec.toInt_ofInt, h]

theorem ofNat_sub_toNat (x y : BitVec w) : BitVec.ofNat w (x.toNat + 2 ^ w - y.toNat) = x - y := by
  apply BitVec.eq_of_toNat_eq
  have := y.isLt
  rw [BitVec.toNat_ofNat, BitVec.toNat_sub, show x.toNat + 2 ^ w - y.toNat = 2 ^ w - y.toNat + x.toNat by omega]

/-- The low bits of a quotient are bits of the dividend. -/
theorem ofSgn_div (i : Int) (n : Nat) : ofSgn (n + w) i / 2 ^ n = ofSgn w (i / (2 ^ n : Nat)) := by
  have hn : ((2 ^ n : Nat) : Int) ≠ 0 := Int.ne_of_gt (two_pow_cast_pos n)
  have cut : i % ((2 ^ n : Nat) * (2 ^ w : Nat) : Int) / (2 ^ n : Nat) = i / (2 ^ n : Nat) % (2 ^ w : Nat) := by
    rw [Int.emod_def, Int.emod_def, Int.ediv_ediv_of_nonneg (Int.le_of_lt (two_pow_cast_pos n)), Int.mul_assoc,
      Int.sub_mul_ediv_left _ _ hn]
  have low : 0 ≤ i % ((2 ^ n : Nat) * (2 ^ w : Nat) : Int) := Int.emod_nonneg _
    (Int.ne_of_gt (Int.mul_pos (two_pow_cast_pos n) (two_pow_cast_pos w)))
  rw [ofSgn, ofSgn, ← cut, Nat.pow_add, Int.natCast_mul]
  obtain ⟨m, hm⟩ := Int.eq_ofNat_of_zero_le low
  rw [hm, ← Int.natCast_ediv, Int.toNat_natCast, Int.toNat_natCast]

theorem ofNat_mulh (hw : 0 < w) (x y : BitVec w) :
    BitVec.ofNat w (ofSgn (2 * w) (sgn w x.toNat * sgn w y.toNat) / 2 ^ w) =
      BitVec.ofInt w (x.toInt * y.toInt / 2 ^ w) := by
  rw [sgn_toNat hw, sgn_toNat hw, Nat.two_mul, ofSgn_div, ofNat_ofSgn]
  push_cast
  rfl

theorem ofNat_min (hw : 0 < w) (x y : BitVec w) :
    BitVec.ofNat w (if sgn w x.toNat ≤ sgn w y.toNat then x.toNat else y.toNat) =
      if y.toInt < x.toInt then y else x := by
  simp only [sgn_toNat hw, ← Int.not_lt, ite_not, apply_ite (BitVec.ofNat w), BitVec.ofNat_toNat, BitVec.setWidth_eq]

theorem ofNat_max (hw : 0 < w) (x y : BitVec w) :
    BitVec.ofNat w (if sgn w x.toNat ≤ sgn w y.toNat then y.toNat else x.toNat) =
      if x.toInt < y.toInt then y else x := by
  rw [sgn_toNat hw, sgn_toNat hw]
  rcases Int.lt_trichotomy x.toInt y.toInt with h | h | h
  · simp [h, Int.le_of_lt h]
  · simp [BitVec.toInt_inj.1 h]
  · simp [Int.not_le.2 h, Int.not_lt.2 (Int.le_of_lt h)]

theorem ofNat_minu (x y : BitVec w) :
    BitVec.ofNat w (if x.toNat ≤ y.toNat then x.toNat else y.toNat) = if y.toNat < x.toNat then y else x := by
  simp only [← Nat.not_lt, ite_not, apply_ite (BitVec.ofNat w), BitVec.ofNat_toNat, BitVec.setWidth_eq]

theorem ofNat_maxu (x y : BitVec w) :
    BitVec.ofNat w (if x.toNat ≤ y.toNat then y.toNat else x.toNat) = if x.toNat < y.toNat then y else x := by
  rcases Nat.lt_trichotomy x.toNat y.toNat with h | h | h
  · simp [h, Nat.le_of_lt h]
  · simp [BitVec.toNat_inj.1 h]
  · simp [Nat.not_le.2 h, Nat.not_lt.2 (Nat.le_of_lt h)]

theorem ofNat_natAbs (hw : 0 < w) (y : BitVec w) :
    BitVec.ofNat w (sgn w y.toNat).natAbs = if y.toInt < 0 then 0#w - y else y := by
  rw [sgn_toNat hw, ← BitVec.ofInt_natCast]
  split
  · rename_i h
    rw [Int.ofNat_natAbs_of_nonpos (Int.le_of_lt h), BitVec.ofInt_neg, BitVec.ofInt_toInt, BitVec.zero_sub]
  · rename_i h
    rw [Int.natAbs_of_nonneg (Int.not_lt.1 h), BitVec.ofInt_toInt]

theorem ofNat_shiftLeft_toNat (x : BitVec w) (n : Nat) : BitVec.ofNat w (x.toNat <<< n) = x <<< n :=
  BitVec.eq_of_toNat_eq (by simp)

theorem ofNat_shiftRight_toNat (x : BitVec w) (n : Nat) : BitVec.ofNat w (x.toNat >>> n) = x >>> n :=
  BitVec.eq_of_toNat_eq (by
    rw [BitVec.toNat_ofNat, BitVec.toNat_ushiftRight, Nat.mod_eq_of_lt]
    exact Nat.lt_of_le_of_lt (Nat.shiftRight_le _ _) x.isLt)

theorem ofNat_sar (hw : 0 < w) (x : BitVec w) (n : Nat) :
    BitVec.ofNat w (ofSgn w (sgn w x.toNat / (2 ^ n : Nat))) = x.sshiftRight n := by
  rw [sgn_toNat hw, ofNat_ofSgn, BitVec.sshiftRight, Int.shiftRight_eq_div_pow]

/-- R230: the quotient is rounded toward zero; the one that does not fit wraps. -/
theorem ofNat_sdiv (hw : 0 < w) (x y : BitVec w) :
    BitVec.ofNat w (ofSgn w ((sgn w x.toNat).tdiv (sgn w y.toNat))) = x.sdiv y := by
  rw [sgn_toNat hw, sgn_toNat hw, ofNat_ofSgn, ofInt_eq_of_toInt (BitVec.toInt_sdiv x y)]

theorem ofNat_srem (hw : 0 < w) (x y : BitVec w) :
    BitVec.ofNat w (ofSgn w ((sgn w x.toNat).tmod (sgn w y.toNat))) = x.srem y := by
  rw [sgn_toNat hw, sgn_toNat hw, ofNat_ofSgn, ← BitVec.toInt_srem, BitVec.ofInt_toInt]

theorem ofNat_udiv (x y : BitVec w) : BitVec.ofNat w (x.toNat / y.toNat) = x / y := by
  rw [← BitVec.toNat_udiv, BitVec.ofNat_toNat, BitVec.setWidth_eq]

theorem ofNat_umod (x y : BitVec w) : BitVec.ofNat w (x.toNat % y.toNat) = x % y := by
  rw [← BitVec.toNat_umod, BitVec.ofNat_toNat, BitVec.setWidth_eq]
end

/-! ### Decimals and hashes -/

/-- R231: rounding halves away from zero is rounding the magnitude and keeping the sign. -/
theorem ofNat_ddivr (x y : BitVec 64) :
    BitVec.ofNat 64 (if 19 ≤ y.toNat then 0
      else
        let i := sgn 64 x.toNat
        let q : Int := ((2 * i.natAbs + 10 ^ y.toNat) / (2 * 10 ^ y.toNat) : Nat)
        ofSgn 64 (if i < 0 then -q else q)) =
    if 19 ≤ y.toNat then 0#64
    else BitVec.ofInt 64 (x.toInt.sign * ((2 * x.toInt.natAbs + 10 ^ y.toNat) / (2 * 10 ^ y.toNat) : Nat)) := by
  split
  · rfl
  · simp only [sgn_toNat (by decide : 0 < 64), ofNat_ofSgn]
    have pos : 0 < 10 ^ y.toNat := Nat.pow_pos (by decide)
    have half : 10 ^ y.toNat / (2 * 10 ^ y.toNat) = 0 := Nat.div_eq_of_lt (by omega)
    rcases Int.lt_trichotomy x.toInt 0 with h | h | h
    · rw [if_pos h, Int.sign_eq_neg_one_of_neg h, Int.neg_one_mul]
    · simp [h, half]
    · rw [if_neg (Int.not_lt.2 (Int.le_of_lt h)), Int.sign_eq_one_of_pos h, Int.one_mul]

theorem ofNat_dscl (x y : BitVec 64) :
    BitVec.ofNat 64 (if 19 ≤ y.toNat then 0 else x.toNat * 10 ^ y.toNat) =
      if 19 ≤ y.toNat then 0#64 else x * BitVec.ofNat 64 (10 ^ y.toNat) := by
  rw [apply_ite (BitVec.ofNat 64), BitVec.ofNat_mul, BitVec.ofNat_toNat, BitVec.setWidth_eq]

theorem dsclo_test (x y : BitVec 64) :
    (if 19 ≤ y.toNat then decide (x.toNat ≠ 0) else outside 64 (sgn 64 x.toNat * (10 ^ y.toNat : Nat))) =
      if 19 ≤ y.toNat then x != 0#64 else overflows 64 (x.toInt * (10 ^ y.toNat : Nat)) := by
  rw [sgn_toNat (by decide), outside_eq_overflows, ← toNat_bne]
  simp [bne, Bool.beq_eq_decide_eq]

theorem toNat_mixStep (h c : BitVec 64) (n : Nat) :
    ((h ^^^ (h >>> n)) * c).toNat = (h.toNat ^^^ (h.toNat >>> n)) * c.toNat % 2 ^ 64 := by
  rw [BitVec.toNat_mul, BitVec.toNat_xor, BitVec.toNat_ushiftRight]

theorem mix_toNat (x seed : BitVec 64) : (mix x seed).toNat = kh64 x.toNat seed.toNat := by
  have first : (x.toNat ^^^ seed.toNat) % 2 ^ 64 = (x ^^^ seed).toNat := by
    rw [BitVec.toNat_xor, Nat.mod_eq_of_lt (Nat.xor_lt_two_pow x.isLt seed.isLt)]
  simp only [mix, kh64]
  rw [first, BitVec.toNat_xor, BitVec.toNat_ushiftRight, toNat_mixStep, toNat_mixStep]
  rfl

theorem ofNat_kh64 (x seed : BitVec 64) : BitVec.ofNat 64 (kh64 x.toNat seed.toNat) = mix x seed := by
  rw [← mix_toNat, BitVec.ofNat_toNat, BitVec.setWidth_eq]

theorem opHashf_lt (d a b : Nat) : opHashf d a b < 2 ^ 256 := ofLanes_lt_256 (by decide) _ (by simp)

theorem lane_opHashf {i : Nat} (hi : i < 4) (d a b : Nat) :
    lane 64 (opHashf d a b) i = mix (lane 64 d i ^^^ mix (lane 64 a i) (lane 64 b i)) (lane 64 b i) := by
  have at_i : ∀ g : Nat → Nat, ((List.range 4).map g).getD i 0 = g i := fun g => by
    simp [List.getD_eq_getElem?_getD, hi]
  rw [opHashf, lane_ofLanes, at_i]
  simp only [← lane_toNat]
  rw [← mix_toNat, ← BitVec.toNat_xor, ofNat_kh64]

end Sys2Proof.Machine
end

section
/-! SUPPORT. The rows of the Taper reference as lane functions: what `vecOp` gives for each opcode, in lanes of the
row's own width (R229 to R231, R236). -/
namespace Sys2Proof.Machine

open Sys2Proof.Safety

/-- The vector operation of an opcode raises no flag, and gives in each lane of width `v` what `f` makes of the
operands' lanes. -/
def LanesBy (op w v : Nat) (f : BitVec v → BitVec v → BitVec v → BitVec v) : Prop :=
  ∀ a b d, a < 2 ^ 256 → b < 2 ^ 256 → ∃ n, vecOp op w a b d = some (n, 0) ∧ n < 2 ^ 256 ∧
    ∀ i, i < 256 / v → lane v n i = f (lane v a i) (lane v b i) (lane v d i)

section
variable {op w v : Nat} {f : BitVec v → BitVec v → BitVec v → BitVec v}

theorem LanesBy.of_map2 {g : Nat → Nat → Nat} (hv : v ∣ 256) (e : ∀ a b d, vecOp op w a b d = some (map2 v g a b, 0))
    (h : ∀ x y d : BitVec v, BitVec.ofNat v (g x.toNat y.toNat) = f x y d) : LanesBy op w v f := fun a b d _ _ =>
  ⟨_, e a b d, map2_lt hv g a b, fun i hi => by rw [lane_map2 hi, h]⟩

theorem LanesBy.of_map1 {g : Nat → Nat} (hv : v ∣ 256) (e : ∀ a b d, vecOp op w a b d = some (map1 v g b, 0))
    (h : ∀ x y d : BitVec v, BitVec.ofNat v (g y.toNat) = f x y d) : LanesBy op w v f := fun a b d _ _ =>
  ⟨_, e a b d, map1_lt hv g b, fun i hi => by rw [lane_map1 hi, h _ (lane v b i)]⟩

/-- A row that answers a mask by the test `p` of its lanes. -/
theorem LanesBy.of_test {p : Nat → Nat → Bool} {c : BitVec v → BitVec v → Bool} (hv : v ∣ 256)
    (e : ∀ a b d, vecOp op w a b d = some (map2 v (fun x y => truth v (p x y)) a b, 0))
    (h : ∀ x y : BitVec v, p x.toNat y.toNat = c x y) : LanesBy op w v fun x y _ => mask v (c x y) :=
  .of_map2 hv e fun x y _ => by rw [ofNat_truth, h]
end

section
variable {w : Nat} (hw : 0 < w) (hd : w ∣ 256)
include hw hd

theorem lanesBy_intRows : ∀ r ∈ intRows, LanesBy r.op w w (r.f w) := by
  simp only [intRows, List.forall_mem_cons]
  refine ⟨?mov, ?add, ?sub, ?mul, ?mulh, ?mulhu, ?min, ?max, ?minu, ?maxu, ?neg, ?abs, ?and, ?or, ?xor, ?andn, ?not,
    ?shl, ?shr, ?sar, nofun⟩
  case mov => exact fun _ b _ _ hb => ⟨b, rfl, hb, fun _ _ => rfl⟩
  case add => exact .of_map2 hd (fun _ _ _ => rfl) fun x y _ => by simp [BitVec.ofNat_add]
  case sub => exact .of_map2 hd (fun _ _ _ => rfl) fun x y _ => ofNat_sub_toNat x y
  case mul => exact .of_map2 hd (fun _ _ _ => rfl) fun x y _ => by simp [BitVec.ofNat_mul]
  case mulh => exact .of_map2 hd (fun _ _ _ => rfl) fun x y _ => ofNat_mulh hw x y
  case mulhu => exact .of_map2 hd (fun _ _ _ => rfl) fun _ _ _ => rfl
  case min => exact .of_map2 hd (fun _ _ _ => rfl) fun x y _ => ofNat_min hw x y
  case max => exact .of_map2 hd (fun _ _ _ => rfl) fun x y _ => ofNat_max hw x y
  case minu => exact .of_map2 hd (fun _ _ _ => rfl) fun x y _ => ofNat_minu x y
  case maxu => exact .of_map2 hd (fun _ _ _ => rfl) fun x y _ => ofNat_maxu x y
  case neg => exact .of_map1 hd (fun _ _ _ => rfl) fun _ y _ => by simpa using ofNat_sub_toNat 0#w y
  case abs => exact .of_map1 hd (fun _ _ _ => rfl) fun _ y _ => ofNat_natAbs hw y
  case and => exact fun a b _ _ hb => ⟨a &&& b, rfl, Nat.and_lt_two_pow a hb, fun i _ => lane_and w a b i⟩
  case or => exact fun a b _ ha hb => ⟨a ||| b, rfl, Nat.or_lt_two_pow ha hb, fun i _ => lane_or w a b i⟩
  case xor => exact fun a b _ ha hb => ⟨a ^^^ b, rfl, Nat.xor_lt_two_pow ha hb, fun i _ => lane_xor w a b i⟩
  case andn =>
    exact fun a b _ _ hb => ⟨a &&& opNot b, rfl, Nat.and_lt_two_pow a (opNot_lt hb), fun i hi => by
      rw [lane_and, lane_opNot hi]⟩
  case not => exact fun _ b _ _ hb => ⟨opNot b, rfl, opNot_lt hb, fun i hi => lane_opNot hi b⟩
  case shl => exact .of_map2 hd (fun _ _ _ => rfl) fun x y _ => ofNat_shiftLeft_toNat x (y.toNat % w)
  case shr => exact .of_map2 hd (fun _ _ _ => rfl) fun x y _ => ofNat_shiftRight_toNat x (y.toNat % w)
  case sar => exact .of_map2 hd (fun _ _ _ => rfl) fun x y _ => ofNat_sar hw x (y.toNat % w)

theorem lanesBy_divRows : ∀ r ∈ divRows, LanesBy r.op w w (r.f w) := by
  simp only [divRows, List.forall_mem_cons]
  refine ⟨?div, ?divu, ?rem, ?remu, nofun⟩
  case div => exact .of_map2 hd (fun _ _ _ => rfl) fun x y _ => ofNat_sdiv hw x y
  case divu => exact .of_map2 hd (fun _ _ _ => rfl) fun x y _ => ofNat_udiv x y
  case rem => exact .of_map2 hd (fun _ _ _ => rfl) fun x y _ => ofNat_srem hw x y
  case remu => exact .of_map2 hd (fun _ _ _ => rfl) fun x y _ => ofNat_umod x y

theorem lanesBy_maskRows : ∀ r ∈ maskRows, LanesBy r.op w w (r.f w) := by
  simp only [maskRows, List.forall_mem_cons]
  refine ⟨?addo, ?subo, ?mulo, ?addou, ?subou, ?cmpeq, ?cmpne, ?cmplt, ?cmple, ?cmpgt, ?cmpge, ?cmpltu, ?cmpleu,
    ?cmpgtu, ?cmpgeu, nofun⟩
  case addo | subo | mulo =>
    exact .of_test hd (fun _ _ _ => rfl) fun x y => by rw [sgn_toNat hw, sgn_toNat hw, outside_eq_overflows]
  case addou | subou | cmpltu | cmpleu | cmpgtu | cmpgeu => exact .of_test hd (fun _ _ _ => rfl) fun _ _ => rfl
  case cmpeq => exact .of_test hd (fun _ _ _ => rfl) toNat_beq
  case cmpne => exact .of_test hd (fun _ _ _ => rfl) toNat_bne
  case cmplt | cmpgt =>
    exact .of_test hd (fun _ _ _ => rfl) fun x y => by rw [sgn_toNat hw, sgn_toNat hw, BitVec.slt_eq_decide]
  case cmple | cmpge =>
    exact .of_test hd (fun _ _ _ => rfl) fun x y => by rw [sgn_toNat hw, sgn_toNat hw, BitVec.sle_eq_decide]
end

theorem lanesBy_wideRows (w : Nat) : ∀ r ∈ wideRows, LanesBy r.1.op w r.2 (r.1.f r.2) := by
  have d128 : 128 ∣ 256 := by decide
  have d64 : 64 ∣ 256 := by decide
  have sum (x y : BitVec 128) :
      outside 128 (sgn 128 x.toNat + sgn 128 y.toNat) = overflows 128 (x.toInt + y.toInt) := by
    rw [sgn_toNat (by decide), sgn_toNat (by decide), outside_eq_overflows]
  have diff (x y : BitVec 128) :
      outside 128 (sgn 128 x.toNat - sgn 128 y.toNat) = overflows 128 (x.toInt - y.toInt) := by
    rw [sgn_toNat (by decide), sgn_toNat (by decide), outside_eq_overflows]
  simp only [wideRows, List.forall_mem_cons]
  refine ⟨?addq, ?subq, ?addqo, ?subqo, ?dscl, ?dsclo, ?ddivr, ?hash, ?hashf, nofun⟩
  case addq => exact .of_map2 d128 (fun _ _ _ => rfl) fun x y _ => by simp [BitVec.ofNat_add]
  case subq => exact .of_map2 (g := fun m n => m + 2 ^ 128 - n) d128 (fun _ _ _ => rfl) fun x y _ => ofNat_sub_toNat x y
  case addqo => exact .of_test (p := fun m n => outside 128 (sgn 128 m + sgn 128 n)) d128 (fun _ _ _ => rfl) sum
  case subqo => exact .of_test (p := fun m n => outside 128 (sgn 128 m - sgn 128 n)) d128 (fun _ _ _ => rfl) diff
  case dscl => exact .of_map2 d64 (fun _ _ _ => rfl) fun x y _ => ofNat_dscl x y
  case dsclo => exact .of_test d64 (fun _ _ _ => rfl) dsclo_test
  case ddivr => exact .of_map2 d64 (fun _ _ _ => rfl) fun x y _ => ofNat_ddivr x y
  case hash => exact .of_map2 d64 (fun _ _ _ => rfl) fun x y _ => by simp [ofNat_kh64]
  case hashf => exact fun a b d _ _ => ⟨opHashf d a b, rfl, opHashf_lt d a b, fun i hi => by simp [lane_opHashf hi]⟩

end Sys2Proof.Machine
end

section
/-! SUPPORT. A wick changed in place: what the plain changes of one wick leave of the block. -/
namespace Sys2Proof.Machine

open Sys2Proof.Safety

/-- `t` is `s` with the wick at `pos` now `k`, but for the device's memory and the cycles charged to
tenants. -/
structure State.AtWick (s t : State) (pos : Nat) (k : Wick) : Prop where
  held : Tab.get t.wicks pos = some k
  others : ∀ q, q ≠ pos → t.wick q = s.wick q
  frame : t = { s with mem := t.mem, poison := t.poison, wicks := t.wicks, insts := t.insts }

namespace State.AtWick
variable {s t : State} {pos : Nat} {k : Wick}

theorem wick (h : s.AtWick t pos k) : t.wick pos = k := by simp [State.wick, Tab.at, h.held]

theorem setWick (h : s.AtWick t pos k) (f : Wick → Wick) : s.AtWick (t.setWick pos f) pos (f k) where
  held := by simp [State.setWick, Tab.get_upd_same, h.held]
  others q hq := (Tab.at_upd_ne _ _ _ _ hq).trans (h.others q hq)
  frame := by rw [h.frame]; rfl

theorem poke (h : s.AtWick t pos k) (a : Nat) (bs : List Byte) : s.AtWick (t.poke a bs) pos k where
  held := h.held
  others := h.others
  frame := by rw [h.frame]; rfl

end State.AtWick

/-- R211: a wick that has passed cycles. -/
def Wick.charged (k : Wick) (cyc : Nat) : Wick := { k with cycles := k.cycles + cyc, busy := k.busy + cyc }

theorem State.charge_atWick (s : State) (pos cyc : Nat) :
    s.AtWick (s.charge pos cyc) pos ((s.wick pos).charged cyc) where
  held := Tab.get_put_same ..
  others _ hq := Tab.at_put_ne _ _ _ _ hq
  frame := rfl

/-! ### Far loads that have not arrived -/

/-- A fold that only collects what it meets. -/
theorem foldl_collects {α β : Type} (step : α × List β → β → α × List β) (s : α) (ls acc : List β)
    (h : ∀ l ∈ ls, ∀ st, step st l = (st.1, st.2 ++ [l])) : ls.foldl step (s, acc) = (s, acc ++ ls) := by
  induction ls generalizing acc with
  | nil => simp
  | cons l r ih =>
    obtain ⟨h1, h2⟩ := List.forall_mem_cons.1 h
    rw [List.foldl_cons, h1, ih _ h2, List.append_assoc, List.singleton_append]

/-- R195: where no data has arrived, none is written. -/
theorem State.landLoads_quiet (s : State) (pos : Nat) (h : ∀ l ∈ (s.wick pos).loads, l.arrived = false) :
    s.landLoads pos = s.setWick pos fun k => { k with loads := (s.wick pos).loads } := by
  simp only [State.landLoads]
  rw [foldl_collects _ _ _ _ fun l hl st => by simp [h l hl]]
  rfl

/-- A wick after an issue slot of its far loads. -/
def Wick.slotPassed (k : Wick) (before : Nat) : Wick :=
  { k with loads := (k.loads.take before).map (fun l => { l with shadow := l.shadow - 1 }) ++ k.loads.drop before }

theorem Wick.slotPassed_quiet {k : Wick} (before : Nat) (h : ∀ l ∈ k.loads, l.arrived = false) :
    ∀ l ∈ (k.slotPassed before).loads, l.arrived = false := by
  intro l hl
  rcases List.mem_append.1 hl with hl | hl
  · obtain ⟨m, hm, rfl⟩ := List.mem_map.1 hl
    exact h m (List.mem_of_mem_take hm)
  · exact h l (List.mem_of_mem_drop hl)

theorem State.shadowSlot_eq (s : State) (pos before : Nat) :
    s.shadowSlot pos before = (s.setWick pos (·.slotPassed before)).landLoads pos := rfl

/-- R192, R193: an issue slot passes while no data has arrived: the shadows shrink, and nothing else changes. -/
theorem State.AtWick.shadowSlot {s t : State} {pos : Nat} {k : Wick} (h : s.AtWick t pos k) (before : Nat)
    (quiet : ∀ l ∈ k.loads, l.arrived = false) :
    s.AtWick (t.shadowSlot pos before) pos (k.slotPassed before) ∧ (t.shadowSlot pos before).mem = t.mem := by
  have passed := h.setWick (·.slotPassed before)
  have still : ∀ l ∈ ((t.setWick pos (·.slotPassed before)).wick pos).loads, l.arrived = false := by
    rw [passed.wick]; exact Wick.slotPassed_quiet before quiet
  rw [State.shadowSlot_eq, State.landLoads_quiet _ pos still, passed.wick]
  exact ⟨passed.setWick _, rfl⟩

/-! ### A word that writes a vector to wax -/

/-- R188: a wick after the post-increments of a half. -/
def Wick.strode (k : Wick) (h : Half) : Wick := { k with a := bumped k.a h }

/-- R174: a wick that has raised float flags. -/
def Wick.flagged (k : Wick) (ff : Nat) : Wick := { k with fflags := (k.fflags &&& 31) ||| ff }

/-- R174, R188, R211: a wick after the cycles, the post-increments and the flags of a half that computes a vector. -/
def Wick.computed (k : Wick) (h : Half) (cyc ff : Nat) : Wick := ((k.charged cyc).strode h).flagged ff

theorem Wick.freeSlots_cons (k : Wick) (n : Nat) (r : List Nat) : k.freeSlots (n :: r) =
    (k.setPort n fun p => { p with head := (p.head + 1) % p.len, filled := p.filled - 1 }).freeSlots r := rfl

/-- R178: freeing slots touches the ports of a wick alone. -/
theorem Wick.freeSlots_eq (k : Wick) (ns : List Nat) : k.freeSlots ns = { k with ports := (k.freeSlots ns).ports } := by
  induction ns generalizing k with
  | nil => rfl
  | cons n r ih =>
    rw [Wick.freeSlots_cons, ih]
    rfl

theorem Wick.freeSlots_loads (k : Wick) (ns : List Nat) : (k.freeSlots ns).loads = k.loads := by rw [Wick.freeSlots_eq]

/-- R178, R193, R202: a wick at the end of a word without an act that took slots of the ports `ns`, with `before` far
loads pending before it. -/
def Wick.wordPassed (k : Wick) (ns : List Nat) (before pc : Nat) : Wick :=
  ((k.freeSlots ns).slotPassed before).afterWord .none pc

/-- Such a word moves the `PC`, and no register, flag or link. -/
theorem Wick.wordPassed_frame (k : Wick) (ns : List Nat) (before pc : Nat) :
    (k.wordPassed ns before pc).a = k.a ∧ (k.wordPassed ns before pc).fflags = k.fflags ∧
      (k.wordPassed ns before pc).lr = k.lr ∧ (k.wordPassed ns before pc).pc = pc := by
  rw [Wick.wordPassed, Wick.freeSlots_eq]
  simp only [Wick.afterWord]
  split <;> exact ⟨rfl, rfl, rfl, rfl⟩

theorem State.AtWick.wordPassed {s t : State} {pos : Nat} {k : Wick} (h : s.AtWick t pos k)
    (quiet : ∀ l ∈ k.loads, l.arrived = false) (ns : List Nat) (before pc : Nat) :
    s.AtWick (((t.setWick pos (·.freeSlots ns)).shadowSlot pos before).setWick pos (·.afterWord .none pc)) pos
        (k.wordPassed ns before pc) ∧
      (((t.setWick pos (·.freeSlots ns)).shadowSlot pos before).setWick pos (·.afterWord .none pc)).mem = t.mem := by
  obtain ⟨passed, hmem⟩ := (h.setWick (·.freeSlots ns)).shadowSlot before (by rwa [Wick.freeSlots_loads])
  exact ⟨passed.setWick _, hmem⟩

theorem State.poke_mem_of_mem_eq {s t : State} (h : t.mem = s.mem) (a : Nat) (bs : List Byte) :
    (t.poke a bs).mem = (s.poke a bs).mem := congrArg (cellsWrite · a bs) h

theorem State.poke_sameOutside (s : State) (a : Nat) (bs : List Byte) :
    SameOutside s.mem (s.poke a bs).mem a bs.length :=
  fun k hk => cellGet_cellsWrite_out s.mem a k bs hk

theorem State.commitHalf_vector (s : State) (pos : Nat) {h : Half} {ea : Nat} (hd : h.d.loc = .wax ea) (v ff : Nat) :
    s.commitHalf pos h { out := some v, ff := ff } =
      ((s.setWick pos (·.strode h)).setWick pos (·.flagged ff)).poke (waxKey pos ea) (le v 32) := by
  simp only [State.commitHalf, hd]
  rfl

theorem State.commitWord_one (s : State) (pos : Nat) (h : Half) (v ff pc : Nat) :
    s.commitWord pos [h] [{ out := some v, ff := ff }] (some pc) =
      let t := (s.charge pos (wordCycles [h] [.none])).commitHalf pos h { out := some v, ff := ff }
      if (t.wick pos).st ≠ 1 then t
      else
        let u := (t.setWick pos (·.freeSlots ((takesOf [h]).map (·.1)))).shadowSlot pos (s.wick pos).loads.length
        u.setWick pos (·.afterWord .none pc) := rfl

/-- R188, R202: what a word of one half that writes a vector to wax leaves, where no far data has arrived. -/
theorem State.commitWord_writes {s : State} {pos : Nat} {h : Half} {ea : Nat} (hd : h.d.loc = .wax ea) (v ff : Nat)
    (runs : (s.wick pos).st = 1) (quiet : ∀ l ∈ (s.wick pos).loads, l.arrived = false)
    (wf : Memory.wf s.mem = true) :
    Writes s (s.commitWord pos [h] [{ out := some v, ff := ff }] (some (pcAfter (s.wick pos)))) pos h ea v ff := by
  let k := (s.wick pos).computed h (wordCycles [h] [.none]) ff
  have written : s.AtWick _ pos k :=
    (((s.charge_atWick pos (wordCycles [h] [.none])).setWick (·.strode h)).setWick (·.flagged ff)).poke
      (waxKey pos ea) (le v 32)
  obtain ⟨passed, kept⟩ := written.wordPassed quiet ((takesOf [h]).map (·.1)) (s.wick pos).loads.length
    (pcAfter (s.wick pos))
  have mem := kept.trans (State.poke_mem_of_mem_eq (s := s) rfl _ _)
  obtain ⟨ha, hf, hl, hp⟩ := k.wordPassed_frame ((takesOf [h]).map (·.1)) (s.wick pos).loads.length
    (pcAfter (s.wick pos))
  have st : k.st = 1 := runs
  rw [State.commitWord_one, State.commitHalf_vector _ _ hd]
  simp only [written.wick, st, ne_eq, not_true_eq_false, if_false]
  refine ⟨?value, ?memory, ?regs, ?flags, ?link, ?next, passed.others, passed.frame⟩
  case value =>
    have read := State.peek_poke_same s (waxKey pos ea) (le v 32) wf
    rw [le_length] at read
    rw [State.peek, mem]
    exact read
  case memory =>
    have out := s.poke_sameOutside (waxKey pos ea) (le v 32)
    rw [le_length] at out
    rw [mem]
    exact out
  case regs => rw [passed.wick, ha]; rfl
  case flags => rw [passed.wick, hf]; rfl
  case link => rw [passed.wick, hl]; rfl
  case next => rw [passed.wick, hp]

end Sys2Proof.Machine
end

section
/-! SUPPORT. A word of one half at the `PC` of a wick that is to issue: what its decoding fixes, and how `taperRow`
comes to its effects or its trap (R177, R181, R194, R201, R215). -/
namespace Sys2Proof.Machine

/-! ### Decoding -/

theorem decodeLong_ok {v : Env} {word : Nat} {h : Half} (e : decodeLong v word = .ok h) :
    h.op = bitsOf word 53 10 ∧ h.wc = bitsOf word 51 2 := by
  simp only [decodeLong] at e
  split at e
  · cases e
  · split at e
    · cases e
    · split at e
      · split at e <;> cases e
      · split at e
        · cases e; exact ⟨rfl, rfl⟩
        · cases e

/-- R181, R182: a word of one half is a long word. -/
theorem decodeWord_one {v : Env} {word : Nat} {h : Half} (e : decodeWord v word = .ok [h]) :
    bitAt word 63 = false ∧ decodeLong v word = .ok h := by
  simp only [decodeWord] at e
  split at e
  · rename_i b
    cases d : decodeLong v word with
    | error t => simp [d, Except.map] at e
    | ok x => exact ⟨by simpa using b, by simpa [d, Except.map] using e⟩
  · split at e
    · cases e
    · split at e <;> cases e

/-- R183: the element width is 8, 16, 32 or 64 bits. -/
theorem Half.w_dvd {h : Half} (hc : h.wc < 4) : 0 < h.w ∧ h.w ∣ 256 := by
  have : ∀ c < 4, 0 < 8 * 2 ^ c ∧ 8 * 2 ^ c ∣ 256 := by decide
  exact this h.wc hc

/-! ### Values -/

theorem State.peek_lt (s : State) (a : Nat) : leNat (s.peek a 32) < 2 ^ 256 := by
  have := leNat_lt (s.peek a 32)
  rwa [State.peek, cellsRead_length] at this

/-- R184: a source is a number of 256 bits. -/
theorem State.source_lt (s : State) (pos seen : Nat) {w : Nat} (hw : w ∣ 256) (o : Opd) :
    s.source pos w o seen < 2 ^ 256 := by
  simp only [State.source]
  split
  · exact s.peek_lt _
  · exact s.peek_lt _
  · exact ofLanes_lt_256 hw _ (List.length_replicate ..)
  · exact Nat.two_pow_pos 256

/-! ### Effects -/

theorem halfEff_vector (s : State) (pos : Nat) (k : Wick) (word2 : Nat) (h : Half) (a b d : Nat) {v ff : Nat}
    (e : vecOp h.op h.w a b d = some (v, ff)) (z : divByZero h.op h.w b = false) :
    halfEff s pos k word2 h a b d = .ok { out := some v, ff := ff } := by simp [halfEff, e, z]

theorem halfEff_divByZero (s : State) (pos : Nat) (k : Wick) (word2 : Nat) (h : Half) (a b d : Nat) {r : Nat × Nat}
    (e : vecOp h.op h.w a b d = some r) (z : divByZero h.op h.w b = true) :
    halfEff s pos k word2 h a b d = .error (.trap { kind := 2, halfB := h.isB }) := by simp [halfEff, e, z]

/-- R374: the fold gate lets a half pass that does not fill the fold port. -/
theorem foldGate_one (s : State) (folds : List Nat) (h : Half) (e : Except Stop Eff) (req : List Byte × Nat × Nat)
    (pass : h.d.portNo = none ∨ ∃ x, e = .error x) : foldGate s folds [h] [e] req = [e] := by
  rcases pass with p | ⟨x, rfl⟩
  · simp [foldGate, p]
  · simp [foldGate]

theorem firstStop_ok (x : Eff) : firstStop [.ok x] = .ok [x] := rfl

theorem firstStop_divZero (b : Bool) : firstStop [.error (.trap { kind := 2, halfB := b })] =
    .error (.trap { kind := 2, halfB := b }) := rfl

/-- R201: a word without an act goes on to `pcAfter`. -/
theorem nextPc_none (k : Wick) : nextPc k [.none] = some (Safety.pcAfter k) := by
  simp only [nextPc, Safety.pcAfter, List.getD_cons_zero]
  split <;> rfl

theorem outputStalls_wax (s : State) (pos : Nat) {h : Half} {ea : Nat} (hd : h.d.loc = .wax ea) (v ff : Nat) :
    s.outputStalls pos [h] [{ out := some v, ff := ff }] = false := by
  simp [State.outputStalls, Opd.portNo, hd]

end Sys2Proof.Machine

namespace Sys2Proof.Safety

open Sys2Proof.Machine

theorem Follows.inside {k : Wick} (f : Follows k) :
    k.codeBase ≤ pcAfter k ∧ pcAfter k < k.codeBase + k.codeLen := by
  rw [pcAfter]
  rcases f with ⟨h1, h2, h3⟩ | ⟨h1, h2⟩
  · rw [if_pos ⟨h1, h2⟩]; exact h3
  · rw [if_neg (by omega)]; exact h2

section
variable {s : State} {pos : Nat} {h : Half} (i : Issues s pos [h])
include i

theorem Issues.half : bitAt (s.codeWord (pos / 17) (s.wick pos).pc) 63 = false ∧
    h.op = bitsOf (s.codeWord (pos / 17) (s.wick pos).pc) 53 10 ∧ h.wc < 4 := by
  obtain ⟨long, e⟩ := decodeWord_one i.word
  obtain ⟨op, wc⟩ := decodeLong_ok e
  exact ⟨long, op, wc ▸ bitsOf_lt _ 51 2⟩

theorem Issues.w_dvd : 0 < h.w ∧ h.w ∣ 256 := Half.w_dvd i.half.2.2

theorem Issues.wordDue : s.wordDue pos h.op = true := by
  obtain ⟨long, op, _⟩ := i.half
  simp [State.wordDue, i.live, i.runs, i.goes, Wick.inBudget, i.budget, wordIs, wordOps, long, ← op]

theorem Issues.taperRow_eq : taperRow h.op pos 0 s = .next (s.issueWord pos) := by
  simp [taperRow, i.wordDue, whenDue, State.codeFault]

theorem Issues.portsReady_eq : portsReady (s.wick pos) [h] = .ok () := by
  have full : (takesOf [h]).filter (fun t => decide (((s.wick pos).port t.1).filled ≤ t.2)) = [] :=
    List.filter_eq_nil_iff.2 fun t ht => by simpa using i.slots t ht
  simp [portsReady, full]

theorem Issues.srcA_lt : srcA s pos h < 2 ^ 256 := s.source_lt pos _ i.w_dvd.2 _

theorem Issues.srcB_lt : srcB s pos h < 2 ^ 256 := s.source_lt pos _ i.w_dvd.2 _
end

/-! ### Issue -/

section
variable {s : State} {pos : Nat} {h : Half}

/-- R188: a word of one half is evaluated on `SRC1`, `SRC2` and, where `DST` is wax, its old contents. -/
theorem halfEffs_one (s : State) (pos : Nat) (h : Half) : ∃ d, (∀ ea, h.d.loc = .wax ea → d = slotAt s pos ea) ∧
    ∀ word2, s.halfEffs pos word2 [h] [] = [halfEff s pos (s.wick pos) word2 h (srcA s pos h) (srcB s pos h) d] := by
  have first : seenIn h.s1 [] = 0 := by simp only [seenIn]; split <;> rfl
  refine ⟨_, fun ea e => ?_, fun word2 => by simp only [State.halfEffs, first, List.nil_append]; rfl⟩
  rw [e]
  rfl

/-- R215: a word of one half whose effects stop, by a trap or a stall, stops so. -/
theorem Issues.planWord_stop (i : Issues s pos [h]) (word2 : Nat) {e : Stop}
    (he : firstStop (s.effects pos word2 [h]) = .error e) :
    s.planWord pos (s.codeWord (pos / 17) (s.wick pos).pc) word2 = .error e := by
  have word := i.word
  simp only [env] at word
  simp only [State.planWord, word, i.portsReady_eq, i.apart, he, Bool.false_eq_true, if_false]

/-- R201: a word of one half whose effects do not stop, whose next word lies in the code and whose output finds room. -/
theorem Issues.planWord_ok (i : Issues s pos [h]) (f : Follows (s.wick pos)) (word2 : Nat) {es : List Eff}
    (he : firstStop (s.effects pos word2 [h]) = .ok es)
    (next : nextPc (s.wick pos) (es.map (·.act)) = some (pcAfter (s.wick pos)))
    (room : s.outputStalls pos [h] es = false) :
    s.planWord pos (s.codeWord (pos / 17) (s.wick pos).pc) word2 = .ok ([h], es, some (pcAfter (s.wick pos))) := by
  have word := i.word
  simp only [env] at word
  have inside : decide ((s.wick pos).codeBase ≤ pcAfter (s.wick pos) ∧
    pcAfter (s.wick pos) < (s.wick pos).codeBase + (s.wick pos).codeLen) = true := decide_eq_true f.inside
  simp only [State.planWord, word, i.portsReady_eq, i.apart, he, next, inside, room, Bool.not_true, Bool.false_eq_true,
    if_false]

/-- R188: a word that computes a vector for a wax destination issues. -/
theorem Issues.issueWord_vector (i : Issues s pos [h]) (f : Follows (s.wick pos)) {ea v ff : Nat}
    (hd : h.d.loc = .wax ea)
    (e : vecOp h.op h.w (srcA s pos h) (srcB s pos h) (slotAt s pos ea) = some (v, ff))
    (z : divByZero h.op h.w (srcB s pos h) = false) :
    s.issueWord pos = s.commitWord pos [h] [{ out := some v, ff := ff }] (some (pcAfter (s.wick pos))) := by
  obtain ⟨d, old, one⟩ := halfEffs_one s pos h
  have eff (word2 : Nat) : firstStop (s.effects pos word2 [h]) = .ok [{ out := some v, ff := ff }] := by
    rw [State.effects, one, foldGate_one _ _ _ _ _ (.inl (by simp [Opd.portNo, hd])),
      halfEff_vector _ _ _ _ _ _ _ _ (old ea hd ▸ e) z, firstStop_ok]
  rw [State.issueWord]
  simp only [i.planWord_ok f _ (eff _) (nextPc_none _) (outputStalls_wax _ _ hd v ff)]

/-- R230: a word that divides by a lane 0 traps DIVZERO. -/
theorem Issues.issueWord_divByZero (i : Issues s pos [h])
    (e : ∀ d, ∃ r, vecOp h.op h.w (srcA s pos h) (srcB s pos h) d = some r)
    (z : divByZero h.op h.w (srcB s pos h) = true) :
    s.issueWord pos = s.trapAt pos (s.codeWord (pos / 17) (s.wick pos).pc) 2 0 h.isB := by
  obtain ⟨d, -, one⟩ := halfEffs_one s pos h
  obtain ⟨r, er⟩ := e d
  have eff (word2 : Nat) : firstStop (s.effects pos word2 [h]) = .error (.trap { kind := 2, halfB := h.isB }) := by
    rw [State.effects, one, halfEff_divByZero _ _ _ _ _ _ _ _ er z, foldGate_one _ _ _ _ _ (.inr ⟨_, rfl⟩),
      firstStop_divZero]
  rw [State.issueWord]
  simp only [i.planWord_stop _ (eff _)]
end

end Sys2Proof.Safety
end

section
/-! SUPPORT. What a trap leaves of the block (R215 to R218, R454). -/
namespace Sys2Proof.Machine

open Sys2Proof.Safety

/-- `t` is `s` but for its registers. -/
def State.CsrOnly (s t : State) : Prop := t = { s with csr := t.csr }

theorem State.CsrOnly.wr {s t : State} (h : s.CsrOnly t) (off v : Nat) : s.CsrOnly (t.wr off v) := by
  rw [State.CsrOnly, h]; rfl

/-- R218: the outcome record is registers. -/
theorem State.outcomeOf_csrOnly (s : State) (pos ctx cycles fflags : Nat) (o : Outcome) :
    s.CsrOnly (s.outcomeOf pos ctx cycles fflags o) := by
  have regs : ∀ (ls : List Nat) (off v : Nat → Nat) (t : State), s.CsrOnly t →
      s.CsrOnly (ls.foldl (fun s j => s.wr (off j) (v j)) t) := by
    intro ls off v
    induction ls with
    | nil => exact fun t h => h
    | cons j r ih => exact fun t h => ih _ (h.wr _ _)
  exact ((regs _ _ _ s rfl).wr _ _).wr _ _

/-- R216: a wick put in place, with the bits that show it. -/
theorem State.putWick_csrOnly (s : State) (pos : Nat) (k : Wick) :
    State.CsrOnly { s with wicks := Tab.put s.wicks pos k } (s.putWick pos k) := by
  have base : State.CsrOnly { s with wicks := Tab.put s.wicks pos k } { s with wicks := Tab.put s.wicks pos k } := rfl
  simp only [State.putWick]
  split <;> split
  · exact base
  · exact base.wr _ _
  · exact base.wr _ _
  · exact (base.wr _ _).wr _ _

/-- R217, R454: a context whose task has failed with a status after so many cycles. -/
def Ctx.failedWith (c : Ctx) (cycles status : Nat) : Ctx :=
  { c with st := .ended, cycles := cycles, failed := status, check := 0, failOff := 0 }

/-- R217, R454: a task that fails leaves its wick free and its context ended with the status. -/
theorem State.failTask_fails (s : State) (pos status : Nat) : Fails s (s.failTask pos status) pos status := by
  have left : State.CsrOnly { s with
      ctxs := Tab.upd s.ctxs (s.wick pos).ctx (·.failedWith (s.wick pos).cycles status),
      wicks := Tab.put s.wicks pos (s.wick pos).idle } (s.failTask pos status) := State.putWick_csrOnly _ pos _
  rw [State.CsrOnly] at left
  have ctxs : (s.failTask pos status).ctxs =
      Tab.upd s.ctxs (s.wick pos).ctx (·.failedWith (s.wick pos).cycles status) := congrArg State.ctxs left
  have wicks : (s.failTask pos status).wicks = Tab.put s.wicks pos (s.wick pos).idle := congrArg State.wicks left
  refine ⟨?context, ?free, ?wicks, ?contexts, ?frame⟩
  case context =>
    intro c hc
    refine ⟨c.failedWith (s.wick pos).cycles status, ?_, rfl, rfl, rfl⟩
    rw [ctxs, Tab.get_upd_same, hc, Option.map_some]
  case free => rw [State.wick, wicks, Tab.at_put_same]; rfl
  case wicks => intro q hq; rw [State.wick, wicks]; exact Tab.at_put_ne _ _ _ _ hq
  case contexts => intro j hj; rw [ctxs]; exact Tab.get_upd_ne _ _ _ _ hj
  case frame => rw [ctxs, wicks]; exact left

/-- A failure is of the state before its outcome record was written. -/
theorem State.CsrOnly.fails {s t u : State} {pos status : Nat} (h : s.CsrOnly t) (f : Fails t u pos status) :
    Fails s u pos status := by
  rw [h] at f
  exact ⟨f.context, f.free, f.wicks, f.contexts, f.frame⟩

/-- R215, R217: a trap fails the task with the status of its kind. -/
theorem State.trapAt_fails (s : State) (pos word kind addr : Nat) (halfB : Bool) :
    Fails s (s.trapAt pos word kind addr halfB) pos (trapStatus kind) :=
  (s.outcomeOf_csrOnly ..).fails (State.failTask_fails ..)

end Sys2Proof.Machine
end

section
/-! SUPPORT. O1: integer, mask, division, wide and hash words. -/
namespace Sys2Proof.Safety

open Sys2Proof.Machine

/-- R227: every row of the lane words is `taperRow` at its opcode. -/
theorem exec_laneRows : ∀ r ∈ intRows ++ maskRows ++ divRows ++ wideRows.map (·.1),
    (fun pos code => exec (r.ctor pos code)) = taperRow r.op := List.map_inj_left.1 rfl

theorem exec_laneRow {r : LaneRow} (hr : r ∈ intRows ++ maskRows ++ divRows ++ wideRows.map (·.1)) (pos code : Nat)
    (s : State) : exec (r.ctor pos code) s = taperRow r.op pos code s :=
  congrFun (congrFun (congrFun (exec_laneRows r hr) pos) code) s

theorem divRows_op : ∀ r ∈ divRows, 0x015 ≤ r.op ∧ r.op ≤ 0x018 := by decide

theorem not_div_op : ∀ r ∈ intRows ++ maskRows ++ wideRows.map (·.1), ¬ (0x015 ≤ r.op ∧ r.op ≤ 0x018) := by decide

theorem divByZero_eq_true {op w b : Nat} (h : 0x015 ≤ op ∧ op ≤ 0x018) :
    divByZero op w b = true ↔ ∃ i, i < 256 / w ∧ lane w b i = 0#w := by
  have zero (x : BitVec w) : x.toNat = 0 ↔ x = 0#w := by rw [← BitVec.toNat_inj, BitVec.toNat_ofNat, Nat.zero_mod]
  simp [divByZero, h, lanesOf_eq, zero]

theorem divByZero_of_not_div {op : Nat} (h : ¬ (0x015 ≤ op ∧ op ≤ 0x018)) (w b : Nat) : divByZero op w b = false := by
  simp [divByZero, h]

/-- R188: the word of a row with a lane law writes what the law gives. -/
theorem Issues.writes_of_lanesBy {s : State} {pos : Nat} {h : Half} {ea v : Nat}
    {f : BitVec v → BitVec v → BitVec v → BitVec v} (i : Issues s pos [h]) (fo : Follows (s.wick pos))
    (wf : Memory.wf s.mem = true) (hd : h.d.loc = .wax ea) (z : divByZero h.op h.w (srcB s pos h) = false)
    (row : LanesBy h.op h.w v f) :
    ∃ t n, taperRow h.op pos 0 s = .next t ∧ Writes s t pos h ea n 0 ∧ n < 2 ^ 256 ∧
      ∀ j, j < 256 / v →
        lane v n j = f (lane v (srcA s pos h) j) (lane v (srcB s pos h) j) (lane v (slotAt s pos ea) j) := by
  obtain ⟨n, e, lt, lanes⟩ := row (srcA s pos h) (srcB s pos h) (slotAt s pos ea) i.srcA_lt i.srcB_lt
  refine ⟨_, n, ?_, State.commitWord_writes hd n 0 i.runs i.quiet wf, lt, lanes⟩
  rw [i.taperRow_eq, i.issueWord_vector fo hd e z]

/-- R217, R230: the word of a row with a lane law traps DIVZERO on a lane 0. -/
theorem Issues.fails_of_divByZero {s : State} {pos : Nat} {h : Half} {v : Nat}
    {f : BitVec v → BitVec v → BitVec v → BitVec v} (i : Issues s pos [h])
    (z : divByZero h.op h.w (srcB s pos h) = true) (row : LanesBy h.op h.w v f) :
    ∃ t, taperRow h.op pos 0 s = .next t ∧ Fails s t pos Status.trapDivzero := by
  have e (d : Nat) : ∃ r, vecOp h.op h.w (srcA s pos h) (srcB s pos h) d = some r :=
    let ⟨n, e, _⟩ := row _ _ d i.srcA_lt i.srcB_lt
    ⟨(n, 0), e⟩
  exact ⟨_, by rw [i.taperRow_eq, i.issueWord_divByZero e z], State.trapAt_fails s pos _ 2 0 h.isB⟩

end Sys2Proof.Safety

open Sys2Proof.Machine Sys2Proof.Safety

/-- Settles O1: every row's word issues as `taperRow` at its opcode; what it writes are the lanes of its `LanesBy` law,
and a divisor with a lane 0 traps before anything is written. -/
theorem laneWords : Obligations.LaneWords := by
  refine ⟨?rows, ?divisions, ?wide⟩
  case rows =>
    intro r hr s pos h ea i fo wf op hd
    have row : LanesBy h.op h.w h.w (r.f h.w) := op ▸ (List.mem_append.1 hr).elim
      (lanesBy_intRows i.w_dvd.1 i.w_dvd.2 r) (lanesBy_maskRows i.w_dvd.1 i.w_dvd.2 r)
    have z := divByZero_of_not_div (op ▸ not_div_op r (List.mem_append_left _ hr)) h.w (srcB s pos h)
    rw [exec_laneRow (List.mem_append_left _ (List.mem_append_left _ hr)), ← op]
    exact i.writes_of_lanesBy fo wf hd z row
  case divisions =>
    intro r hr s pos h i op
    have row : LanesBy h.op h.w h.w (r.f h.w) := op ▸ lanesBy_divRows i.w_dvd.1 i.w_dvd.2 r hr
    have div := divByZero_eq_true (w := h.w) (b := srcB s pos h) (op ▸ divRows_op r hr)
    rw [exec_laneRow (List.mem_append_left _ (List.mem_append_right _ hr)), ← op]
    constructor
    · intro ea hd fo wf nonzero
      have z := Bool.eq_false_iff.2 fun z => let ⟨j, hj, e⟩ := div.1 z; nonzero j hj e
      exact i.writes_of_lanesBy fo wf hd z row
    · intro j hj zero
      exact i.fails_of_divByZero (div.2 ⟨j, hj, zero⟩) row
  case wide =>
    intro r hr s pos h ea i fo wf op hd
    have mem := List.mem_map_of_mem (f := (·.1)) hr
    have z := divByZero_of_not_div (op ▸ not_div_op r.1 (List.mem_append_right _ mem)) h.w (srcB s pos h)
    rw [exec_laneRow (List.mem_append_right _ mem), ← op]
    exact i.writes_of_lanesBy fo wf hd z (op ▸ lanesBy_wideRows h.w r hr)
end

section
/-! SUPPORT. O59: what leaves the Crankset whole. Few operations write the field `crank` (those of `Crank.lean`, and some
of the boot and of repair, with their callers); each of the others keeps it, as said here in the order of the model's files.
`-implicitDefEqProofs` stands where a fold's body rewrites by definitional equality: there the kernel would otherwise
unfold the whole update to check one field. -/
namespace Sys2Proof.Machine
variable (s : State)

/-! ### Branches and folds -/

@[simp] theorem ite_crank (c : Prop) [Decidable c] (s t : State) :
    (if c then s else t).crank = if c then s.crank else t.crank := apply_ite ..

theorem whenDue_crank (c : Bool) {s t : State} (h : t.crank = s.crank) : (whenDue c s t).crank = s.crank := by
  simp [whenDue, h]

@[simp] theorem foldl_crank {α : Type} {f : State → α → State} (h : ∀ s a, (f s a).crank = s.crank) (l : List α)
    (s : State) : (l.foldl f s).crank = s.crank :=
  List.foldlRecOn (motive := fun t => t.crank = s.crank) l f rfl fun t ht a _ => (h t a).trans ht

@[simp] theorem foldl_fst_crank {α β : Type} {f : State × β → α → State × β}
    (h : ∀ p a, (f p a).1.crank = p.1.crank) (l : List α) (p : State × β) : (l.foldl f p).1.crank = p.1.crank :=
  List.foldlRecOn (motive := fun q => q.1.crank = p.1.crank) l f rfl fun q hq a _ => (h q a).trans hq

theorem foldl_snd_crank {α β : Type} {f : β × State → α → β × State} (h : ∀ p a, (f p a).2.crank = p.2.crank)
    (l : List α) (p : β × State) : (l.foldl f p).2.crank = p.2.crank :=
  List.foldlRecOn (motive := fun q => q.2.crank = p.2.crank) l f rfl fun q hq a _ => (h q a).trans hq

/-- A fold of steps that may fail keeps the crank when every step that succeeds does. -/
theorem foldl_bind_crank {α β : Type} {f : α → β × State → Option (β × State)}
    (step : ∀ a p q, f a p = some q → q.2.crank = p.2.crank) {l : List α} {p q : β × State}
    (h : l.foldl (fun acc a => acc.bind (f a)) (some p) = some q) : q.2.crank = p.2.crank := by
  have kept : ∀ r, l.foldl (fun acc a => acc.bind (f a)) (some p) = some r → r.2.crank = p.2.crank := by
    refine List.foldlRecOn (motive := fun acc => ∀ r : β × State, acc = some r → r.2.crank = p.2.crank) l _ ?_ ?_
    · rintro r ⟨⟩
      rfl
    · intro acc kept a _ r hr
      obtain ⟨x, hx, hr⟩ := Option.bind_eq_some_iff.1 hr
      exact (step a x r hr).trans (kept x hx)
  exact kept q h

theorem crank_of_fst {α : Type} {p : State × α} {t : State} {a : α} (h : p = (t, a)) : t.crank = p.1.crank := by rw [h]
theorem crank_of_snd {α : Type} {p : α × State} {t : State} {a : α} (h : p = (a, t)) : t.crank = p.2.crank := by rw [h]

/-! ### Ops -/

@[simp] theorem State.draw_crank : s.draw.2.crank = s.crank := by simp [State.draw]
@[simp] theorem State.rasLog_crank (e : RasEvent) : (s.rasLog e).crank = s.crank := by simp [State.rasLog]

@[simp] theorem State.corrected_crank (cls unit detail addr : Nat) :
    (s.corrected cls unit detail addr).crank = s.crank := by
  unfold State.corrected
  dsimp only
  split <;> simp

@[simp] theorem State.journalPut_crank (body : List Byte) : (s.journalPut body).crank = s.crank := by
  simp [State.journalPut]

@[simp] theorem State.journalRec_crank (e : JEntry) : (s.journalRec e).crank = s.crank := by
  unfold State.journalRec
  split <;> simp

@[simp] theorem State.alert_crank (f : Nat × Nat) : (s.alert f).crank = s.crank := by simp [State.alert]

/-! ### QueueOps -/

@[simp] theorem State.bringQueue_crank (g : Nat) (q : Queue) : (s.bringQueue g q).crank = s.crank := by
  simp [State.bringQueue]

@[simp] theorem State.beginCmd_crank (key : Nat) : (s.beginCmd key).crank = s.crank := by simp [State.beginCmd]

@[simp] theorem State.editCmd_crank (key : Nat) (f : Cmd → Cmd) : (s.editCmd key f).crank = s.crank := by
  simp [State.editCmd]

@[simp] theorem State.finishCmd_crank (key status residue result : Nat) :
    (s.finishCmd key status residue result).crank = s.crank := by
  unfold State.finishCmd
  split <;> simp

@[simp] theorem State.completeCmd_crank (key status residue result : Nat) :
    (s.completeCmd key status residue result).crank = s.crank := by
  simp [State.completeCmd]

@[simp] theorem State.postEvent_crank (i : Nat) (e : Event) : (s.postEvent i e).crank = s.crank := by
  simp [State.postEvent]

@[simp] theorem State.overrun_crank (g cause : Nat) : (s.overrun g cause).crank = s.crank := by simp [State.overrun]

/-! ### MemOps -/

@[simp] theorem State.noteUE_crank (a source : Nat) : (s.noteUE a source).crank = s.crank := by simp [State.noteUE]
@[simp] theorem State.noteCE_crank (a dq : Nat) : (s.noteCE a dq).crank = s.crank := by simp [State.noteCE]

@[simp] theorem State.beatFault_crank (a fault dq : Nat) : (s.beatFault a fault dq).crank = s.crank := by
  simp [State.beatFault]

@[simp] theorem State.beatFaults_crank (a n : Nat) (fs : List (Nat × Nat × Nat)) :
    (s.beatFaults a n fs).crank = s.crank := by
  simp [State.beatFaults]

@[simp] theorem State.sconce_crank (n : Nat) (f : Sconce → Sconce) : (s.sconce n f).crank = s.crank := by
  simp [State.sconce]

@[simp] theorem State.drainOne_crank (n : Nat) : (s.drainOne n).crank = s.crank := by
  unfold State.drainOne
  dsimp only
  split <;> simp

@[simp] theorem State.vacate_crank (n w : Nat) : (s.vacate n w).crank = s.crank := by simp [State.vacate]
@[simp] theorem State.placeWay_crank (n w : Nat) (v : Way) : (s.place_ n w v).crank = s.crank := by simp [State.place_]

@[simp] theorem State.sconceGet_crank (n line : Nat) : (s.sconceGet n line).2.crank = s.crank := by
  simp only [State.sconceGet]
  (repeat' split) <;> simp

@[simp] theorem State.sconcePut_crank (n a : Nat) (bs : List Byte) : (s.sconcePut n a bs).crank = s.crank := by
  simp only [State.sconcePut]
  (repeat' split) <;> simp

@[simp] theorem State.sconceWrite_crank (n a : Nat) (bs : List Byte) : (s.sconceWrite n a bs).crank = s.crank := by
  simp [State.sconceWrite]

/-! ### TallyOps -/

@[simp] theorem State.tallyAdd_crank (i : Nat) (f : Counts → Counts) : (s.tallyAdd i f).crank = s.crank := by
  simp [State.tallyAdd]

@[simp] theorem State.closeMinute_crank (fin : Nat) (stepped : Bool) :
    (s.closeMinute fin stepped).crank = s.crank := by
  unfold State.closeMinute
  dsimp only
  split <;> simp

@[simp] theorem State.timeStepped_crank (old new : Nat) : (s.timeStepped old new).crank = s.crank := by
  simp [State.timeStepped]

/-! ### Time -/

@[simp] theorem State.tbEnter_crank (st : Nat) : (s.tbEnter st).crank = s.crank := by simp [State.tbEnter]
@[simp] theorem State.tbHoldover_crank : s.tbHoldover.crank = s.crank := by simp [State.tbHoldover]
@[simp] theorem State.tbAdvance_crank (ns : Nat) : (s.tbAdvance ns).crank = s.crank := by simp [State.tbAdvance]
@[simp] theorem State.tick_crank : s.tick.crank = s.crank := by simp [State.tick]
@[simp] theorem refWindow_crank (edges : Nat) : (refWindow edges s).crank = s.crank := by simp [refWindow]

@[simp] theorem ppsDiscard_crank (stamp : Nat) : (ppsDiscard stamp s).crank = s.crank := by
  unfold ppsDiscard
  extract_lets sec n bumped _ stamped counted
  have kept : counted.crank = s.crank := rfl
  split
  · rw [State.tbEnter_crank, State.raise_crank, kept]
  · exact kept

@[simp] theorem ppsClean_crank (stamp : Nat) : (ppsClean stamp s).crank = s.crank := by simp [ppsClean]

@[simp] theorem ppsPhase_crank (stamp : Nat) : (ppsPhase stamp s).1.crank = s.crank := by
  simp only [ppsPhase]
  (repeat' split) <;> simp

@[simp] theorem ppsAccept_crank (stamp : Nat) : (ppsAccept stamp s).crank = s.crank := by simp [ppsAccept]

@[simp] theorem ppsPulse_crank (samples stamp : Nat) : (ppsPulse samples stamp s).crank = s.crank := by
  simp [ppsPulse]

@[simp] theorem slewStep_crank : (slewStep s).crank = s.crank := by simp [slewStep]
@[simp] theorem oscMeasure_crank (ppb : Int) : (oscMeasure ppb s).crank = s.crank := by simp [oscMeasure]
@[simp] theorem cogCfgWrite_crank (val : Nat) : (cogCfgWrite val s).crank = s.crank := by simp [cogCfgWrite]

@[simp] theorem State.journalCsr_crank (t : State) (who : Who) (off : Nat) :
    (s.journalCsr t who off).crank = t.crank := by
  unfold State.journalCsr; split <;> simp

@[simp] theorem State.readyPush_crank (i : Nat) : (s.readyPush i).crank = s.crank := by simp [State.readyPush]
@[simp] theorem State.makeReady_crank (i : Nat) : (s.makeReady i).crank = s.crank := by simp [State.makeReady]
@[simp] theorem State.drainDelay_crank (l : Nat) : (s.drainDelay l).crank = s.crank := by simp [State.drainDelay]
@[simp] theorem cogElapse_crank : (cogElapse s).crank = s.crank := by simp [cogElapse]
@[simp] theorem loadWindow_crank : (loadWindow s).crank = s.crank := by simp [loadWindow]
@[simp] theorem timeSet_crank (key : Nat) (c : Cmd) : (timeSet key c s).crank = s.crank := by simp [timeSet]

/-! ### TaskOps -/

@[simp] theorem State.setBit_crank (off : Nat) (f : Nat × Nat) (i : Nat) (v : Bool) :
    (s.setBit off f i v).crank = s.crank := by
  simp [State.setBit]

@[simp] theorem State.putWick_crank (pos : Nat) (k : Wick) : (s.putWick pos k).crank = s.crank := by
  simp [State.putWick]

@[simp] theorem State.charge_crank (pos cyc : Nat) : (s.charge pos cyc).crank = s.crank := by simp [State.charge]

@[simp] theorem State.outcomeOf_crank (pos ctx cycles fflags : Nat) (o : Outcome) :
    (s.outcomeOf pos ctx cycles fflags o).crank = s.crank := by
  simp -implicitDefEqProofs [State.outcomeOf]

@[simp] theorem State.outcome_crank (pos : Nat) (o : Outcome) : (s.outcome pos o).crank = s.crank := by
  simp [State.outcome]

@[simp] theorem State.closeReports_crank (pos : Nat) : (s.closeReports pos).crank = s.crank := by
  simp [State.closeReports]

@[simp] theorem State.leaveWick_crank (pos : Nat) (drain : Bool) : (s.leaveWick pos drain).crank = s.crank := by
  simp [State.leaveWick]

@[simp] theorem State.endTask_crank (pos : Nat) : (s.endTask pos).crank = s.crank := by simp [State.endTask]

@[simp] theorem State.failTask_crank (pos status check off : Nat) :
    (s.failTask pos status check off).crank = s.crank := by
  simp [State.failTask]

@[simp] theorem State.settleWick_crank (pos : Nat) : (s.settleWick pos).crank = s.crank := by simp [State.settleWick]

@[simp] theorem State.trapAt_crank (pos word kind addr : Nat) (halfB : Bool) :
    (s.trapAt pos word kind addr halfB).crank = s.crank := by
  simp [State.trapAt]

@[simp] theorem State.corruptTask_crank (pos check off : Nat) : (s.corruptTask pos check off).crank = s.crank := by
  simp [State.corruptTask]

@[simp] theorem State.freeBlock_crank (a : Nat) : (s.freeBlock a).crank = s.crank := by simp [State.freeBlock]

@[simp] theorem State.freeStale_crank (ctx : Nat) (keep : Option Nat) : (s.freeStale ctx keep).crank = s.crank := by
  simp -implicitDefEqProofs [State.freeStale]

@[simp] theorem State.freeLocal_crank (ctx : Nat) : (s.freeLocal ctx).crank = s.crank := by simp [State.freeLocal]

@[simp] theorem State.rerunCycles_crank (inst cyc : Nat) : (s.rerunCycles inst cyc).crank = s.crank := by
  simp [State.rerunCycles]

/-! ### RunOps -/

@[simp] theorem State.setRun_crank (key : Nat) (f : Run → Run) : (s.setRun key f).crank = s.crank := by
  simp [State.setRun]

@[simp] theorem State.setCtx_crank (i : Nat) (f : Ctx → Ctx) : (s.setCtx i f).crank = s.crank := by
  simp [State.setCtx]

@[simp] theorem State.unlist_crank (i : Nat) : (s.unlist i).crank = s.crank := by simp [State.unlist]

@[simp] theorem State.stopWick_crank (i : Nat) : (s.stopWick i).crank = s.crank := by
  unfold State.stopWick
  split <;> simp

@[simp] theorem State.freeCtx_crank (i : Nat) : (s.freeCtx i).crank = s.crank := by simp [State.freeCtx]

@[simp] theorem State.releaseRun_crank (key : Nat) : (s.releaseRun key).crank = s.crank := by
  simp -implicitDefEqProofs [State.releaseRun]

@[simp] theorem State.completeRun_crank (key residue : Nat) : (s.completeRun key residue).crank = s.crank := by
  simp [State.completeRun]

@[simp] theorem State.endWritten_crank (key : Nat) : (s.endWritten key).crank = s.crank := by
  unfold State.endWritten
  split <;> simp

@[simp] theorem State.settleRun_crank (key residue : Nat) : (s.settleRun key residue).crank = s.crank := by
  simp [State.settleRun]

@[simp] theorem State.failRun_crank (key status check off residue : Nat) :
    (s.failRun key status check off residue).crank = s.crank := by
  unfold State.failRun
  split <;> simp

@[simp] theorem State.raiseEpoch_crank (i : Nat) : (s.raiseEpoch i).crank = s.crank := by simp [State.raiseEpoch]
@[simp] theorem State.abandon_crank (i : Nat) : (s.abandon i).crank = s.crank := by simp [State.abandon]

@[simp] theorem State.zeroOwned_crank (img : List Byte) (j slot : Nat) :
    (s.zeroOwned img j slot).crank = s.crank := by
  unfold State.zeroOwned; split <;> simp -implicitDefEqProofs

@[simp] theorem State.slotRestart_crank (run j slot : Nat) : (s.slotRestart run j slot).crank = s.crank := by
  simp [State.slotRestart]

@[simp] theorem State.migrate_crank (i slot : Nat) : (s.migrate i slot).crank = s.crank := by simp [State.migrate]

/-! ### RepairOps -/

@[simp] theorem State.askSave_crank : s.askSave.crank = s.crank := by simp [State.askSave]

@[simp] theorem State.repairMade_crank (cls unit detail old spare : Nat) (by_ : JEntry) :
    (s.repairMade cls unit detail old spare by_).crank = s.crank := by
  simp [State.repairMade]

@[simp] theorem State.noSpare_crank (cls unit : Nat) : (s.noSpare cls unit).crank = s.crank := by simp [State.noSpare]

/-! ### Taper -/

@[simp] theorem State.emitBytes_crank (pos : Nat) (bs : List Byte) : (s.emitBytes pos bs).crank = s.crank := by
  simp [State.emitBytes]

@[simp] theorem State.foldSlot_crank (pos : Nat) (bs : List Byte) : (s.foldSlot pos bs).crank = s.crank := by
  simp only [State.foldSlot]
  (repeat' split) <;> simp

@[simp] theorem State.fillPort_crank (pos n : Nat) (bs : List Byte) (count : Nat) :
    (s.fillPort pos n bs count).crank = s.crank := by
  simp [State.fillPort]

@[simp] theorem State.packBytes_crank (pos n : Nat) (bs : List Byte) : (s.packBytes pos n bs).crank = s.crank := by
  simp [State.packBytes]

@[simp] theorem State.flushPort_crank (pos n : Nat) : (s.flushPort pos n).crank = s.crank := by simp [State.flushPort]
@[simp] theorem State.sealRun_crank (pos : Nat) : (s.sealRun pos).crank = s.crank := by simp [State.sealRun]

@[simp] theorem State.foldCells_crank (code w : Nat) (cells : List (Nat × Nat)) :
    (s.foldCells code w cells).crank = s.crank := by
  simp -implicitDefEqProofs [State.foldCells]

@[simp] theorem State.commitHalf_crank (pos : Nat) (h : Half) (e : Eff) : (s.commitHalf pos h e).crank = s.crank := by
  simp only [State.commitHalf]
  (repeat' split) <;> simp

@[simp] theorem State.landLoads_crank (pos : Nat) : (s.landLoads pos).crank = s.crank := by
  simp only [State.landLoads]
  rw [State.setWick_crank, foldl_fst_crank]
  intro st l
  split <;> simp

@[simp] theorem State.shadowSlot_crank (pos before : Nat) : (s.shadowSlot pos before).crank = s.crank := by
  simp [State.shadowSlot]

@[simp] theorem State.commitWord_crank (pos : Nat) (hs : List Half) (es : List Eff) (pc : Option Nat) :
    (s.commitWord pos hs es pc).crank = s.crank := by
  simp only [State.commitWord]
  (repeat' split) <;> simp

@[simp] theorem State.issueWord_crank (pos : Nat) : (s.issueWord pos).crank = s.crank := by
  unfold State.issueWord
  dsimp only
  split <;> simp

@[simp] theorem State.codeFault_crank (pos code : Nat) : (s.codeFault pos code).crank = s.crank := by
  simp [State.codeFault]

@[simp] theorem stalledIssue_crank (pos stall : Nat) : (stalledIssue pos stall s).crank = s.crank := by
  simp [stalledIssue]

@[simp] theorem watchdog_crank (pos stall : Nat) : (watchdog pos stall s).crank = s.crank := by simp [watchdog]

@[simp] theorem farArrive_crank (pos n : Nat) (l : FarLoad) (gets : List (List Byte)) :
    (farArrive pos n l gets s).crank = s.crank := by
  simp [farArrive]

/-! ### Chandelier -/

@[simp] theorem State.setChd_crank (c : Nat) (f : Chd → Chd) : (s.setChd c f).crank = s.crank := by
  simp [State.setChd]

@[simp] theorem State.writeEntry_crank (c b n e : Nat) (valid : Bool) (tag value : Nat) (key : List Byte) :
    (s.writeEntry c b n e valid tag value key).crank = s.crank := by
  simp [State.writeEntry]

@[simp] theorem State.clearBank_crank (c b : Nat) : (s.clearBank c b).crank = s.crank := by simp [State.clearBank]

@[simp] theorem State.remapRow_crank (c b r : Nat) (by_ : JEntry) : (s.remapRow c b r by_).crank = s.crank := by
  simp [State.remapRow]

@[simp] theorem State.rewriteRow_crank (c b r : Nat) : (s.rewriteRow c b r).crank = s.crank := by
  simp [State.rewriteRow]

@[simp] theorem State.rerunSearchers_crank (c b : Nat) : (s.rerunSearchers c b).crank = s.crank := by
  simp [State.rerunSearchers]

@[simp] theorem State.mismatch_crank (c b r : Nat) : (s.mismatch c b r).crank = s.crank := by simp [State.mismatch]

@[simp] theorem State.upsetRows_crank (c b : Nat) (ups : List (Nat × Nat × Nat)) :
    (s.upsetRows c b ups).crank = s.crank := by
  simp [State.upsetRows]

@[simp] theorem State.respond_crank (pos slots : Nat) (bs : List Byte) :
    (s.respond pos slots bs).crank = s.crank := by
  simp [State.respond]

@[simp] theorem State.noteBank_crank (pos c b : Nat) : (s.noteBank pos c b).crank = s.crank := by
  simp [State.noteBank]

@[simp] theorem State.readbackFails_crank (c b n : Nat) (bad : List Nat) :
    (s.readbackFails c b n bad).crank = s.crank := by
  simp [State.readbackFails]

@[simp] theorem State.leaseViolation_crank (pos c op slots : Nat) (cookie : List Byte) :
    (s.leaseViolation pos c op slots cookie).crank = s.crank := by
  simp [State.leaseViolation]

@[simp] theorem State.countRequest_crank (pos counter : Nat) : (s.countRequest pos counter).crank = s.crank := by
  simp [State.countRequest]

@[simp] theorem chdSearch_crank (pos c t : Nat) (req key : List Byte) (ups : List (Nat × Nat × Nat)) :
    (chdSearch pos c t req key ups s).crank = s.crank := by
  simp only [chdSearch]
  (repeat' split) <;> simp

@[simp] theorem chdStep_crank (pos c t : Nat) (req : List Byte) (ups : List (Nat × Nat × Nat)) :
    (chdStep pos c t req ups s).crank = s.crank := by
  simp only [chdStep]
  (repeat' split) <;> simp

@[simp] theorem State.clearTable_crank (c t : Nat) : (s.clearTable c t).crank = s.crank := by simp [State.clearTable]
@[simp] theorem State.startLoad_crank (c : Nat) : (s.startLoad c).crank = s.crank := by simp [State.startLoad]
@[simp] theorem loadCtlWrite_crank (c val : Nat) : (loadCtlWrite c val s).crank = s.crank := by simp [loadCtlWrite]
@[simp] theorem State.endLoad_crank (c t : Nat) : (s.endLoad c t).crank = s.crank := by simp [State.endLoad]

@[simp] theorem State.stopLoad_crank (c t i run cause : Nat) : (s.stopLoad c t i run cause).crank = s.crank := by
  simp [State.stopLoad]

@[simp] theorem State.loadInsert_crank (c t i run : Nat) (rec_ : List Byte) :
    (s.loadInsert c t i run rec_).crank = s.crank := by
  simp only [State.loadInsert]
  (repeat' split) <;> simp

@[simp] theorem State.loadDelete_crank (c t : Nat) (rec_ : List Byte) : (s.loadDelete c t rec_).crank = s.crank := by
  simp only [State.loadDelete]
  (repeat' split) <;> simp

@[simp] theorem loadRecord_crank (c t a n i run : Nat) : (loadRecord c t a n i run s).crank = s.crank := by
  simp [loadRecord]

@[simp] theorem scrubRow_crank (c : Nat) (ups : List (Nat × Nat × Nat)) : (scrubRow c ups s).crank = s.crank := by
  simp [scrubRow]

@[simp] theorem visitEnd_crank (c : Nat) : (visitEnd c s).crank = s.crank := by simp [visitEnd]
@[simp] theorem bankWrite_crank (c b val : Nat) : (bankWrite c b val s).crank = s.crank := by simp [bankWrite]

/-! ### Fold -/

@[simp] theorem State.drainLine_crank (ch : Nat) : (s.drainLine ch).crank = s.crank := by
  unfold State.drainLine
  split <;> simp

@[simp] theorem State.drainAll_crank : s.drainAll.crank = s.crank := by simp -implicitDefEqProofs [State.drainAll]

@[simp] theorem State.foldBad_crank (x : FoldTab) (share pos cell cause : Nat) :
    (s.foldBad x share pos cell cause).crank = s.crank := by
  simp [State.foldBad]

@[simp] theorem State.foldAck_crank (m : FoldMsg) : (s.foldAck m).crank = s.crank := by simp [State.foldAck]

@[simp] theorem foldUpdate_crank (x : FoldTab) (m : FoldMsg) (ch pos probes : Nat) :
    (foldUpdate x m ch pos probes s).crank = s.crank := by
  unfold foldUpdate
  dsimp only
  split <;> simp

@[simp] theorem foldApply_crank (x : FoldTab) (m : FoldMsg) : (foldApply x m s).crank = s.crank := by
  simp only [foldApply]
  (repeat' split) <;> simp

@[simp] theorem State.foldUpset_crank (u ch upset : Nat) : (s.foldUpset u ch upset).crank = s.crank := by
  simp [State.foldUpset]

@[simp] theorem finishStep_crank (x : FoldTab) (p : State × Option Nat) (e : (Nat × Nat) × List (Nat × Nat)) :
    (finishStep x p e).1.crank = p.1.crank := by
  unfold finishStep
  dsimp only
  split
  · split <;> simp
  · split
    · rfl
    · split
      · split <;> simp -implicitDefEqProofs
      · simp -implicitDefEqProofs

@[simp] theorem foldFinish_crank (key t : Nat) : (foldFinish key t s).crank = s.crank := by
  simp only [foldFinish]
  split <;> simp -implicitDefEqProofs

@[simp] theorem foldTblWrite_crank (t k val : Nat) : (foldTblWrite t k val s).crank = s.crank := by
  simp [foldTblWrite]

/-! ### Reservoir -/

@[simp] theorem State.fillWindow_crank (n slot : Nat) (w : List Byte) : (s.fillWindow n slot w).crank = s.crank := by
  simp -implicitDefEqProofs [State.fillWindow]

@[simp] theorem State.setJob_crank (pos : Nat) (f : Job → Job) : (s.setJob pos f).crank = s.crank := by
  simp [State.setJob]

@[simp] theorem State.ledgerOpen_crank (run region off : Nat) : (s.ledgerOpen run region off).2.crank = s.crank := by
  simp only [State.ledgerOpen]
  (repeat' split) <;> simp

@[simp] theorem State.setLedger_crank (k : Nat) (f : Ledger → Ledger) : (s.setLedger k f).crank = s.crank := by
  simp [State.setLedger]

@[simp] theorem State.ledgerFail_crank (k check : Nat) : (s.ledgerFail k check).crank = s.crank := by
  simp only [State.ledgerFail]
  rw [foldl_crank]
  · simp
  · intro t c; (repeat' split) <;> simp

@[simp] theorem State.ledgerLink_crank (k d : Nat) (nulls : Option Nat) :
    (s.ledgerLink k d nulls).crank = s.crank := by
  unfold State.ledgerLink
  split <;> simp

@[simp] theorem State.ledgerSettle_crank (k : Nat) : (s.ledgerSettle k).crank = s.crank := by
  simp [State.ledgerSettle]

@[simp] theorem State.ledgerTake_crank (r : Report) : (s.ledgerTake r).crank = s.crank := by simp [State.ledgerTake]

@[simp] theorem State.countRead_crank (inst n : Nat) : (s.countRead inst n).crank = s.crank := by
  simp [State.countRead]

@[simp] theorem ledgerFill_crank (k : Nat) (e : Ledger) : (ledgerFill k e s).crank = s.crank := by
  unfold ledgerFill
  dsimp only
  split <;> simp

@[simp] theorem State.readFails_crank (pos : Nat) (b : Bad) : (s.readFails pos b).crank = s.crank := by
  unfold State.readFails
  split <;> simp

@[simp] theorem State.readHeader_crank (pos inst region off : Nat) :
    (s.readHeader pos inst region off).1.crank = s.crank := by
  simp only [State.readHeader]
  (repeat' split) <;> simp

@[simp] theorem State.readNamed_crank (pos inst region off dataOff : Nat) (rel : Hd → Bool) :
    (s.readNamed pos inst region off dataOff rel).1.crank = s.crank := by
  have h := s.readHeader_crank pos inst region off
  simp only [State.readNamed]; (repeat' split) <;> simp_all

@[simp] theorem State.noteChunk_crank (ctx run region off : Nat) (hdr : List Byte) :
    (s.noteChunk ctx run region off hdr).2.crank = s.crank := by
  have h := s.ledgerOpen_crank run region off
  simp only [State.noteChunk]; split <;> simp_all

@[simp] theorem State.readColumn_crank (pos : Nat) (j : Job) (rcp : List Byte) (step off : Nat) (rows : Option Nat) :
    (s.readColumn pos j rcp step off rows).1.crank = s.crank := by
  simp only [State.readColumn]
  split
  · next h => simp [crank_of_fst h]
  next h =>
  split
  · simp [crank_of_fst h]
  split
  · next h' =>
    rw [crank_of_fst h']
    grind [State.readHeader_crank, State.readNamed_crank, State.noteChunk_crank, State.ledgerLink_crank]
  split <;> next h' =>
    rw [crank_of_fst h']
    grind [State.readHeader_crank, State.readNamed_crank, State.noteChunk_crank, State.ledgerLink_crank]

@[simp] theorem State.readColumns_crank (pos : Nat) (j : Job) (rcp : List Byte) (chunkOff : Nat → Nat)
    (xs : List Nat) (xs' : List JCol) :
    (s.readColumns pos j rcp chunkOff xs xs').1.crank = s.crank := by
  induction xs generalizing s xs' with
  | nil => rfl
  | cons k ks ih =>
    simp only [State.readColumns]
    split <;> next h => simp [ih, crank_of_fst h]

@[simp] theorem State.flushJob_crank (pos n : Nat) : (s.flushJob pos n).crank = s.crank := by
  induction n generalizing s with
  | zero => rfl
  | succ n ih => simp only [State.flushJob]; (repeat' split) <;> simp [ih]

@[simp] theorem State.doneReading_crank (pos : Nat) : (s.doneReading pos).crank = s.crank := by
  unfold State.doneReading
  split <;> simp

@[simp] theorem State.skipMorsel_crank (pos : Nat) (j : Job) (rcp : List Byte) :
    (s.skipMorsel pos j rcp).crank = s.crank := by
  simp [State.skipMorsel]

@[simp] theorem State.prepare_crank (pos : Nat) (rcp : List Byte) : (s.prepare pos rcp).crank = s.crank := by
  simp only [State.prepare]
  split
  · next h => simp [crank_of_fst h]
  · next h => split <;> simp [crank_of_fst h]

@[simp] theorem State.recipeFault_crank (pos slot : Nat) : (s.recipeFault pos slot).crank = s.crank := by
  simp [State.recipeFault]

@[simp] theorem State.bindSlot_crank (pos slot : Nat) : (s.bindSlot pos slot).crank = s.crank := by
  unfold State.bindSlot
  dsimp only
  split <;> simp

@[simp] theorem State.fillSlot_crank (pos slot : Nat) (fault : Bool) :
    (s.fillSlot pos slot fault).crank = s.crank := by
  simp [State.fillSlot]

@[simp] theorem State.fetchBlocks_crank (pos off : Nat) (hdr : List Byte) (blocks : List Nat) :
    (s.fetchBlocks pos off hdr blocks).1.crank = s.crank := by
  simp only [State.fetchBlocks]
  (repeat' split) <;> simp

@[simp] theorem State.selfVerify_crank (pos off : Nat) (hdr : List Byte) (nulls : Option Nat) :
    (s.selfVerify pos off hdr nulls).1.crank = s.crank := by
  grind [State.selfVerify, State.fetchBlocks_crank]

@[simp] theorem State.dictionary_crank (pos off : Nat) (hdr : List Byte) :
    (s.dictionary pos off hdr).1.crank = s.crank := by
  grind [State.dictionary, State.fetchBlocks_crank, State.selfVerify_crank]

@[simp] theorem State.decodeColumn_crank (pos : Nat) (rcp : List Byte) (col : JCol) (f last : Nat) :
    (s.decodeColumn pos rcp col f last).1.crank = s.crank := by
  simp only [State.decodeColumn]
  split
  · rfl
  split
  · next h => rw [crank_of_fst h]; grind [State.fetchBlocks_crank, State.selfVerify_crank]
  split
  · next h => rw [crank_of_fst h]; grind [State.fetchBlocks_crank, State.selfVerify_crank, State.dictionary_crank]
  · grind [State.fetchBlocks_crank, State.selfVerify_crank, State.dictionary_crank]

@[simp] theorem State.decodeColumns_crank (pos : Nat) (rcp : List Byte) (f last : Nat) (xs : List JCol)
    (xs' : List Decoded) :
    (s.decodeColumns pos rcp f last xs xs').1.crank = s.crank := by
  induction xs generalizing s xs' with
  | nil => rfl
  | cons c cs ih =>
    simp only [State.decodeColumns]
    split <;> next h => simp [ih, crank_of_fst h]

@[simp] theorem State.nextSegment_crank (pos : Nat) (j : Job) (rcp : List Byte) :
    (s.nextSegment pos j rcp).crank = s.crank := by
  simp only [State.nextSegment]
  split <;> next h => simp [crank_of_fst h]

@[simp] theorem segmentDeliver_crank (pos : Nat) (j : Job) : (segmentDeliver pos j s).crank = s.crank := by
  unfold segmentDeliver
  split <;> simp

@[simp] theorem State.makeRoom_crank (n need n' : Nat) : (s.makeRoom n need n').crank = s.crank := by
  induction n' generalizing s with
  | zero => rfl
  | succ n ih => simp only [State.makeRoom]; (repeat' split) <;> simp [ih]

@[simp] theorem bitmapBuild_crank (pos k : Nat) (j : Job) : (bitmapBuild pos k j s).crank = s.crank := by
  grind [bitmapBuild, State.dictionary_crank, State.readFails_crank, State.setJob_crank, State.bump_crank,
    State.makeRoom_crank]

@[simp] theorem rcpinv_crank (n slots : Nat) : (rcpinv n slots s).crank = s.crank := by simp [rcpinv]

@[simp] theorem windowWrite_crank (n slot j val : Nat) : (windowWrite n slot j val s).crank = s.crank := by
  simp [windowWrite]

/-! ### LinkOps -/

@[simp] theorem State.setPort_crank (p : Nat) (f : MPort → MPort) : (s.setPort p f).crank = s.crank := by
  simp [State.setPort]

@[simp] theorem State.pumpOne_crank (p : Nat) : (s.pumpOne p).crank = s.crank := by
  unfold State.pumpOne
  dsimp only
  split <;> simp

@[simp] theorem State.pump_crank (p : Nat) : (s.pump p).crank = s.crank := by simp [State.pump]

@[simp] theorem State.transmit_crank (p vc : Nat) (bytes : List Byte) : (s.transmit p vc bytes).crank = s.crank := by
  simp [State.transmit]

theorem State.sendMrd_crank {s t : State} {p addr len inst gen n : Nat} {m : Mrd}
    (h : s.sendMrd p addr len inst gen m = some (n, t)) : t.crank = s.crank := by
  unfold State.sendMrd at h
  split at h
  · cases h
  · cases h; simp

@[simp] theorem State.linkBytes_crank (inst n : Nat) : (s.linkBytes inst n).crank = s.crank := by
  simp [State.linkBytes]

@[simp] theorem State.putHost_crank (p addr : Nat) (bs : List Byte) (inst gen : Nat) :
    (s.putHost p addr bs inst gen).crank = s.crank := by
  simp [State.putHost]

@[simp] theorem State.issueHeld_crank (h : Held) (ask : Bool) : (s.issueHeld h ask).2.crank = s.crank := by
  simp only [State.issueHeld]
  split
  · split
    · next h => rw [State.sendMrd_crank h]; simp
    · simp
  · simp

@[simp] theorem State.hostWrite_crank (p addr : Nat) (bs : List Byte) (what : HeldFor) (inst gen : Nat) (ask : Bool) :
    (s.hostWrite p addr bs what inst gen ask).crank = s.crank := by
  simp [State.hostWrite]

@[simp] theorem State.staleDrop_crank (inst : Nat) : (s.staleDrop inst).crank = s.crank := by simp [State.staleDrop]

@[simp] theorem State.reissue_crank (p : Nat) (due : Held → Bool) : (s.reissue p due).crank = s.crank := by
  simp [State.reissue]

@[simp] theorem State.cplFail_crank (p : Nat) : (s.cplFail p).crank = s.crank := by simp [State.cplFail]

@[simp] theorem State.writeMirror_crank (g idx : Nat) : (s.writeMirror g idx).crank = s.crank := by
  simp [State.writeMirror]

@[simp] theorem State.sendNtfy_crank (p inst gen loc head vector count : Nat) :
    (s.sendNtfy p inst gen loc head vector count).crank = s.crank := by
  simp [State.sendNtfy]

/-! ### Tables -/

@[simp] theorem State.dataWrite_crank (key addr : Nat) (bs : List Byte) :
    (s.dataWrite key addr bs).crank = s.crank := by
  simp [State.dataWrite]

@[simp] theorem State.awaitData_crank (key result : Nat) : (s.awaitData key result).crank = s.crank := by
  simp [State.awaitData]

@[simp] theorem State.confirmData_crank (h : Held) (key : Nat) : (s.confirmData h key).crank = s.crank := by
  simp [State.confirmData]

@[simp] theorem State.loseData_crank (key : Nat) : (s.loseData key).crank = s.crank := by
  unfold State.loseData
  dsimp only
  split <;> simp

@[simp] theorem regionAlloc_crank (key num base : Nat) (c : Cmd) :
    (regionAlloc key num base c s).crank = s.crank := by
  simp [regionAlloc]

@[simp] theorem regionFree_crank (key : Nat) (c : Cmd) : (regionFree key c s).crank = s.crank := by
  unfold regionFree
  split <;> simp

@[simp] theorem tableRead_crank (key : Nat) (c : Cmd) : (tableRead key c s).crank = s.crank := by
  simp only [tableRead]
  (repeat' split) <;> simp

@[simp] theorem tableCopy_crank (key : Nat) (c : Cmd) : (tableCopy key c s).crank = s.crank := by
  simp only [tableCopy]
  (repeat' split) <;> simp

@[simp] theorem tableWrite_crank (key : Nat) (c : Cmd) : (tableWrite key c s).crank = s.crank := by
  unfold tableWrite
  split <;> simp

@[simp] theorem applyPiece_crank (key : Nat) (w : Write) : (applyPiece key w s).crank = s.crank := by
  unfold applyPiece
  split <;> simp

@[simp] theorem xferRdy_crank (key xid : Nat) (c : Cmd) (w : Write) : (xferRdy key xid c w s).crank = s.crank := by
  simp [xferRdy]

@[simp] theorem State.failWrite_crank (key status residue : Nat) :
    (s.failWrite key status residue).crank = s.crank := by
  simp [State.failWrite]

@[simp] theorem dataArrive_crank (port key xid off : Nat) (last : Bool) (bs : List Byte) (w : Write) :
    (dataArrive port key xid off last bs w s).crank = s.crank := by
  simp only [dataArrive]
  (repeat' split) <;> simp

/-! ### Pipelines -/

@[simp] theorem State.leaseTable_crank (inst gen pipe width k c t : Nat) (banks : List Nat) :
    (s.leaseTable inst gen pipe width k c t banks).crank = s.crank := by
  simp [State.leaseTable]

@[simp] theorem State.releaseTable_crank (c t : Nat) : (s.releaseTable c t).crank = s.crank := by
  simp [State.releaseTable]

@[simp] theorem State.loadPipe_crank (key num : Nat) (c : Cmd) (img : List Byte) (kernels : List
    (Nat × Nat × Nat)) (chds : List (Nat × List Nat)) (folds : List Nat) :
    (s.loadPipe key num c img kernels chds folds).crank = s.crank := by
  simp only [State.loadPipe]
  rw [State.completeCmd_crank, State.journalRec_crank]
  simp
  rw [foldl_crank]
  intro t k; split <;> simp

@[simp] theorem pipelineLoad_crank (key num : Nat) (kernels : List (Nat × Nat × Nat)) (chds : List
    (Nat × List Nat)) (folds : List Nat) (c : Cmd) :
    (pipelineLoad key num kernels chds folds c s).crank = s.crank := by
  simp only [pipelineLoad]
  (repeat' split) <;> simp

@[simp] theorem State.unloadPipe_crank (num : Nat) : (s.unloadPipe num).crank = s.crank := by
  simp -implicitDefEqProofs [State.unloadPipe]

@[simp] theorem pipelineUnload_crank (key : Nat) (c : Cmd) : (pipelineUnload key c s).crank = s.crank := by
  unfold pipelineUnload
  split <;> simp

/-! ### Sealwax -/

@[simp] theorem State.setSwxSlot_crank (k : Nat) (x : SwxSlot) : (s.setSwxSlot k x).crank = s.crank := by
  simp [State.setSwxSlot]

@[simp] theorem State.wrapFails_crank : s.wrapFails.crank = s.crank := by simp [State.wrapFails]

@[simp] theorem keyLoad_crank (key : Nat) (blob : Option (List Byte)) (c : Cmd) :
    (keyLoad key blob c s).crank = s.crank := by
  simp only [keyLoad]
  (repeat' split) <;> simp

@[simp] theorem State.epochView_crank : s.epochView.crank = s.crank := by simp [State.epochView]
@[simp] theorem State.openEpoch_crank (fails : Nat) : (s.openEpoch fails).crank = s.crank := by simp [State.openEpoch]

@[simp] theorem State.attest_crank (inst gen : Nat) (challenge : List Byte) :
    (s.attest inst gen challenge).2.crank = s.crank := by
  simp [State.attest]

@[simp] theorem State.setMsg_crank (k : Nat) (f : SwxMsg → SwxMsg) : (s.setMsg k f).crank = s.crank := by
  simp [State.setMsg]

@[simp] theorem State.setSwxCtx_crank (n : Nat) (x : SwxCtx) : (s.setSwxCtx n x).crank = s.crank := by
  simp [State.setSwxCtx]

@[simp] theorem State.assignCtx_crank : s.assignCtx.crank = s.crank := by
  unfold State.assignCtx
  rw [foldl_crank]
  intro t n
  split
  · rfl
  · dsimp only; split <;> simp

@[simp] theorem State.dropMsg_crank (k : Nat) : (s.dropMsg k).crank = s.crank := by
  unfold State.dropMsg
  split <;> simp

@[simp] theorem State.dropWith_crank (k status : Nat) : (s.dropWith k status).crank = s.crank := by
  unfold State.dropWith
  split <;> simp

@[simp] theorem State.endDigest_crank (k : Nat) : (s.endDigest k).crank = s.crank := by
  unfold State.endDigest
  split <;> simp

@[simp] theorem State.digestOut_crank (k : Nat) (hash : List Byte) : (s.digestOut k hash).crank = s.crank := by
  simp only [State.digestOut]
  (repeat' split) <;> simp

@[simp] theorem State.afterBlocks_crank (k : Nat) : (s.afterBlocks k).crank = s.crank := by
  simp only [State.afterBlocks]
  (repeat' split) <;> simp

@[simp] theorem State.takeData_crank (k : Nat) : (s.takeData k).crank = s.crank := by
  simp only [State.takeData]
  (repeat' split) <;> simp

@[simp] theorem State.wantCtx_crank (k : Nat) : (s.wantCtx k).crank = s.crank := by
  simp only [State.wantCtx]
  (repeat' split) <;> simp

@[simp] theorem digest_crank (key : Nat) (bytes : Option (List Byte)) (fails : Nat) (c : Cmd) :
    (digest key bytes fails c s).crank = s.crank := by
  simp only [digest]
  (repeat' split) <;> simp

@[simp] theorem State.absorbBlock_crank (n : Nat) : (s.absorbBlock n).crank = s.crank := by simp [State.absorbBlock]
@[simp] theorem State.swxDisagree_crank : s.swxDisagree.crank = s.crank := by simp [State.swxDisagree]
@[simp] theorem swxExport_crank (n : Nat) : (swxExport n s).crank = s.crank := by simp [swxExport]

@[simp] theorem State.swxSaved_crank (h : Held) (n : Nat) : (s.swxSaved h n).crank = s.crank := by
  simp [State.swxSaved]

@[simp] theorem State.swxLost_crank (n : Nat) : (s.swxLost n).crank = s.crank := by simp [State.swxLost]

@[simp] theorem swxImport_crank (n : Nat) (blob : Option (List Byte)) : (swxImport n blob s).crank = s.crank := by
  simp only [swxImport]
  (repeat' split) <;> simp

@[simp] theorem swxWaitTimeout_crank (k : Nat) : (swxWaitTimeout k s).crank = s.crank := by
  unfold swxWaitTimeout
  dsimp only
  split <;> simp

@[simp] theorem State.dropMessages_crank (inst : Nat) : (s.dropMessages inst).crank = s.crank := by
  simp [State.dropMessages]

/-! ### Entries -/

@[simp] theorem State.ring_crank (inst loc idx : Nat) (gen : Option Nat) :
    (s.ring inst loc idx gen).crank = s.crank := by
  unfold State.ring
  split <;> simp

@[simp] theorem State.pushEntry_crank (inst loc idx units : Nat) :
    (s.pushEntry inst loc idx units).crank = s.crank := by
  unfold State.pushEntry
  split <;> simp

@[simp] theorem State.applyDoorbell_crank (d : Doorbell) : (s.applyDoorbell d).crank = s.crank := by
  simp [State.applyDoorbell]

@[simp] theorem State.acceptNew_crank (g : Nat) (e : Entry) (units : Nat) (isOpen : Bool) :
    (s.acceptNew g e units isOpen).2.crank = s.crank := by
  simp [State.acceptNew]

@[simp] theorem State.acceptMore_crank (g key : Nat) (e : Entry) (units : Nat) (isOpen : Bool) :
    (s.acceptMore g key e units isOpen).crank = s.crank := by
  simp [State.acceptMore]

@[simp] theorem State.setChain_crank (g : Nat) (k : Option Nat) : (s.setChain g k).crank = s.crank := by
  simp [State.setChain]

@[simp] theorem State.breakChain_crank (g : Nat) : (s.breakChain g).crank = s.crank := by
  unfold State.breakChain
  split <;> simp

@[simp] theorem State.judge_crank (key entGen : Nat) (hdr : Option Nat) :
    (s.judge key entGen hdr).crank = s.crank := by
  simp only [State.judge]
  (repeat' split) <;> simp

@[simp] theorem acceptEntry_crank (g : Nat) (bs : List Byte) : (acceptEntry g bs s).crank = s.crank := by
  simp only [acceptEntry]
  (repeat' split) <;> simp

/-! ### Hbm -/

@[simp] theorem State.setStack_crank (st : Nat) (f : Hbm → Hbm) : (s.setStack st f).crank = s.crank := by
  simp [State.setStack]

@[simp] theorem tempReadout_crank (st temp : Nat) : (tempReadout st temp s).crank = s.crank := by simp [tempReadout]

@[simp] theorem patrolRead_crank (st fault dq : Nat) : (patrolRead st fault dq s).crank = s.crank := by
  simp [patrolRead]

@[simp] theorem hbmRetrain_crank (st u q : Nat) (moves : List (Nat × Int × Int)) :
    (hbmRetrain st u q moves s).crank = s.crank := by
  simp [hbmRetrain]

@[simp] theorem State.hardRow_crank (ch f : Nat) : (s.hardRow ch f).crank = s.crank := by simp [State.hardRow]

@[simp] theorem State.repairOver_crank (cls unit detail status : Nat) :
    (s.repairOver cls unit detail status).crank = s.crank := by
  simp only [State.repairOver]
  rw [foldl_crank]
  intro t e; split <;> simp

@[simp] theorem frameRetire_crank (ch frame spare : Nat) (faults : List (Nat × Nat × Nat)) :
    (frameRetire ch frame spare faults s).crank = s.crank := by
  simp only [frameRetire]
  (repeat' split) <;> simp

@[simp] theorem trnCtlWrite_crank (st val fails count : Nat) :
    (trnCtlWrite st val fails count s).crank = s.crank := by
  simp [trnCtlWrite]

@[simp] theorem trnDlyWrite_crank (st val : Nat) : (trnDlyWrite st val s).crank = s.crank := by simp [trnDlyWrite]

/-! ### Queues -/

@[simp] theorem State.enableQueue_crank (g : Nat) (en : Bool) : (s.enableQueue g en).crank = s.crank := by
  simp [State.enableQueue]

@[simp] theorem State.journalView_crank (who : Who) (off old new : Nat) :
    (s.journalView who off old new).crank = s.crank := by
  simp [State.journalView]

@[simp] theorem queueReset_crank (who : Who) (g : Nat) : (queueReset who g s).crank = s.crank := by simp [queueReset]
@[simp] theorem headPublish_crank (g : Nat) : (headPublish g s).crank = s.crank := by simp [headPublish]

@[simp] theorem State.publish_crank (g idx notes : Nat) : (s.publish g idx notes).crank = s.crank := by
  simp [State.publish]

@[simp] theorem sendNotice_crank (g : Nat) : (sendNotice g s).crank = s.crank := by simp [sendNotice]

@[simp] theorem State.ringSlot_crank (stage g : Nat) (bytes : List Byte) (run : Nat) :
    (s.ringSlot stage g bytes run).crank = s.crank := by
  simp [State.ringSlot]

@[simp] theorem State.mailClear_crank (i : Nat) (down : Bool) : (s.mailClear i down).crank = s.crank := by
  simp [State.mailClear]

@[simp] theorem State.freshen_crank (e : Event) : (s.freshen e).2.crank = s.crank := by
  unfold State.freshen
  split <;> simp

@[simp] theorem eventWrite_crank (i : Nat) (e : Event) : (eventWrite i e s).crank = s.crank := by
  unfold eventWrite
  dsimp only
  split <;> simp

@[simp] theorem overflowWrite_crank (g : Nat) : (overflowWrite g s).crank = s.crank := by simp [overflowWrite]

@[simp] theorem mailboxRing_crank (i : Nat) (down : Bool) (val : Nat) :
    (mailboxRing i down val s).crank = s.crank := by
  simp [mailboxRing]

@[simp] theorem queueCreate_crank (key g : Nat) (c : Cmd) : (queueCreate key g c s).crank = s.crank := by
  simp [queueCreate]

@[simp] theorem State.dropQueue_crank (g : Nat) : (s.dropQueue g).crank = s.crank := by simp [State.dropQueue]

@[simp] theorem queueDelete_crank (key : Nat) (c : Cmd) : (queueDelete key c s).crank = s.crank := by
  unfold queueDelete
  split <;> simp

@[simp] theorem queueDrain_crank (key : Nat) (c : Cmd) : (queueDrain key c s).crank = s.crank := by
  unfold queueDrain
  split <;> simp

@[simp] theorem State.flushAccepted_crank (g note : Nat) : (s.flushAccepted g note).2.crank = s.crank := by
  simp [State.flushAccepted]

@[simp] theorem State.flushUnread_crank (g note : Nat) (xs : List (List Byte)) (n : Nat) :
    (s.flushUnread g note xs n).2.crank = s.crank := by
  induction xs generalizing s n with
  | nil => rfl
  | cons f r ih => simp only [State.flushUnread]; (repeat' split) <;> simp [ih]

@[simp] theorem queueFlush_crank (key : Nat) (firsts : List (List Byte)) (c : Cmd) :
    (queueFlush key firsts c s).crank = s.crank := by
  simp only [queueFlush]
  (repeat' split) <;> simp

@[simp] theorem setFeature_crank (key : Nat) (c : Cmd) : (setFeature key c s).crank = s.crank := by
  unfold setFeature
  split <;> simp

@[simp] theorem State.issue_crank (o : OutItem) : (s.issue o).crank = s.crank := by
  simp only [State.issue]
  (repeat' split) <;> simp

@[simp] theorem State.ringConfirmed_crank (h : Held) (g newTail : Nat) :
    (s.ringConfirmed h g newTail).crank = s.crank := by
  unfold State.ringConfirmed
  dsimp only
  split <;> simp

@[simp] theorem State.confirmPublication_crank (h : Held) : (s.confirmPublication h).crank = s.crank := by
  simp only [State.confirmPublication]
  (repeat' split) <;> simp

/-! ### Crank -/

@[simp] theorem State.setClaim_crank (seat v : Nat) : (s.setClaim seat v).crank = s.crank := by simp [State.setClaim]
@[simp] theorem State.toggleHealth_crank : s.toggleHealth.crank = s.crank := by simp [State.toggleHealth]
@[simp] theorem State.obey_crank (o : OutItem) : (s.obey o).crank = s.crank := by simp [State.obey]
@[simp] theorem State.pathLost_crank (f : Nat × Nat) : (s.pathLost f).crank = s.crank := by simp [State.pathLost]
@[simp] theorem State.overtake_crank : s.overtake.crank = s.crank := by simp [State.overtake]

@[simp] theorem State.seatRepaired_crank (seat detail status : Nat) :
    (s.seatRepaired seat detail status).crank = s.crank := by
  simp [State.seatRepaired]

@[simp] theorem State.flashImage_crank (img : List Byte) (ok : Bool) : (s.flashImage img ok).crank = s.crank := by
  simp [State.flashImage]

/-! ### ChainOps -/

@[simp] theorem State.setChain'_crank (c : Nat) (f : ChainRun → ChainRun) : (s.setChain' c f).crank = s.crank := by
  simp [State.setChain']

@[simp] theorem State.chnForget_crank (c : Nat) (all : Bool) : (s.chnForget c all).crank = s.crank := by
  simp [State.chnForget]

@[simp] theorem State.chnStop_crank (c st last done : Nat) : (s.chnStop c st last done).crank = s.crank := by
  simp [State.chnStop]

@[simp] theorem State.chnStart_crank (c : Nat) (chained : Bool) : (s.chnStart c chained).crank = s.crank := by
  simp -implicitDefEqProofs [State.chnStart]

@[simp] theorem State.chnIdle_crank (c : Nat) : (s.chnIdle c).crank = s.crank := by simp [State.chnIdle]

@[simp] theorem State.chnError_crank (c addr dir cause : Nat) (host : Bool) (done : Nat) :
    (s.chnError c addr dir cause host done).crank = s.crank := by
  simp [State.chnError]

@[simp] theorem State.chnDone_crank (c : Nat) : (s.chnDone c).crank = s.crank := by simp [State.chnDone]
@[simp] theorem State.chnStale_crank (c : Nat) : (s.chnStale c).crank = s.crank := by simp [State.chnStale]

@[simp] theorem State.chainsStale_crank (inst : Nat) : (s.chainsStale inst).crank = s.crank := by
  simp [State.chainsStale]

@[simp] theorem chainCtlWrite_crank (c val : Nat) : (chainCtlWrite c val s).crank = s.crank := by simp [chainCtlWrite]

@[simp] theorem chainWordWrite_crank (c j val : Nat) : (chainWordWrite c j val s).crank = s.crank := by
  simp [chainWordWrite]

@[simp] theorem State.chnAsk_crank (c : Nat) : (s.chnAsk c).crank = s.crank := by
  unfold State.chnAsk
  split
  · split
    · next h => simp [State.sendMrd_crank h]
    · rfl
  · rfl

@[simp] theorem State.chnConfirmed_crank (c : Nat) : (s.chnConfirmed c).crank = s.crank := by
  simp [State.chnConfirmed]

@[simp] theorem State.chnReadFailed_crank (c : Nat) (m : Mrd) : (s.chnReadFailed c m).crank = s.crank := by
  simp [State.chnReadFailed]

@[simp] theorem State.chnFill_crank (c i : Nat) (bytes : List Byte) : (s.chnFill c i bytes).crank = s.crank := by
  simp [State.chnFill]

/-! ### Exchange -/

@[simp] theorem State.putFlits_crank (f : XFlit) : (s.putFlits f).crank = s.crank := by simp [State.putFlits]

@[simp] theorem State.sendPeer_crank (p : Sent) : (s.sendPeer p).crank = s.crank := by
  unfold State.sendPeer
  split <;> simp

@[simp] theorem exchangeSend_crank (pos p stall : Nat) : (exchangeSend pos p stall s).crank = s.crank := by
  simp only [exchangeSend]
  (repeat' split) <;> simp

@[simp] theorem State.blockWrite_crank (b : Block) (a : Nat) (bs : List Byte) :
    (s.blockWrite b a bs).crank = s.crank := by
  simp [State.blockWrite]

theorem State.landRecord_crank {s t : State} {n slot : Nat} {f : XFlit} {rec_ : List Byte}
    (h : s.landRecord n slot f rec_ = some t) : t.crank = s.crank := by
  simp only [State.landRecord] at h
  split at h
  · cases h; simp
  split at h
  · cases h
  · cases h; simp

@[simp] theorem State.landAll_crank (n slot lx : Nat) (f : XFlit) (n' : Nat) (xs : List Byte) :
    (s.landAll n slot lx f n' xs).1.crank = s.crank := by
  induction n' generalizing s xs with
  | zero => rfl
  | succ n ih =>
    simp only [State.landAll]
    split
    · rfl
    split
    · simp [ih]
    split
    · next h => rw [ih, State.landRecord_crank h]
    · simp

@[simp] theorem State.markReady_crank (p : PeerIn) : (s.markReady p).crank = s.crank := by
  simp only [State.markReady]
  (repeat' split) <;> simp

@[simp] theorem State.peerIn_crank (dev task epoch port : Nat) (f : PeerIn → PeerIn) :
    (s.peerIn dev task epoch port f).crank = s.crank := by
  simp [State.peerIn]

@[simp] theorem flitReceive_crank (i : Nat) (f : XFlit) : (flitReceive i f s).crank = s.crank := by simp [flitReceive]

@[simp] theorem State.forwardPeer_crank (port kind src dst hops inst gen slot task exch epoch lost flits : Nat)
    (bytes : List Byte) :
    (s.forwardPeer port kind src dst hops inst gen slot task exch epoch lost flits bytes).crank = s.crank := by
  simp only [State.forwardPeer]
  (repeat' split) <;> simp

@[simp] theorem recordsDeliver_crank (port src inst gen slot task exch epoch : Nat) (bytes : List Byte) :
    (recordsDeliver port src inst gen slot task exch epoch bytes s).crank = s.crank := by
  unfold recordsDeliver
  split <;> simp

@[simp] theorem markAck_crank (src task epoch : Nat) : (markAck src task epoch s).crank = s.crank := by simp [markAck]

@[simp] theorem State.peerLost_crank (p : Ctx → Bool) : (s.peerLost p).crank = s.crank := by
  simp only [State.peerLost]
  rw [foldl_crank (by simp), foldl_crank]
  intro t e; split <;> simp

/-! ### Link -/

@[simp] theorem State.portEnter_crank (p st : Nat) : (s.portEnter p st).crank = s.crank := by simp [State.portEnter]

@[simp] theorem State.portLeave_crank (p st : Nat) : (s.portLeave p st).crank = s.crank := by
  simp only [State.portLeave]
  rw [foldl_crank]
  · simp
  · intro t m; split <;> simp

@[simp] theorem State.portRetrain_crank (p : Nat) : (s.portRetrain p).crank = s.crank := by simp [State.portRetrain]

@[simp] theorem State.replay_crank (p : Nat) : (s.replay p).crank = s.crank := by
  unfold State.replay
  dsimp only
  split <;> simp

@[simp] theorem State.takeAck_crank (p ack : Nat) : (s.takeAck p ack).crank = s.crank := by simp [State.takeAck]

@[simp] theorem State.sendAck_crank (p : Nat) (nak : Bool) : (s.sendAck p nak).crank = s.crank := by
  simp [State.sendAck]

@[simp] theorem State.portActivate_crank (p ack : Nat) (resume : Bool) :
    (s.portActivate p ack resume).crank = s.crank := by
  simp [State.portActivate]

@[simp] theorem State.portEnable_crank (p : Nat) (en : Bool) : (s.portEnable p en).crank = s.crank := by
  simp [State.portEnable]

@[simp] theorem equaliseDone_crank (p good : Nat) : (equaliseDone p good s).crank = s.crank := by
  simp -implicitDefEqProofs [equaliseDone]

@[simp] theorem alignDone_crank (p : Nat) (lanes : List (Bool × Nat × Nat)) :
    (alignDone p lanes s).crank = s.crank := by
  simp -implicitDefEqProofs [alignDone]

@[simp] theorem State.configure_crank (p tx rx : Nat) (a : Partner) : (s.configure p tx rx a).crank = s.crank := by
  simp [State.configure]

@[simp] theorem configAgreement_crank (p : Nat) (a : Partner) : (configAgreement p a s).crank = s.crank := by
  simp only [configAgreement]
  (repeat' split) <;> simp

@[simp] theorem State.sendControl_crank (p kind arg : Nat) (wait : Bool) :
    (s.sendControl p kind arg wait).crank = s.crank := by
  simp [State.sendControl]

@[simp] theorem State.askSwap_crank (p k : Nat) : (s.askSwap p k).crank = s.crank := by simp [State.askSwap]

@[simp] theorem laneErrorWindow_crank (p : Nat) (counts : List Nat) (unlocked : Nat) :
    (laneErrorWindow p counts unlocked s).crank = s.crank := by
  simp only [laneErrorWindow]
  (repeat' split) <;> simp -implicitDefEqProofs

@[simp] theorem State.swapDone_crank (p k : Nat) (tx : Bool) : (s.swapDone p k tx).crank = s.crank := by
  simp only [State.swapDone]
  (repeat' split) <;> simp

@[simp] theorem State.takePayload_crank (p vc first : Nat) (pay : List Byte) :
    (s.takePayload p vc first pay).crank = s.crank := by
  simp [State.takePayload]

@[simp] theorem dataFlit_crank (p : Nat) (b : List Byte) : (dataFlit p b s).crank = s.crank := by simp [dataFlit]

@[simp] theorem flitArrive_crank (p : Nat) (b : List Byte) : (flitArrive p b s).crank = s.crank := by
  unfold flitArrive
  split <;> simp

@[simp] theorem State.confirm_crank (h : Held) : (s.confirm h).crank = s.crank := by
  simp only [State.confirm]
  (repeat' split) <;> simp

@[simp] theorem State.unconfirmed_crank (h : Held) : (s.unconfirmed h).crank = s.crank := by
  simp only [State.unconfirmed]
  (repeat' split) <;> simp

@[simp] theorem State.dropMrd_crank (m : Mrd) : (s.dropMrd m).crank = s.crank := by simp [State.dropMrd]

@[simp] theorem State.mrdFailed_crank (m : Mrd) : (s.mrdFailed m).crank = s.crank := by
  simp only [State.mrdFailed]
  (repeat' split) <;> simp

@[simp] theorem State.mrdAnswered_crank (m : Mrd) (bytes : List Byte) : (s.mrdAnswered m bytes).crank = s.crank := by
  simp only [State.mrdAnswered]
  (repeat' split) <;> simp

@[simp] theorem cplArrive_crank (p tag st : Nat) (bytes : List Byte) :
    (cplArrive p tag st bytes s).crank = s.crank := by
  unfold cplArrive
  split <;> simp

@[simp] theorem cplTimeout_crank (m : Mrd) : (cplTimeout m s).crank = s.crank := by simp [cplTimeout]

@[simp] theorem State.portGone_crank (p : Nat) : (s.portGone p).crank = s.crank := by
  simp only [State.portGone]
  rw [State.peerLost_crank, foldl_crank, foldl_crank (by simp), foldl_crank, foldl_crank (by simp)]
  · intro t m; split <;> simp
  · intro t h; (repeat' split) <;> simp

@[simp] theorem linkLost_crank (p : Nat) : (linkLost p s).crank = s.crank := by simp [linkLost]

/-! ### Sconce -/

@[simp] theorem State.setWay_crank (n w : Nat) (v : Way) : (s.setWay n w v).crank = s.crank := by simp [State.setWay]

@[simp] theorem State.answerLoad_crank (pos n j : Nat) (bs : List Byte) :
    (s.answerLoad pos n j bs).crank = s.crank := by
  simp [State.answerLoad]

@[simp] theorem State.answerWaits_crank (n : Nat) : (s.answerWaits n).crank = s.crank := by
  simp only [State.answerWaits]
  rw [foldl_crank]
  intro t x; split <;> simp

@[simp] theorem State.failCtx_crank (i status : Nat) : (s.failCtx i status).crank = s.crank := by
  unfold State.failCtx
  split <;> simp

@[simp] theorem State.wayUpset_crank (n w upset : Nat) : (s.wayUpset n w upset).crank = s.crank := by
  simp only [State.wayUpset]
  (repeat' split) <;> simp

@[simp] theorem State.askLine_crank (n line : Nat) : (s.askLine n line).crank = s.crank := by
  simp only [State.askLine]
  (repeat' split) <;> simp

@[simp] theorem State.farPoison_crank (pos a : Nat) : (s.farPoison pos a).crank = s.crank := by simp [State.farPoison]

@[simp] theorem sconceRequest_crank (pos n j a len upset : Nat) :
    (sconceRequest pos n j a len upset s).crank = s.crank := by
  unfold sconceRequest
  extract_lets lan c t c' held busy past missed i counted _ _ asked
  have ht : t.crank = s.crank := by simp only [t]; (repeat' split) <;> simp
  have hpast : past.crank = s.crank := by
    simp only [past]
    rw [foldl_crank, ht]
    intro u l; (repeat' split) <;> simp
  have hcounted : counted.crank = s.crank := by simp [counted, missed, hpast]
  have hasked : asked.crank = s.crank := by simp [asked, ht]
  (repeat' split) <;> simp [*]

@[simp] theorem sconceFill_crank (n w : Nat) (faults : List (Nat × Nat × Nat)) :
    (sconceFill n w faults s).crank = s.crank := by
  simp only [sconceFill]
  (repeat' split) <;> simp

@[simp] theorem State.cleanWay_crank (n w : Nat) : (s.cleanWay n w).crank = s.crank := by simp [State.cleanWay]
@[simp] theorem State.maintWay_crank (n w op : Nat) : (s.maintWay n w op).crank = s.crank := by simp [State.maintWay]

@[simp] theorem State.maintLine_crank (n line op : Nat) : (s.maintLine n line op).crank = s.crank := by
  simp only [State.maintLine]
  (repeat' split) <;> simp

@[simp] theorem State.maintRange_crank (n line len op : Nat) : (s.maintRange n line len op).crank = s.crank := by
  simp [State.maintRange]

@[simp] theorem scnMaintWrite_crank (n val : Nat) : (scnMaintWrite n val s).crank = s.crank := by simp [scnMaintWrite]

@[simp] theorem maintCmd_crank (who : Who) (n val op : Nat) (range : Bool) :
    (maintCmd who n val op range s).crank = s.crank := by
  unfold maintCmd; exact whenDue_crank _ (by simp)

@[simp] theorem scnLockWrite_crank (n w val : Nat) : (scnLockWrite n w val s).crank = s.crank := by
  simp only [scnLockWrite]
  (repeat' split) <;> simp

@[simp] theorem State.sconceFlush_crank (n : Nat) : (s.sconceFlush n).crank = s.crank := by simp [State.sconceFlush]

/-! ### Rounds -/

@[simp] theorem State.spillFail_crank (run slot : Nat) : (s.spillFail run slot).crank = s.crank := by
  unfold State.spillFail
  split <;> simp

theorem State.moveOut_crank {s t : State} {b : Nat × Block} (h : s.moveOut b = some t) : t.crank = s.crank := by
  simp only [State.moveOut, Option.map_eq_some_iff] at h
  obtain ⟨a, _, rfl⟩ := h
  simp -implicitDefEqProofs

theorem State.moveAll_crank {s t : State} {bs : List (Nat × Block)} (h : s.moveAll bs = some t) :
    t.crank = s.crank := by
  induction bs generalizing s with
  | nil => cases h; rfl
  | cons b r ih =>
    simp only [State.moveAll] at h
    split at h
    · exact ih h
    · obtain ⟨u, hu, ht⟩ := Option.bind_eq_some_iff.1 h
      exact (ih ht).trans (State.moveOut_crank hu)

@[simp] theorem State.planRounds_crank (run h d p : Nat) : (s.planRounds run h d p).crank = s.crank := by
  simp only [State.planRounds]
  split
  · rfl
  split
  · simp
  · next h => simp [State.moveAll_crank h]

@[simp] theorem State.judgeBuild_crank (run b : Nat) : (s.judgeBuild run b).crank = s.crank := by
  unfold State.judgeBuild
  dsimp only
  split <;> simp

theorem State.putCopies_crank {s t : State} {run d n : Nat} {x : Round} {far : Bool} {rows : List (List (List Byte))}
    {as : List Nat} (h : s.putCopies run d n x far rows = some (as, t)) : t.crank = s.crank := by
  induction rows generalizing s t as with
  | nil => cases h; rfl
  | cons c rest ih =>
    simp only [State.putCopies] at h
    split at h
    · cases h
    split at h
    · next h' => cases h; rw [ih h']; simp
    · cases h

theorem State.putMap_crank {s t : State} {run d n : Nat} {x : Round} {rows : Nat}
    (h : s.putMap run d n x rows = some t) : t.crank = s.crank := by
  simp only [State.putMap] at h
  split at h
  · obtain ⟨r, hr, rfl⟩ := Option.map_eq_some_iff.1 h
    exact State.putCopies_crank hr
  · cases h; rfl

@[simp] theorem State.dropCopies_crank (run d slot below : Nat) :
    (s.dropCopies run d slot below).crank = s.crank := by
  simp [State.dropCopies]

@[simp] theorem State.zeroDirectory_crank (run h slot : Nat) : (s.zeroDirectory run h slot).crank = s.crank := by
  unfold State.zeroDirectory
  split <;> simp

theorem State.beginRound_crank {s t : State} {run j d : Nat} {x : Round} {ins : List (List Nat)}
    (h : s.beginRound run j d x = some (ins, t)) : t.crank = s.crank := by
  obtain ⟨c, hc, e⟩ := Option.map_eq_some_iff.1 h
  cases e
  rw [State.putCopies_crank hc]
  simp

theorem State.blockInputs_crank {s t : State} {run j : Nat} {ins : List (List Nat)}
    (h : s.blockInputs run j = some (ins, t)) : t.crank = s.crank := by
  unfold State.blockInputs at h
  dsimp only at h
  split at h
  · cases h; rfl
  split at h
  · cases h; rfl
  refine foldl_bind_crank ?_ h
  rintro x ⟨ins, u⟩ ⟨ins', v⟩ hv
  obtain ⟨w, hw, hv⟩ := Option.bind_eq_some_iff.1 hv
  obtain ⟨c, hc, e⟩ := Option.map_eq_some_iff.1 hv
  cases e
  exact (State.putCopies_crank hc).trans (State.putMap_crank hw)

/-! ### Runs -/

@[simp] theorem queryRun_crank (key : Nat) (c : Cmd) : (queryRun key c s).crank = s.crank := by
  unfold queryRun
  split <;> simp

theorem State.takeAreas_crank {s t : State} {key : Nat} {as : List (Nat × Nat × Nat)} {picks : List Nat}
    (h : s.takeAreas key as picks = .ok t) : t.crank = s.crank := by
  induction as generalizing s picks with
  | nil => cases h; rfl
  | cons a as ih =>
    simp only [State.takeAreas] at h
    split at h
    · cases h
    split at h
    · cases h
    split at h
    · cases h
    · exact (ih h).trans (by simp)

theorem State.takeScans_crank {s t : State} {key : Nat} {xs : List (Nat × Nat)} {picks : List Nat}
    (h : s.takeScans key xs picks = .ok t) : t.crank = s.crank := by
  induction xs generalizing s picks with
  | nil => cases h; rfl
  | cons x xs ih =>
    cases picks with
    | nil => cases h
    | cons a picks =>
      simp only [State.takeScans] at h
      split at h
      · cases h
      split at h
      · cases h
      · exact (ih h).trans (by simp)

theorem State.openFold_crank {s t : State} {key p n a : Nat} (h : s.openFold key p n a = .ok t) :
    t.crank = s.crank := by
  simp only [State.openFold] at h
  split at h
  · cases h
  split at h
  · cases h
  · cases h; simp

theorem State.takeFolds_crank {s t : State} {key : Nat} {xs : List (Nat × Nat)} {picks : List Nat}
    (h : s.takeFolds key xs picks = .ok t) : t.crank = s.crank := by
  induction xs generalizing s picks with
  | nil => cases h; rfl
  | cons x xs ih =>
    simp only [State.takeFolds] at h
    split at h
    · cases h
    · next h' => exact (ih h).trans (State.openFold_crank h')

@[simp] theorem State.planLedger_crank (key j : Nat) : (s.planLedger key j).crank = s.crank := by
  simp only [State.planLedger]
  split
  · rfl
  rw [foldl_crank]
  intro t e
  rw [foldl_crank]
  intro u c
  split <;> next h => simp [crank_of_snd h]

@[simp] theorem runStart_crank (key : Nat) (areas scans folds : List Nat) (r : Run) :
    (runStart key areas scans folds r s).crank = s.crank := by
  simp only [runStart]
  split
  · simp
  split
  · simp
  split
  · simp
  split
  · next h =>
    simp only [Except.bind] at h
    split at h
    · cases h
    next ha =>
    split at h
    · cases h
    next hb =>
    simp [State.takeFolds_crank h, State.takeScans_crank hb, State.takeAreas_crank ha]
  · simp
  · rfl

@[simp] theorem State.setStage_crank (key j : Nat) (f : StageRun → StageRun) :
    (s.setStage key j f).crank = s.crank := by
  simp [State.setStage]

theorem State.stageInputs_crank {s t : State} {key j : Nat} {ins : List (List Nat)}
    (h : s.stageInputs key j = .ok (ins, t)) : t.crank = s.crank := by
  unfold State.stageInputs at h
  dsimp only at h
  split at h
  · cases h; rfl
  · split at h
    · next h' => cases h; exact State.blockInputs_crank h'
    · cases h
  · split at h
    · cases h; rfl
    · cases h
  · cases h; rfl

@[simp] theorem State.openSlots_crank (key j : Nat) : (s.openSlots key j).crank = s.crank := by
  simp only [State.openSlots]
  rw [foldl_crank]
  intro t m; (repeat' split) <;> simp

@[simp] theorem State.inWindow_crank (r : Run) (img : List Byte) (j kind a n : Nat) :
    (s.inWindow r img j kind a n).2.2.crank = s.crank := by
  unfold State.inWindow
  dsimp only
  split <;> simp

@[simp] theorem State.morselOf_crank (key j t : Nat) : (s.morselOf key j t).2.crank = s.crank := by
  simp only [State.morselOf]
  (repeat' split) <;> simp

@[simp] theorem State.createTask_crank (key j t i slot : Nat) : (s.createTask key j t i slot).crank = s.crank := by
  simp [State.createTask]

@[simp] theorem State.createTasks_crank (key j : Nat) (xs : List (Nat × Nat)) :
    (s.createTasks key j xs).crank = s.crank := by
  induction xs generalizing s with
  | nil => rfl
  | cons x r ih => simp [State.createTasks, ih]

@[simp] theorem stageStart_crank (key j : Nat) (picks : List (Nat × Nat)) (r : Run) :
    (stageStart key j picks r s).crank = s.crank := by
  have made : ∀ t : State, t.crank = s.crank →
      (if t.picksWhole key j picks then t.createTasks key j picks else s).crank = s.crank := by
    intro t h; split <;> simp [h]
  simp only [stageStart]
  split
  · split
    · rfl
    split
    · split <;> simp
    · next h => exact made _ (by simp [State.stageInputs_crank h])
  split
  · split <;> simp
  split
  · split
    · simp
    · next h => exact made _ (by simp [State.beginRound_crank h])
  · rfl

@[simp] theorem State.concatOutput_crank (key j : Nat) : (s.concatOutput key j).crank = s.crank := by
  simp only [State.concatOutput]
  (repeat' split) <;> simp

@[simp] theorem State.buildWork_crank (key j rows nulls : Nat) : (s.buildWork key j rows nulls).crank = s.crank := by
  simp [State.buildWork]

@[simp] theorem State.barrierBegin_crank (key j rows nulls : Nat) :
    (s.barrierBegin key j rows nulls).crank = s.crank := by
  simp [State.barrierBegin]

@[simp] theorem State.barrierLoad_crank (key : Nat) (l : Nat × Nat) : (s.barrierLoad key l).crank = s.crank := by
  simp [State.barrierLoad]

@[simp] theorem State.barrierStep_crank (key j : Nat) : (s.barrierStep key j).crank = s.crank := by
  unfold State.barrierStep
  dsimp only
  split <;> simp

@[simp] theorem queryAbort_crank (key : Nat) (c : Cmd) : (queryAbort key c s).crank = s.crank := by
  simp only [queryAbort]
  (repeat' split) <;> simp

@[simp] theorem queryStatus_crank (key : Nat) (c : Cmd) : (queryStatus key c s).crank = s.crank := by
  unfold queryStatus
  split <;> simp

/-! ### Sort -/

@[simp] theorem ladderSort_crank (n pos no : Nat) : (ladderSort n pos no s).crank = s.crank := by simp [ladderSort]

@[simp] theorem State.writeRun_crank (pos a : Nat) (recs : List Nat) : (s.writeRun pos a recs).crank = s.crank := by
  simp [State.writeRun]

@[simp] theorem State.runFull_crank (pos : Nat) : (s.runFull pos).crank = s.crank := by simp [State.runFull]

@[simp] theorem runClose_crank (pos a : Nat) (recs : List Nat) : (runClose pos a recs s).crank = s.crank := by
  simp [runClose]

@[simp] theorem sortMerge_crank (pos a : Nat) (recs : List Nat) : (sortMerge pos a recs s).crank = s.crank := by
  simp [sortMerge]

@[simp] theorem fmtCtl_crank (n set clear : Nat) : (fmtCtl n set clear s).crank = s.crank := by simp [fmtCtl]
@[simp] theorem formatWrite_crank (n j val : Nat) : (formatWrite n j val s).crank = s.crank := by simp [formatWrite]

/-! ### Tasks -/

@[simp] theorem State.countWait_crank (m w : Nat) : (s.countWait m w).crank = s.crank := by simp [State.countWait]

@[simp] theorem State.writeFormat_crank (n f : Nat) (fmt : List Byte) : (s.writeFormat n f fmt).crank = s.crank := by
  simp -implicitDefEqProofs [State.writeFormat]

@[simp] theorem State.dispatchTo_crank (pos i place : Nat) (h : List Byte) (lad : Option (Ladder × List Byte)) :
    (s.dispatchTo pos i place h lad).crank = s.crank := by
  simp only [State.dispatchTo]
  split <;> simp -implicitDefEqProofs

@[simp] theorem dispatch_crank (pos i m : Nat) : (dispatch pos i m s).crank = s.crank := by
  unfold dispatch
  dsimp only
  split <;> simp

@[simp] theorem preempt_crank (pos save : Nat) : (preempt pos save s).crank = s.crank := by simp [preempt]
@[simp] theorem resume_crank (pos i : Nat) (k : Wick) : (resume pos i k s).crank = s.crank := by simp [resume]
@[simp] theorem State.discardTask_crank (i : Nat) : (s.discardTask i).crank = s.crank := by simp [State.discardTask]

@[simp] theorem State.sendMarks_crank (i : Nat) : (s.sendMarks i).crank = s.crank := by
  simp only [State.sendMarks]
  rw [State.setCtx_crank, foldl_crank]
  intro t p; split <;> simp

@[simp] theorem State.passTask_crank (i : Nat) : (s.passTask i).crank = s.crank := by simp [State.passTask]

@[simp] theorem commitPass_crank (i : Nat) (c : Ctx) : (commitPass i c s).crank = s.crank := by
  simp only [commitPass]
  (repeat' split) <;> simp

@[simp] theorem State.publishTask_crank (i : Nat) : (s.publishTask i).crank = s.crank := by simp [State.publishTask]

@[simp] theorem slotCommit_crank (key j slot : Nat) : (slotCommit key j slot s).crank = s.crank := by
  simp [slotCommit]

/-! ### Repair -/

@[simp] theorem State.wickOut_crank (pos : Nat) : (s.wickOut pos).crank = s.crank := by simp [State.wickOut]

@[simp] theorem State.replaceWick_crank (pos : Nat) (by_ : JEntry) : (s.replaceWick pos by_).crank = s.crank := by
  simp [State.replaceWick]

@[simp] theorem State.failStores_crank (m status : Nat) : (s.failStores m status).crank = s.crank := by
  simp [State.failStores]

@[simp] theorem State.moveLantern_crank (n sp : Nat) : (s.moveLantern n sp).crank = s.crank := by
  simp [State.moveLantern]

@[simp] theorem State.replaceLantern_crank (n m : Nat) (bad : Bool) (by_ : JEntry) :
    (s.replaceLantern n m bad by_).crank = s.crank := by
  simp [State.replaceLantern]

@[simp] theorem State.slotOut_crank (n m : Nat) : (s.slotOut n m).crank = s.crank := by
  simp only [State.slotOut]
  rw [State.noSpare_crank, foldl_crank]
  · simp
  · intro t i; (repeat' split) <;> simp

@[simp] theorem State.repairLantern_crank (n : Nat) (bad : Bool) : (s.repairLantern n bad).crank = s.crank := by
  unfold State.repairLantern
  split <;> simp

@[simp] theorem State.repairWick_crank (pos : Nat) (bad : Bool) : (s.repairWick pos bad).crank = s.crank := by
  simp [State.repairWick]

@[simp] theorem State.newLine_crank (kind unit line : Nat) (by_ : JEntry) :
    (s.newLine kind unit line by_).crank = s.crank := by
  simp [State.newLine]

@[simp] theorem State.dropCe_crank (p : Nat × Nat × Nat → Bool) : (s.dropCe p).crank = s.crank := by
  simp [State.dropCe]

@[simp] theorem State.askRepair_crank (cls unit detail : Nat) (key : Option Nat) :
    (s.askRepair cls unit detail key).crank = s.crank := by
  simp [State.askRepair]

@[simp] theorem State.autoRepair_crank (cls unit detail : Nat) (ue left bad : Bool) :
    (s.autoRepair cls unit detail ue left bad).crank = s.crank := by
  unfold State.autoRepair
  split <;> simp

@[simp] theorem autoRepair_crank (cls unit detail ces : Nat) (ue left bad : Bool) :
    (autoRepair cls unit detail ces ue left bad s).crank = s.crank := by
  simp [autoRepair]

@[simp] theorem foldSpareSwap_crank (st u : Nat) : (foldSpareSwap st u s).crank = s.crank := by simp [foldSpareSwap]
@[simp] theorem State.sootOne_crank (k m : Nat) : (s.sootOne k m).crank = s.crank := by simp [State.sootOne]
@[simp] theorem State.saveOver_crank : s.saveOver.crank = s.crank := by simp [State.saveOver]
@[simp] theorem calSave_crank (ok : Bool) : (calSave ok s).crank = s.crank := by simp [calSave]

@[simp] theorem otpProgWrite_crank (val : Nat) (ok : Bool) : (otpProgWrite val ok s).crank = s.crank := by
  simp [otpProgWrite]

/-! ### Snuffer -/

@[simp] theorem State.stacksMove_crank (a b : Nat) : (s.stacksMove a b).crank = s.crank := by simp [State.stacksMove]
@[simp] theorem State.freeze_crank (cause : Nat) : (s.freeze cause).crank = s.crank := by simp [State.freeze]
@[simp] theorem snuffPin_crank (low : Bool) : (snuffPin low s).crank = s.crank := by simp [snuffPin]
@[simp] theorem State.portsRetrain_crank : s.portsRetrain.crank = s.crank := by simp [State.portsRetrain]
@[simp] theorem State.thaw_crank : s.thaw.crank = s.crank := by simp [State.thaw]
@[simp] theorem snuffResume_crank : (snuffResume s).crank = s.crank := by simp [snuffResume]
@[simp] theorem releaseWick_crank : (releaseWick s).crank = s.crank := by simp [releaseWick]
@[simp] theorem killWick_crank : (killWick s).crank = s.crank := by simp [killWick]
@[simp] theorem wickCtlWrite_crank (val : Nat) : (wickCtlWrite val s).crank = s.crank := by simp [wickCtlWrite]
@[simp] theorem rcpvalidWrite_crank (val : Nat) : (rcpvalidWrite val s).crank = s.crank := by simp [rcpvalidWrite]

/-! ### Results -/

@[simp] theorem State.stall_crank (key : Nat) : (s.stall key).crank = s.crank := by simp [State.stall]

@[simp] theorem State.putEntry_crank (key : Nat) (entry : List Byte) (rows mark : Nat) {done : State → State}
    (h : ∀ t, (done t).crank = t.crank) : (s.putEntry key entry rows mark done).crank = s.crank := by
  simp only [State.putEntry]; split <;> simp [h]

@[simp] theorem State.delivered_crank (key i n : Nat) : (s.delivered key i n).crank = s.crank := by
  simp [State.delivered]

@[simp] theorem State.drawItems_crank (img : List Byte) : (s.drawItems img).crank = s.crank := by
  simp [State.drawItems]

@[simp] theorem State.continueRow_crank (key task : Nat) (bs : List Byte) :
    (s.continueRow key task bs).crank = s.crank := by
  simp [State.continueRow]

@[simp] theorem State.splitRow_crank (key i : Nat) (row : List Byte) : (s.splitRow key i row).crank = s.crank := by
  simp [State.splitRow]

@[simp] theorem State.wholeRows_crank (key i k : Nat) (rows : List (List Byte)) :
    (s.wholeRows key i k rows).crank = s.crank := by
  simp [State.wholeRows]

@[simp] theorem resultEntry_crank (key : Nat) (r : Run) : (resultEntry key r s).crank = s.crank := by
  simp only [resultEntry]
  (repeat' split) <;> simp

@[simp] theorem State.stopTasks_crank (key : Nat) : (s.stopTasks key).crank = s.crank := by simp [State.stopTasks]
@[simp] theorem suspend_crank (key : Nat) (r : Run) : (suspend key r s).crank = s.crank := by simp [suspend]

@[simp] theorem runResume_crank (key : Nat) (r : Run) : (runResume key r s).crank = s.crank := by
  simp only [runResume]
  rw [foldl_crank (by simp), State.setRun_crank, foldl_crank]
  intro t x; split <;> simp

/-! ### Tenants -/

@[simp] theorem State.setInst_crank (i : Nat) (f : Inst → Inst) : (s.setInst i f).crank = s.crank := by
  simp [State.setInst]

@[simp] theorem State.mailGen_crank (i gen : Nat) : (s.mailGen i gen).crank = s.crank := by simp [State.mailGen]
@[simp] theorem State.retire_crank (i : Nat) : (s.retire i).crank = s.crank := by simp [State.retire]

@[simp] theorem State.journalAmounts_crank (c : Cmd) (action i obj : Nat) (old new : List Nat) (all : Bool) :
    (s.journalAmounts c action i obj old new all).crank = s.crank := by
  simp [State.journalAmounts]

@[simp] theorem instanceCreate_crank (key : Nat) (c : Cmd) : (instanceCreate key c s).crank = s.crank := by
  unfold instanceCreate
  split <;> simp

@[simp] theorem State.releaseShrink_crank (i : Nat) : (s.releaseShrink i).crank = s.crank := by
  simp [State.releaseShrink]

@[simp] theorem instanceResize_crank (key : Nat) (c : Cmd) : (instanceResize key c s).crank = s.crank := by
  simp [instanceResize]

@[simp] theorem resizeRelease_crank (i : Nat) : (resizeRelease i s).crank = s.crank := by
  simp only [resizeRelease]
  (repeat' split) <;> simp

@[simp] theorem State.dropEvents_crank (i : Nat) : (s.dropEvents i).crank = s.crank := by simp [State.dropEvents]

@[simp] theorem State.dropCommands_crank (i : Nat) : (s.dropCommands i).crank = s.crank := by
  simp [State.dropCommands]

@[simp] theorem State.tearDown_crank (i : Nat) (keep : Bool) : (s.tearDown i keep).crank = s.crank := by
  simp [State.tearDown]

@[simp] theorem State.emptyAdmin_crank (i gen : Nat) : (s.emptyAdmin i gen).crank = s.crank := by
  simp [State.emptyAdmin]

@[simp] theorem instanceReset_crank (key : Nat) (c : Cmd) : (instanceReset key c s).crank = s.crank := by
  simp [instanceReset]

@[simp] theorem instanceDestroy_crank (key : Nat) (c : Cmd) : (instanceDestroy key c s).crank = s.crank := by
  simp only [instanceDestroy]
  (repeat' split) <;> simp

@[simp] theorem poolSetup_crank (key : Nat) (c : Cmd) : (poolSetup key c s).crank = s.crank := by simp [poolSetup]

@[simp] theorem State.tallyWrite_crank (g : Nat) (r : TallyRec) : (s.tallyWrite g r).crank = s.crank := by
  unfold State.tallyWrite
  dsimp only
  split <;> simp

@[simp] theorem tallyRecord_crank (g : Nat) : (tallyRecord g s).crank = s.crank := by
  unfold tallyRecord
  split <;> simp

@[simp] theorem memSample_crank : (memSample s).crank = s.crank := by simp [memSample]

/-! ### Boot -/

@[simp] theorem dieConversion_crank (n : Nat) (raw : Int) : (dieConversion n raw s).crank = s.crank := by
  simp [dieConversion]

@[simp] theorem voltReading_crank (v raw : Nat) : (voltReading v raw s).crank = s.crank := by simp [voltReading]
@[simp] theorem vidMove_crank : (vidMove s).crank = s.crank := by simp [vidMove]
@[simp] theorem State.resetEnds_crank : s.resetEnds.crank = s.crank := by simp [State.resetEnds]

@[simp] theorem pwrgoodHigh_crank (straps : Nat) : (pwrgoodHigh straps s).crank = s.crank := by
  unfold pwrgoodHigh
  dsimp only
  split <;> simp

@[simp] theorem State.enterStage_crank (k : Nat) : (s.enterStage k).crank = s.crank := by simp [State.enterStage]
@[simp] theorem resetNHigh_crank : (resetNHigh s).crank = s.crank := by simp [resetNHigh]
@[simp] theorem fuses_crank : (fuses s).crank = s.crank := by simp [fuses]
@[simp] theorem State.hold_crank : s.hold.crank = s.crank := by simp [State.hold]

@[simp] theorem sramTest_crank (banks : List Nat) : (sramTest banks s).crank = s.crank := by
  simp -implicitDefEqProofs [sramTest]

@[simp] theorem State.fillBuffer_crank (n : Nat) : (s.fillBuffer n).crank = s.crank := by simp [State.fillBuffer]

@[simp] theorem fetch_crank : (fetch s).crank = s.crank := by
  simp only [fetch]
  (repeat' split) <;> simp

@[simp] theorem bootGo_crank : (bootGo s).crank = s.crank := by simp [bootGo]
@[simp] theorem State.bootFails_crank : s.bootFails.crank = s.crank := by simp [State.bootFails]

@[simp] theorem State.reapplyFrame_crank (ch f : Nat) : (s.reapplyFrame ch f).crank = s.crank := by
  unfold State.reapplyFrame
  dsimp only
  split <;> split <;> simp

@[simp] theorem State.reapply_crank (e : Nat × Nat × Nat) : (s.reapply e).crank = s.crank := by
  unfold State.reapply
  split <;> simp

@[simp] theorem State.pageEntry_crank (e : List Byte) : (s.pageEntry e).crank = s.crank := by
  unfold State.pageEntry
  split <;> simp

@[simp] theorem State.loadPage_crank : s.loadPage.crank = s.crank := by
  simp only [State.loadPage]
  (repeat' split) <;> simp

@[simp] theorem State.trainStack_crank (st rate : Nat) (widths remaps : List Nat) (codes : List
    (Nat × Nat × Nat × Nat)) :
    (s.trainStack st rate widths remaps codes).crank = s.crank := by
  simp -implicitDefEqProofs [State.trainStack]

@[simp] theorem hbmStage_crank (rates : List Nat) (widths remaps : List (List Nat)) (codes : List (List
    (Nat × Nat × Nat × Nat))) :
    (hbmStage rates widths remaps codes s).crank = s.crank := by
  simp [hbmStage]

@[simp] theorem services_crank (bases : List Nat) : (services bases s).crank = s.crank := by
  simp -implicitDefEqProofs [services]

@[simp] theorem links_crank : (links s).crank = s.crank := by simp [links]

/-! ### Census -/

@[simp] theorem identify_crank (key : Nat) (c : Cmd) : (identify key c s).crank = s.crank := by simp [identify]
@[simp] theorem getLog_crank (key : Nat) (c : Cmd) : (getLog key c s).crank = s.crank := by simp [getLog]
@[simp] theorem getState_crank (key : Nat) (c : Cmd) : (getState key c s).crank = s.crank := by simp [getState]

/-! ### CsrBus -/

@[simp] theorem State.plainWrite_crank (off val : Nat) : (s.plainWrite off val).crank = s.crank := by
  unfold State.plainWrite
  split <;> simp

@[simp] theorem qmWrite_crank (who : Who) (off val : Nat) : (qmWrite who off val s).crank = s.crank := by
  simp only [qmWrite]
  (repeat' split) <;> simp

@[simp] theorem mlkWrite_crank (off val : Nat) : (mlkWrite off val s).crank = s.crank := by simp [mlkWrite]
@[simp] theorem hbmWrite_crank (off val : Nat) : (hbmWrite off val s).crank = s.crank := by simp [hbmWrite]
@[simp] theorem foldWrite_crank (off val : Nat) : (foldWrite off val s).crank = s.crank := by simp [foldWrite]
@[simp] theorem chnWrite_crank (off val : Nat) : (chnWrite off val s).crank = s.crank := by simp [chnWrite]
@[simp] theorem chdWrite_crank (off val : Nat) : (chdWrite off val s).crank = s.crank := by simp [chdWrite]
@[simp] theorem lanWrite_crank (off val : Nat) : (lanWrite off val s).crank = s.crank := by simp [lanWrite]
@[simp] theorem calWrite_crank (off val : Nat) : (calWrite off val s).crank = s.crank := by simp [calWrite]
@[simp] theorem topWrite_crank (off val : Nat) : (topWrite off val s).crank = s.crank := by simp [topWrite]

@[simp] theorem csrTake_crank (who : Who) (off : Nat) : (csrTake who off s).2.crank = s.crank := by
  unfold csrTake
  split <;> simp

@[simp] theorem State.rasNote_crank (e : RasEvent) : (s.rasNote e).crank = s.crank := by simp [State.rasNote]

@[simp] theorem State.logUnassigned_crank (who : Who) (write : Bool) (addr inst gen : Nat) :
    (s.logUnassigned who write addr inst gen).crank = s.crank := by
  simp [State.logUnassigned]

theorem csrChecked_crank {who : Who} {off size : Nat} {write : Bool} {s t : State}
    (h : csrChecked who off size write s = .error t) : t.crank = s.crank := by
  unfold csrChecked at h
  split at h
  · cases h; simp
  split at h
  · cases h
  · cases h; simp

@[simp] theorem csrBusRead_crank (who : Who) (off size : Nat) : (csrBusRead who off size s).2.crank = s.crank := by
  unfold csrBusRead
  split
  · simp
  · next h => exact csrChecked_crank h

@[simp] theorem unassignedAccess_crank (who : Who) (unit : Nat) (write : Bool) (addr : Nat) :
    (unassignedAccess who unit write addr s).crank = s.crank := by
  unfold unassignedAccess
  split <;> simp

/-! ### Access -/

@[simp] theorem State.hbmPoke_crank (a : Nat) (bs : List Byte) : (s.hbmPoke a bs).crank = s.crank := by
  simp -implicitDefEqProofs [State.hbmPoke]

@[simp] theorem State.mailWrite_crank (inst off : Nat) (bs : List Byte) :
    (s.mailWrite inst off bs).crank = s.crank := by
  simp [State.mailWrite]

@[simp] theorem State.refuse_crank (who : Who) (write : Bool) (a inst gen : Nat) :
    (s.refuse who write a inst gen).2.crank = s.crank := by
  simp [State.refuse]

@[simp] theorem devRead_crank (who : Who) (a n inst gen : Nat) : (devRead who a n inst gen s).2.crank = s.crank := by
  unfold devRead
  split
  · simp
  split
  · (repeat' split) <;> simp
  · dsimp only
    rw [foldl_snd_crank]
    intro p w; simp
  · rfl
  · rfl
  · simp

/-! ### Chain -/

@[simp] theorem State.chnFails_crank (c : Nat) (a : Int) (dst : Bool) (cause : Nat) :
    (s.chnFails c a dst cause).crank = s.crank := by
  simp [State.chnFails]

@[simp] theorem State.chnTally_crank (c a n : Nat) (write : Bool) : (s.chnTally c a n write).crank = s.crank := by
  simp [State.chnTally]

@[simp] theorem State.chnRead_crank (c : Nat) (faults : List (Nat × Nat × Nat)) (xs : List RawPiece) (xs' : List
    (List Byte)) :
    (s.chnRead c faults xs xs').2.crank = s.crank := by
  induction xs generalizing s xs' with
  | nil => rfl
  | cons p ps ih =>
    simp only [State.chnRead]
    split <;> next h => simp [ih, crank_of_snd h]

@[simp] theorem State.chnAskSource_crank (c : Nat) (ps : List RawPiece) : (s.chnAskSource c ps).crank = s.crank := by
  simp only [State.chnAskSource]
  rw [State.setChain'_crank, foldl_crank]
  intro t x
  split
  · next h => exact State.sendMrd_crank h
  · rfl

/-! ### Mgmt -/

@[simp] theorem State.smbAnswer_crank (data : List Byte) (nack : Bool) : (s.smbAnswer data nack).crank = s.crank := by
  simp [State.smbAnswer]

@[simp] theorem smbCsrRead_crank (off : Nat) : (smbCsrRead off s).crank = s.crank := by simp [smbCsrRead]

@[simp] theorem smbCommand_crank (bytes : List Byte) : (smbCommand bytes s).crank = s.crank := by
  simp only [smbCommand]
  (repeat' split) <;> simp

@[simp] theorem smbFreeze_crank (byte : Nat) : (smbFreeze byte s).crank = s.crank := by simp [smbFreeze]

@[simp] theorem State.tap_crank (ir : Nat) (err : Bool) (data : Nat) : (s.tap ir err data).crank = s.crank := by
  simp [State.tap]

@[simp] theorem boundaryScan_crank (ir : Nat) (cells : List Bool) : (boundaryScan ir cells s).crank = s.crank := by
  simp [boundaryScan]

@[simp] theorem jtagDone_crank (ir : Nat) (write : Bool) (r : Answer × State) :
    (jtagDone ir write r).crank = r.2.crank := by
  unfold jtagDone
  split <;> simp

@[simp] theorem testAcc_crank (write : Bool) (addr data : Nat) : (testAcc write addr data s).crank = s.crank := by
  unfold testAcc
  split
  · simp only [jtagDone_crank]; split <;> simp
  · simp only [jtagDone_crank]; split <;> simp
  · simp

end Sys2Proof.Machine
end

section
/-! SUPPORT. O59: what keeps the roles of both seats (R706). Here stand the operations that write `crank` but neither
role, and those that reach one of them. -/
namespace Sys2Proof.Machine
variable (s : State)

/-- R706: the roles of both seats. -/
def Crank.roles (k : Crank) : Role × Role := (k.roleA, k.roleB)

@[simp] theorem ite_roles (c : Prop) [Decidable c] (k l : Crank) :
    (if c then k else l).roles = if c then k.roles else l.roles := apply_ite ..

@[simp] theorem whenDue_roles (c : Bool) (s t : State) :
    (whenDue c s t).crank.roles = if c then t.crank.roles else s.crank.roles := by
  cases c <;> rfl

@[simp] theorem foldl_roles {α : Type} {f : State → α → State} (h : ∀ s a, (f s a).crank.roles = s.crank.roles)
    (l : List α) (s : State) : (l.foldl f s).crank.roles = s.crank.roles :=
  List.foldlRecOn (motive := fun t => t.crank.roles = s.crank.roles) l f rfl fun t ht a _ => (h t a).trans ht

/-! ### The Crankset -/

@[simp] theorem State.takeDoorbell_roles (d : Doorbell) : (s.takeDoorbell d).crank.roles = s.crank.roles := by
  unfold State.takeDoorbell
  split
  · split <;> simp [Crank.roles]
  · simp

@[simp] theorem State.freeStrokes_roles : s.freeStrokes.crank.roles = s.crank.roles := rfl
@[simp] theorem State.noStoker_roles : s.noStoker.crank.roles = s.crank.roles := by simp [State.noStoker, Crank.roles]

@[simp] theorem State.decideTakeover_roles (seat : Nat) : (s.decideTakeover seat).crank.roles = s.crank.roles := by
  unfold State.decideTakeover
  split
  · rfl
  · simp

@[simp] theorem strokeEnd_roles (cap : Nat) : (strokeEnd cap s).crank.roles = s.crank.roles := by
  simp [strokeEnd, Crank.roles]

@[simp] theorem release_roles : (release s).crank.roles = s.crank.roles := by simp [release, Crank.roles]
@[simp] theorem State.detach_roles : s.detach.crank.roles = s.crank.roles := rfl
@[simp] theorem State.askRejoin_roles (seat : Nat) : (s.askRejoin seat).crank.roles = s.crank.roles := rfl

@[simp] theorem State.arbitrate_roles : s.arbitrate.crank.roles = s.crank.roles := by
  unfold State.arbitrate
  split
  · split <;> simp
  · rfl

@[simp] theorem takeover_roles (seat : Nat) : (takeover seat s).crank.roles = s.crank.roles := by
  simp [takeover, Crank.roles]

@[simp] theorem State.setImage_roles (seat : Nat) (img : List Byte) :
    (s.setImage seat img).crank.roles = s.crank.roles := by
  unfold State.setImage
  split <;> rfl

@[simp] theorem crkCtlWrite_roles (val : Nat) : (crkCtlWrite val s).crank.roles = s.crank.roles := by
  simp only [crkCtlWrite]
  (repeat' split) <;> simp

@[simp] theorem fwStage_roles (key : Nat) (bytes : Option (List Byte)) (c : Cmd) :
    (fwStage key bytes c s).crank.roles = s.crank.roles := by
  simp only [fwStage]
  (repeat' split) <;> simp [Crank.roles]

@[simp] theorem State.activated_roles (key : Nat) (c : Cmd) (flash : Bool) :
    (s.activated key c flash).crank.roles = s.crank.roles := by
  simp [State.activated, Crank.roles]

/-! ### Repair -/

@[simp] theorem State.startRepair_roles (key kind unit detail : Nat) (bad : Bool) :
    (s.startRepair key kind unit detail bad).crank.roles = s.crank.roles := by
  have taking (t : State) (x : Option Nat) :
      ({ t with crank := { t.crank with taking := x } } : State).crank.roles = t.crank.roles := rfl
  simp only [State.startRepair]
  split <;> simp [taking]

@[simp] theorem repair_roles (key : Nat) (left bad : Bool) (c : Cmd) :
    (repair key left bad c s).crank.roles = s.crank.roles := by
  simp only [repair]
  split <;> simp

/-! ### The CSR bus and the accesses by device address -/

@[simp] theorem crkWrite_roles (off val : Nat) : (crkWrite off val s).crank.roles = s.crank.roles := by simp [crkWrite]

@[simp] theorem csrStore_roles (who : Who) (off val : Nat) : (csrStore who off val s).crank.roles = s.crank.roles := by
  simp [csrStore]

@[simp] theorem csrWrite_roles (who : Who) (off val : Nat) : (csrWrite who off val s).crank.roles = s.crank.roles := by
  simp [csrWrite]

@[simp] theorem csrBusWrite_roles (who : Who) (off size val : Nat) :
    (csrBusWrite who off size val s).crank.roles = s.crank.roles := by
  unfold csrBusWrite
  split
  · simp
  · next h => rw [csrChecked_crank h]

@[simp] theorem devWrite_roles (who : Who) (a : Nat) (bs : List Byte) (inst gen : Nat) :
    (devWrite who a bs inst gen s).2.crank.roles = s.crank.roles := by
  unfold devWrite
  split
  · simp
  · split <;> simp

/-! ### The Chain, the management port and JTAG -/

@[simp] theorem State.chnPut_roles (c : Nat) (ps : List RawPiece) (bs : List (List Byte)) :
    (s.chnPut c ps bs).crank.roles = s.crank.roles := by
  unfold State.chnPut
  split <;> simp

@[simp] theorem State.chnBegin_roles (c : Nat) (faults : List (Nat × Nat × Nat)) :
    (s.chnBegin c faults).crank.roles = s.crank.roles := by
  unfold State.chnBegin
  dsimp only
  split
  · rfl
  split
  · simp
  split
  · simp
  split
  · rfl
  split
  · simp
  split <;> next h => simp [crank_of_snd h]

@[simp] theorem chnStep_roles (c : Nat) (faults : List (Nat × Nat × Nat)) :
    (chnStep c faults s).crank.roles = s.crank.roles := by
  simp [chnStep]

@[simp] theorem chnCmd_roles (who : Who) (c val bit : Nat) (s t : State) :
    (chnCmd who c val bit s t).crank.roles =
      if s.live && decide (c < 64) && reaches who && bitAt val bit then t.crank.roles else s.crank.roles :=
  whenDue_roles ..

@[simp] theorem State.smb_roles (pec : Bool) (s t : State) :
    (s.smb pec t).crank.roles =
      if s.smbServes then if pec then t.crank.roles else s.crank.roles else s.crank.roles := by
  simp [State.smb]

@[simp] theorem memAcc_roles (write : Bool) (addr data : Nat) :
    (memAcc write addr data s).crank.roles = s.crank.roles := by
  simp only [memAcc, jtagDone_crank]
  split <;> simp

end Sys2Proof.Machine
end

section
/-! SUPPORT. O59: at most one seat is CAPTAIN (R706). Most of what moves a role makes no seat CAPTAIN that was none;
the release of a gap, Lamplighter and a reset end with a seat that is not CAPTAIN, whatever the roles were. -/
namespace Sys2Proof.Machine

/-- R706: at most one seat is CAPTAIN. -/
def State.OneCaptain (s : State) : Prop := ¬(s.crank.roleA = .captain ∧ s.crank.roleB = .captain)

/-- No seat is CAPTAIN in `t` that is not CAPTAIN in `s`. -/
def NoNewCaptain (s t : State) : Prop := ∀ seat, t.role seat = .captain → s.role seat = .captain

variable {s t u : State} {c : Bool}

/-! ### The role of a seat -/

theorem State.role_of_roles (h : t.crank.roles = s.crank.roles) (seat : Nat) : t.role seat = s.role seat := by
  obtain ⟨ha, hb⟩ := Prod.mk.inj h
  simp [State.role, ha, hb]

theorem State.setRole_role (s : State) (seat seat' : Nat) (r : Role) :
    (s.setRole seat r).role seat' = if (seat = 1 ↔ seat' = 1) then r else s.role seat' := by
  unfold State.role State.setRole
  by_cases h : seat = 1 <;> by_cases h' : seat' = 1 <;> simp [h, h']

@[simp] theorem State.role_setRole_same (s : State) (seat : Nat) (r : Role) : (s.setRole seat r).role seat = r := by
  simp [State.setRole_role]

theorem State.oneCaptain_of_role (seat : Nat) (h : t.role seat ≠ .captain) : t.OneCaptain := by
  unfold State.role at h
  split at h
  · exact fun both => h both.2
  · exact fun both => h both.1

/-! ### No new captain -/

theorem NoNewCaptain.of_roles (h : t.crank.roles = s.crank.roles) : NoNewCaptain s t :=
  fun seat captain => State.role_of_roles h seat ▸ captain

theorem NoNewCaptain.trans (h : NoNewCaptain s t) (h' : NoNewCaptain t u) : NoNewCaptain s u :=
  fun seat captain => h seat (h' seat captain)

theorem NoNewCaptain.setRole (s : State) (seat : Nat) {r : Role} (hr : r ≠ .captain) :
    NoNewCaptain s (s.setRole seat r) := by
  intro seat' h
  rw [State.setRole_role] at h
  split at h
  · exact absurd h hr
  · exact h

theorem NoNewCaptain.ite {c : Prop} [Decidable c] (h : NoNewCaptain s t) (h' : NoNewCaptain s u) :
    NoNewCaptain s (if c then t else u) := by
  split <;> assumption

theorem NoNewCaptain.whenDue (h : NoNewCaptain s t) : NoNewCaptain s (whenDue c s t) := by
  cases c
  · exact .of_roles rfl
  · exact h

theorem NoNewCaptain.oneCaptain (h : NoNewCaptain s t) (one : s.OneCaptain) : t.OneCaptain :=
  fun both => one ⟨h 0 both.1, h 1 both.2⟩

/-! ### Operations that make no seat CAPTAIN -/

@[simp] theorem State.seatFails_roles (s : State) (seat : Nat) :
    (s.seatFails seat).crank.roles = (s.setRole seat .failed).crank.roles := rfl

@[simp] theorem State.synchronise_roles (s : State) (seat : Nat) :
    (s.synchronise seat).crank.roles = (s.setRole seat .stoker).crank.roles := by
  simp only [State.synchronise, State.seatRepaired_crank, State.bump_crank]; rfl

@[simp] theorem State.activate_roles (s : State) (key st : Nat) :
    (s.activate key st).crank.roles = ((s.beginCmd key).setRole st .booting).crank.roles := rfl

theorem State.seatFails_noNewCaptain (s : State) (seat : Nat) : NoNewCaptain s (s.seatFails seat) :=
  (NoNewCaptain.setRole s seat (by decide)).trans (.of_roles (s.seatFails_roles seat))

theorem State.synchronise_noNewCaptain (s : State) (seat : Nat) : NoNewCaptain s (s.synchronise seat) :=
  (NoNewCaptain.setRole s seat (by decide)).trans (.of_roles (s.synchronise_roles seat))

theorem heartbeatWindow_noNewCaptain (seat : Nat) (copy wire : Bool) (s : State) :
    NoNewCaptain s (heartbeatWindow seat copy wire s) := by
  unfold heartbeatWindow
  extract_lets w k watched lost copyLost wireLost t
  have kept : t.crank.roles = s.crank.roles := by
    have hw : watched.crank.roles = s.crank.roles := by
      simp only [watched]
      split <;> rfl
    have hlost : lost.crank.roles = s.crank.roles := by simp [lost, hw]
    have hc : copyLost.crank.roles = s.crank.roles := by
      simp only [copyLost]
      (repeat' split) <;> simp [hw, hlost]
    have hl : wireLost.crank.roles = s.crank.roles := by
      simp only [wireLost]
      split <;> simp [hc]
    simp only [t]
    (repeat' split) <;> simp [hl]
  split
  · split
    · exact (NoNewCaptain.of_roles kept).trans (t.seatFails_noNewCaptain _)
    · exact .of_roles (by simp [kept])
  · exact .of_roles kept

theorem rejoin_noNewCaptain (seat : Nat) (s : State) : NoNewCaptain s (rejoin seat s) := by
  unfold rejoin
  split
  · exact s.synchronise_noNewCaptain seat
  split
  · exact .of_roles (by simp only [State.seatRepaired_crank]; rfl)
  next img _ =>
  have synced : NoNewCaptain s ((s.setImage seat img).synchronise seat) :=
    (NoNewCaptain.of_roles (s.setImage_roles seat img)).trans (State.synchronise_noNewCaptain _ seat)
  dsimp only
  split
  · exact synced.trans (.of_roles rfl)
  · exact synced.trans (.of_roles rfl)
  · exact synced

theorem fwActivate_noNewCaptain (key : Nat) (flash : Bool) (c : Cmd) (s : State) :
    NoNewCaptain s (fwActivate key flash c s) := by
  unfold fwActivate
  split
  · split
    · exact .of_roles (by simp)
    · exact ((NoNewCaptain.of_roles (by simp)).trans (NoNewCaptain.setRole _ _ (by decide))).trans
        (.of_roles (s.activate_roles key _))
    · exact .of_roles rfl
  · split
    · split
      · exact .of_roles rfl
      · exact .of_roles rfl
    · split
      · exact .of_roles rfl
      · exact .of_roles (by simp)
    · exact .of_roles rfl

theorem fwAbandon_noNewCaptain (key : Nat) (s : State) : NoNewCaptain s (fwAbandon key s) := by
  unfold fwAbandon
  extract_lets st t u
  refine (NoNewCaptain.setRole s st (r := .booting) (by decide)).trans (.of_roles ?_)
  rw [State.finishCmd_crank]
  rfl

theorem verify_noNewCaptain (seat : Nat) (s : State) : NoNewCaptain s (verify seat s) := by
  unfold verify
  extract_lets img booted k verified fallen _ _ tried
  have hv : verified.crank.roles = s.crank.roles := s.setImage_roles seat img
  have ht : tried.crank.roles = s.crank.roles := rfl
  split
  · split
    · exact .of_roles (by simp [hv])
    · exact .of_roles hv
  split
  · exact .of_roles (by simp [ht])
  · have failed : NoNewCaptain tried ((tried.setRole 0 .failed).setRole 1 .failed) :=
      (NoNewCaptain.setRole _ 0 (by decide)).trans (.setRole _ 1 (by decide))
    exact ((NoNewCaptain.of_roles ht).trans failed).trans (.of_roles (by simp))

/-! ### Operations after which some seat is not CAPTAIN -/

theorem releaseGap_oneCaptain (seat : Nat) (s : State) : (releaseGap seat s).OneCaptain := by
  refine State.oneCaptain_of_role (other seat) ?_
  unfold releaseGap
  extract_lets cyc _ ended counted roles journalled repaired ds
  rw [State.role_of_roles (s := (counted.setRole seat .captain).setRole (other seat) .failed)]
  · simp
  · rw [foldl_crank State.applyDoorbell_crank]
    have hr : repaired.crank = roles.crank := by simp [repaired, journalled]
    change repaired.crank.roles = _
    rw [hr]
    exact State.seatFails_roles ..

theorem other_ne_seat (cap : Nat) : ¬(cap = 1 ↔ other cap = 1) := by
  unfold other
  split <;> simp [*]

theorem State.bootRoles_role_ne (s : State) (cap : Nat) : (s.bootRoles cap).role (other cap) ≠ .captain := by
  unfold State.bootRoles
  extract_lets two t u
  change u.role (other cap) ≠ .captain
  have kept : t.role (other cap) = s.role (other cap) := by
    rw [State.role_of_roles (s := s.setRole cap .captain) (t := t) rfl, State.setRole_role, if_neg (other_ne_seat cap)]
  by_cases failed : s.role (other cap) = .failed
  · have hu : u = t := by simp [u, two, failed]
    simp [hu, kept, failed]
  · have hu : u = (t.setRole (other cap) .stoker).setClaim (other cap) 0 := by simp [u, two, failed]
    rw [State.role_of_roles (s := t.setRole (other cap) .stoker) (t := u) (by rw [hu]; rfl), State.role_setRole_same]
    decide

theorem lamplighter_oneCaptain (cap fails : Nat) (s : State) : (lamplighter cap fails s).OneCaptain := by
  refine State.oneCaptain_of_role (other cap) ?_
  rw [State.role_of_roles (s := s.bootRoles cap)]
  · exact s.bootRoles_role_ne cap
  · simp [lamplighter]

theorem State.coldReset_oneCaptain (s : State) : s.coldReset.OneCaptain :=
  State.oneCaptain_of_role 0 (by simp [State.role, State.coldReset, State.reset])

theorem State.warmReset_oneCaptain (s : State) : s.warmReset.OneCaptain := by
  refine State.oneCaptain_of_role 0 ?_
  simp -implicitDefEqProofs [State.role, State.warmReset, State.reset]

end Sys2Proof.Machine
end

section
/-! SUPPORT. O59: every instruction, and so every step, keeps at most one seat CAPTAIN. -/
namespace Sys2Proof.Machine

/-- The outcome is a next state, with at most one seat CAPTAIN where `s` has at most one. -/
def KeepsOne (s : State) (o : Host.Outcome State Fault Refusal) : Prop :=
  ∃ t, o = .next t ∧ (s.OneCaptain → t.OneCaptain)

variable {s t : State} {c : Bool}

theorem KeepsOne.of_noNewCaptain (h : NoNewCaptain s t) : KeepsOne s (.next t) := ⟨t, rfl, h.oneCaptain⟩

theorem KeepsOne.of_roles (h : t.crank.roles = s.crank.roles) : KeepsOne s (.next t) :=
  .of_noNewCaptain (.of_roles h)

theorem KeepsOne.of_oneCaptain (h : t.OneCaptain) : KeepsOne s (.next (whenDue c s t)) := by
  refine ⟨_, rfl, ?_⟩
  cases c
  · exact id
  · exact fun _ => h

/-- The words of a wick, the rows of one outcome and the rows that look a value up first keep the roles; then come the
rows that reach a role. -/
theorem exec_keepsOne (i : Instr) (s : State) : KeepsOne s (exec i s) := by
  cases i
  case wordNop | mov | add | sub | mul | mulh | mulhu | div | divu | rem | remu | min | max | minu | maxu | neg | abs
    | and | or | xor | andn | not | shl | shr | sar | addo | subo | mulo | addou | subou | swiden | uwiden | narrow
    | addq | subq | addqo | subqo | dscl | dsclo | ddivr | cmpeq | cmpne | cmplt | cmple | cmpgt | cmpge | cmpltu
    | cmpleu | cmpgtu | cmpgeu | blend | compress | expand | mcount | mexp | mpack | mtail | fadd | fsub | fmul | fdiv
    | fsqrt | fmin | fmax | fneg | fabs | fceq | fclt | fcle | fcanon | fcvtf | fcvti | fwiden | fnarrow | hash
    | hashf | crcb | pfxcmp | bclass | ldx | gather | stx | sfold | emit | eflush | search | step | slpush | slseal
    | slpop | lda | adda | sta | rdff | clrff | rdrep | br | bany | ball | bnone | bnall | loop | baz | banz | call
    | ret | yield | halt | haltf | rep | repi => exact .of_roles (by simp)
  case csrWrite | csrReadClear | unassignedAccess | tailDoorbell | dbell | cmdp | entryFetch | headPublish | ntfy
    | overflowEvent | mailboxDoorbell | resizeRelease | generationRetireEnd | qmQresetGo | queueEnable | cog
    | loadWindow | preempt | watchdog | stalledWordIssue | commitPass | publish | migration | rcpinv
    | recipeWindowWrite | exchangeSend | recordsPacket | markPacket | markAck | unreachable | chdGo | chdClear
    | scrubRow | bankWrite | foldLineDrain | foldSpareSwap | foldTblCfgWrite | fmtctlSet | fmtctlClear
    | formatWindowWrite | refWindow | refLossTimeout | ppsPulse | ppsTimeout | slewStep | oscMeasure | cogcfgWrite
    | minuteBoundary | flitReceive | replayTimeout | swapReq | laneErrorWindow | portEnable | retrain | trainingFrames
    | equaliseDone | alignDone | configAgreement | trainTimeout | refclkLoss | cpl | publicationReissue | hello | echo
    | refresh | patrolRead | hbmRetrain | frameRetire | trnGo | chainGo | chainAbort | chainClear | chainComplete
    | sconceFill | sconceWriteBack | scnClean | scnInvalidate | scnCleanInvalidate | scnRange | scnLock
    | releaseStroke | grantChange | swxImport | sootMeasure | autoRepair | calSave | otpProgGo
    | snuffPin | releaseWick | kill | rcpvalidGo | crkRejoinWrite | pwrgoodHigh | resetNHigh | thermTrip | vidMove
    | fusesStage | sramTestStage | fetchStage | fetchTimeout | hbmStage | servicesStage | linksStage | bootGo
    | smbCsrRead | smbCsrWrite | smbCommand | smbStatusRead | smbFreeze | extest | samplePreload | idcode | memAcc
    | testAcc | snuff | resume | bypass | scrubVisitEnd | dieSensorConversion | voltageMonitorReading
    | smbAlertResponse | ackReport | memHeldSample => exact .of_roles (by simp)
  case eventWrite | identify | queueCreate | queueDelete | queueDrain | queueFlush | getState | setFeature | getLog
    | instanceCreate | instanceResize | instanceReset | instanceDestroy | staleWriteDrop | poolSetup | fwStage
    | keyLoad | repair | timeSet | timeSetTimeout | tableWrite | xferRdy | dataPacket | xferTimeout | tableRead
    | tableCopy | regionAlloc | regionFree | pipelineLoad | pipelineUnload | queryRun | runStart | queryAbort
    | queryStatus | digest | barrier | nop | stageStart | stageBarrier | dispatch | resumeTask | farLoadData
    | slotCommit | slotRestart | resultEntryWrite | endEntryWrite | resultStall | runResume | deadlineMissed
    | recipeSlotFill | segmentDeliver | idBitmapBuild | ledgerReport | ledgerFill | exchangeFlitReceive
    | chdSearchServe | chdStepServe | chdInsert | chdDelete | foldRequestApply | foldFinish | ladderSort | runClose
    | sortMerge | tallyRecordWrite | controlResend | swapAt | linkLost | cplTimeout | echoReply | tempReadout
    | sconceRequest | strokeEnd | takeover | swxBlock | swxExport | swxWaitTimeout =>
    simp only [exec, execEventWrite, execIdentify, execQueueCreate, execQueueDelete, execQueueDrain,
      execQueueFlush, execGetState, execSetFeature, execGetLog, execInstanceCreate, execInstanceResize,
      execInstanceReset, execInstanceDestroy, execStaleWriteDrop, execPoolSetup, execFwStage, execKeyLoad,
      execRepair, execTimeSet, execTimeSetTimeout, execTableWrite, execXferRdy, execDataPacket,
      execXferTimeout, execTableRead, execTableCopy, execRegionAlloc, execRegionFree, execPipelineLoad,
      execPipelineUnload, execQueryRun, execRunStart, execQueryAbort, execQueryStatus, execDigest,
      execBarrier, execNop, execStageStart, execStageBarrier, execDispatch, execResumeTask, execFarLoadData,
      execSlotCommit, execSlotRestart, execResultEntryWrite, execEndEntryWrite, execResultStall,
      execRunResume, execDeadlineMissed, execRecipeSlotFill, execSegmentDeliver, execIdBitmapBuild,
      execLedgerReport, execLedgerFill, execExchangeFlitReceive, execChdSearchServe, execChdStepServe,
      execChdInsert, execChdDelete, execFoldRequestApply, execFoldFinish, execLadderSort, execRunClose,
      execSortMerge, execTallyRecordWrite, execControlResend, execSwapAt, execLinkLost, execCplTimeout,
      execEchoReply, execTempReadout, execSconceRequest, execStrokeEnd, execTakeover, execSwxBlock,
      execSwxExport, execSwxWaitTimeout]
    (repeat' split) <;> exact .of_roles (by simp)
  case claimInstruction seat =>
    exact .of_noNewCaptain (.whenDue (.ite (.of_roles rfl) (.ite (.of_roles (by simp)) (.of_roles rfl))))
  case strokeCopy =>
    simp only [exec, execStrokeCopy]
    split
    · exact .of_noNewCaptain (.whenDue (.of_roles rfl))
    · exact .of_roles rfl
  case heartbeatWindow seat copy wire => exact .of_noNewCaptain (heartbeatWindow_noNewCaptain seat copy wire s).whenDue
  case verifyStage seat => exact .of_noNewCaptain (verify_noNewCaptain seat s).whenDue
  case pwrgoodLow => exact .of_oneCaptain s.coldReset_oneCaptain
  case resetNLow =>
    simp only [exec, execResetNLow]
    split
    · exact .of_oneCaptain s.warmReset_oneCaptain
    · exact .of_roles (by simp)
  case fwActivate key flash =>
    simp only [exec, execFwActivate]
    split
    · exact .of_noNewCaptain (fwActivate_noNewCaptain key flash _ s)
    · exact .of_roles rfl
  case fwActivateTimeout =>
    simp only [exec, execFwActivateTimeout]
    split
    · exact .of_noNewCaptain (fwAbandon_noNewCaptain _ s).whenDue
    · exact .of_roles rfl
  case releaseGap =>
    simp only [exec, execReleaseGap]
    split
    · exact .of_oneCaptain (releaseGap_oneCaptain _ s)
    · exact .of_roles rfl
  case rejoin seat =>
    simp only [exec, execRejoin]
    split
    · exact .of_noNewCaptain (rejoin_noNewCaptain seat s).whenDue
    · exact .of_roles rfl
  case seatBootTimeout =>
    simp only [exec, execSeatBootTimeout]
    split
    next seat _ _ _ =>
      exact .of_noNewCaptain ((s.seatFails_noNewCaptain (other seat)).trans (.of_roles (by simp))).whenDue
    · exact .of_roles rfl
  case lamplighterStage fails =>
    simp only [exec, execLamplighterStage]
    split
    · exact .of_oneCaptain (lamplighter_oneCaptain _ fails s)
    · exact .of_roles rfl
  -- The row left is `BREAK`, whose name is a keyword and so cannot tag a case.
  exact .of_roles (by simp)

/-- An empty queue is a tick of the clock (log entry 3). -/
theorem step_keepsOne (s : State) : KeepsOne s (step s) := by
  unfold step
  split
  · exact .of_roles (by simp)
  next i rest _ => exact exec_keepsOne i { s with pending := rest }

/-! ### The register that shows the roles -/

theorem Role.code_lt (r : Role) : r.code < 4 := by cases r <;> decide

theorem State.csrRead_crkStat (s : State) : s.csrRead R.CRK_STAT = s.crkStat := rfl

theorem State.crkStat_roles (s : State) :
    s.crkStat % 4 = s.crank.roleA.code ∧ s.crkStat / 4 % 4 = s.crank.roleB.code := by
  have ha := s.crank.roleA.code_lt
  have hb := s.crank.roleB.code_lt
  unfold State.crkStat
  omega

end Sys2Proof.Machine

open Sys2Proof.Machine

/-- Settles O59: every instruction keeps at most one seat CAPTAIN, and the low bits of `CRK_STAT` are the codes of both
roles. -/
theorem oneCaptain : Obligations.OneCaptain := by
  refine ⟨?steps, ?codes⟩
  case steps =>
    intro s one
    obtain ⟨t, next, keeps⟩ := step_keepsOne s
    exact ⟨t, next, keeps one⟩
  case codes =>
    intro s
    rw [s.csrRead_crkStat]
    exact s.crkStat_roles
end
